-- ==== Sys2Proof/Word.lean ====
section
/-!
DEFINITION. The byte of the CG-320's two kinds of link. Everything else the part holds is a count, an identifier, a
time or a named state, and is modelled as such.
-/

namespace Sys2Proof

/-- One byte of a control link or field line frame (01, section 1.2; 02, section 2.3). -/
abbrev Byte := BitVec 8

end Sys2Proof
end

