-- ==== Sys2Proof/Syntax.lean ====
section
/-!
DEFINITION. The commands of the CG-320: one constructor for each row of spec/opcode_table.json, in the table's order.
A request row carries what its frame carries, the tag and the body; a byte event carries the byte and whether its stop
bit was sampled low; a timed event names the record whose timer has run out.
-/

namespace Sys2Proof

/-- The commands that the part takes (95, What each step holds). -/
inductive Instr where
  /-- POWER_ON_RESET (R17). The reset is released: `supply` if the supply monitor held the part in reset, and the levels of the straps LR1 and LR0 at the release. A low level on RST or the internal supply monitor resets the whole part; at the release, every block takes its power-on state and HELLO is queued. -/
  | powerOnReset (supply lr1 lr0 : Bool)
  /-- FRAME_RECEIVED (R3). The byte that completes the candidate frame with a passing check arrives on RXD. A candidate control link frame completes with a passing check; a request goes to the request slots, and a frame of any other kind is discarded and counted. -/
  | frameReceived (b : Byte)
  /-- FRAME_ABANDONED (R4). The byte on which the candidate is abandoned arrives on RXD (`stopLow`: its stop bit was sampled low). A candidate frame is abandoned on a length above 1,020, a framing error or a failed check; the link error count rises and hunting restarts on the buffered bytes. -/
  | frameAbandoned (b : Byte) (stopLow : Bool)
  /-- RECEIVE_GAP_TIMEOUT (R4). More than 20 ms pass between two bytes of a candidate frame, so the candidate is abandoned and counted. -/
  | receiveGapTimeout
  /-- TRANSMIT_END (R10). The last byte of a frame leaves TXD; a sent reply empties the executing slot and promotes the waiting request, and the next waiting reply, or else the head notice, starts sending. -/
  | transmitEnd
  /-- UNKNOWN_KIND (R7). A request of kind 0x30 + `low` arrives. A request of kind 0x30-0x3F is refused with UNKNOWN_KIND. -/
  | unknownKind (low : Fin 16) (tag : Byte) (body : List Byte)
  /-- STATUS (R15). A request of this kind with tag and body. Reports the part state, part time, error counts, queue depth, outstation counts and other summary values. -/
  | status (tag : Byte) (body : List Byte)
  /-- READ_TABLE (R16). A request of this kind with tag and body. Returns a run of consecutive records of one table, as many as fit in the body. -/
  | readTable (tag : Byte) (body : List Byte)
  /-- READ_CHANGES (R80). A request of this kind with tag and body. Returns up to 32 marked segments in ascending id with their present state, clears those marks and reports whether marks remain. -/
  | readChanges (tag : Byte) (body : List Byte)
  /-- SET_NOTICES (R13). A request of this kind with tag and body. Sets all eight notice class enables and returns the enables in force before the request. -/
  | setNotices (tag : Byte) (body : List Byte)
  /-- RESTART (R19). A request of this kind with tag and body. Makes the OK reply; the part resets when that reply has been sent. -/
  | restart (tag : Byte) (body : List Byte)
  /-- BEGIN_LOAD (R14). A request of this kind with tag and body. Moves the part from UNLOADED to LOADING. -/
  | beginLoad (tag : Byte) (body : List Byte)
  /-- END_LOAD (R69). A request of this kind with tag and body. Validates the whole model, and then either refuses with the first faulty item or sets up the running model and enters RUNNING. -/
  | endLoad (tag : Byte) (body : List Byte)
  /-- SET_LINE (R21). A request of this kind with tag and body. Replaces the rate, reply window, cycle period and failure limit of one field line. -/
  | setLine (tag : Byte) (body : List Byte)
  /-- DEFINE_OUTSTATION (R23). A request of this kind with tag and body. Defines one outstation entry with its line, drop and kind. -/
  | defineOutstation (tag : Byte) (body : List Byte)
  /-- DEFINE_POINT (R43). A request of this kind with tag and body. Defines one pressure or discrete point with its settings and its starting state. -/
  | definePoint (tag : Byte) (body : List Byte)
  /-- DEFINE_DISTRICT (R65). A request of this kind with tag and body. Defines one district and its lamp number. -/
  | defineDistrict (tag : Byte) (body : List Byte)
  /-- DEFINE_SEGMENT (R66). A request of this kind with tag and body. Defines one segment with its district, tier, premises counts and valve list. -/
  | defineSegment (tag : Byte) (body : List Byte)
  /-- DEFINE_VALVE (R67). A request of this kind with tag and body. Defines one valve with its ends, kind, actuator slot, normal position and travel limit. -/
  | defineValve (tag : Byte) (body : List Byte)
  /-- DEFINE_FEED (R68). A request of this kind with tag and body. Defines one feed with its segment, outlet point and service state. -/
  | defineFeed (tag : Byte) (body : List Byte)
  /-- DEFINE_CREW (R145). A request of this kind with tag and body. Defines one crew with its kind, home district and starting state. -/
  | defineCrew (tag : Byte) (body : List Byte)
  /-- SET_RESPONSE (R135). A request of this kind with tag and body. Replaces the three response times and the escalation interval, and in RUNNING brings deadlines forward. -/
  | setResponse (tag : Byte) (body : List Byte)
  /-- SET_DISPATCH (R148). A request of this kind with tag and body. Replaces the three class reloads and the offer time, and resets each class level to its reload. -/
  | setDispatch (tag : Byte) (body : List Byte)
  /-- HOLD_LINE (R40). A request of this kind with tag and body. Holds a field line: abandons its transaction, empties its command queue and puts every outstation of the line in HELD. -/
  | holdLine (tag : Byte) (body : List Byte)
  /-- FREE_LINE (R41). A request of this kind with tag and body. Frees a held line: its outstations go to UNKNOWN, and the line begins cycle 0 or becomes IDLE. -/
  | freeLine (tag : Byte) (body : List Byte)
  /-- ACK_POINT (R59). A request of this kind with tag and body. Clears the LOW_SEEN latches and pending flags of up to sixteen named points. -/
  | ackPoint (tag : Byte) (body : List Byte)
  /-- SET_BANDS (R60). A request of this kind with tag and body. Replaces the band thresholds, hysteresis and ride-through of a pressure point and drops any candidate band. -/
  | setBands (tag : Byte) (body : List Byte)
  /-- EDIT_SEGMENT (R75). A request of this kind with tag and body. Replaces the customers and priority premises of a SUPPLIED segment. -/
  | editSegment (tag : Byte) (body : List Byte)
  /-- EDIT_VALVE (R76). A request of this kind with tag and body. Sets or clears a valve's inoperable flag, with the effects of R74. -/
  | editValve (tag : Byte) (body : List Byte)
  /-- EDIT_FEED (R77). A request of this kind with tag and body. Sets a feed's service state; its liveness is derived again and supply-pending may be raised. -/
  | editFeed (tag : Byte) (body : List Byte)
  /-- VALVE_REPORT (R73). A request of this kind with tag and body. Records a reported valve position or CANNOT_OPERATE and hands the report to the isolation planner. -/
  | valveReport (tag : Byte) (body : List Byte)
  /-- PLAN (R101). A request of this kind with tag and body. Takes the lowest FREE plan for a target segment, puts it in REQUESTED and queues its job. -/
  | plan (tag : Byte) (body : List Byte)
  /-- EXECUTE (R109). A request of this kind with tag and body. Makes a READY plan the holder of its valves, orders CLOSE operations on its close list and takes it to EXECUTING. -/
  | execute (tag : Byte) (body : List Byte)
  /-- REISSUE (R118). A request of this kind with tag and body. Orders new operations on the qualifying valves of a BLOCKED or RELEASING plan. -/
  | reissue (tag : Byte) (body : List Byte)
  /-- ABORT (R119). A request of this kind with tag and body. Cancels a plan's running operations, drops its holds and frees the plan without reopening any valve. -/
  | abort (tag : Byte) (body : List Byte)
  /-- RELEASE (R120). A request of this kind with tag and body. Drops an ISOLATED plan's holds, orders OPEN operations on the valves to be reopened and takes the plan to RELEASING. -/
  | release (tag : Byte) (body : List Byte)
  /-- DROP_PLAN (R107). A request of this kind with tag and body. Frees a plan that is READY, STALE or FAILED. -/
  | dropPlan (tag : Byte) (body : List Byte)
  /-- OPERATE (R122). A request of this kind with tag and body. Orders an operation of HOST origin to open or close one valve. -/
  | operate (tag : Byte) (body : List Byte)
  /-- CALL (R126). A request of this kind with tag and body. Takes a SMELL, DAMAGE or NO_GAS call: it merges into an incident, opens one, or goes to the outage register. -/
  | call (tag : Byte) (body : List Byte)
  /-- INCIDENT_UPDATE (R141). A request of this kind with tag and body. Takes an incident to MADE_SAFE or REPAIRED, or closes it. -/
  | incidentUpdate (tag : Byte) (body : List Byte)
  /-- CREW_STATE (R146). A request of this kind with tag and body. Puts a free crew on shift or off shift. -/
  | crewState (tag : Byte) (body : List Byte)
  /-- ANSWER_OFFER (R151). A request of this kind with tag and body. Takes a crew's ACCEPT or DECLINE of its open offer. -/
  | answerOffer (tag : Byte) (body : List Byte)
  /-- ASSIGN (R153). A request of this kind with tag and body. Puts a crew directly on an item of demand, ending any offers that stand in the way. -/
  | assign (tag : Byte) (body : List Byte)
  /-- CREW_REPORT (R154). A request of this kind with tag and body. Takes a crew's ON_SITE report, or its CLEAR report under R155. -/
  | crewReport (tag : Byte) (body : List Byte)
  /-- PURGE (R165). A request of this kind with tag and body. Takes a RECHARGED segment to PURGED, or restores it at once when it has no customers. -/
  | purge (tag : Byte) (body : List Byte)
  /-- RELIGHT_REPORT (R167). A request of this kind with tag and body. Adds relit premises to a segment, clamped at its customers, and restores the segment when all are relit. -/
  | relightReport (tag : Byte) (body : List Byte)
  /-- DISMISS (R170). A request of this kind with tag and body. Frees an ENDED outage record. -/
  | dismiss (tag : Byte) (body : List Byte)
  /-- CLEAR_SUSPECT (R172). A request of this kind with tag and body. Empties a segment's no-gas call times and clears its SUSPECT flag. -/
  | clearSuspect (tag : Byte) (body : List Byte)
  /-- LAMP_FORCE (R177). A request of this kind with tag and body. Forces one lamp to a chosen state, or returns it to its condition. -/
  | lampForce (tag : Byte) (body : List Byte)
  /-- LAMP_TEST (R177). A request of this kind with tag and body. Shows every lamp STEADY for 5 s. -/
  | lampTest (tag : Byte) (body : List Byte)
  /-- SILENCE (R178). A request of this kind with tag and body. Quiets the horn. -/
  | silence (tag : Byte) (body : List Byte)
  /-- SET_SUPERVISION (R179). A request of this kind with tag and body. Enables host supervision or replaces its period. -/
  | setSupervision (tag : Byte) (body : List Byte)
  /-- KEEPALIVE (R179). A request of this kind with tag and body. Takes a keepalive token, restarting the expiry when ATTENDED or counting toward a return when UNATTENDED. -/
  | keepalive (tag : Byte) (body : List Byte)
  /-- QUIET_TIME_END (R30). Two character times after a field transaction ends, the line chooses and starts its next transaction, or proceeds to the end of its cycle. -/
  | quietTimeEnd (line : Nat)
  /-- FIELD_FRAME_SENT (R20). The last stop bit of a field request frame is sent, FDEn is lowered and the reply window opens. -/
  | fieldFrameSent (line : Nat)
  /-- REPLY_WINDOW_EXPIRY (R26). No start byte has arrived within the reply window, so the transaction ends with NO_ANSWER. -/
  | replyWindowExpiry (line : Nat)
  /-- REPLY_GAP_TIMEOUT (R26). More than three character times pass between two bytes of a field reply, so the transaction ends with NO_ANSWER. -/
  | replyGapTimeout (line : Nat)
  /-- FIELD_REPLY_RECEIVED (R26). The byte that completes or fails the field reply arrives on FRXn. A field reply completes, or fails on a framing error or a length above 64, and the transaction ends with the reply's outcome or NO_ANSWER. -/
  | fieldReplyReceived (line : Nat) (b : Byte) (stopLow : Bool)
  /-- CYCLE_PERIOD_EXPIRY (R28). The cycle period runs out while a line is WAITING, and a new poll cycle starts with the next cycle number. -/
  | cyclePeriodExpiry (line : Nat)
  /-- RIDE_THROUGH_EXPIRY (R55). A candidate's ride-through expires, and the point enters the candidate's band. -/
  | rideThroughExpiry (point : Nat)
  /-- JOB_START (R84). The idle trace engine with work starts a supply trace if one is owed, or else the plan job at the head of the queue, and takes its view. -/
  | jobStart
  /-- SUPPLY_TRACE_COMPLETE (R93). A supply trace completes: reaching feeds and supply states are written, and newly OFF segments go to the outage register. -/
  | supplyTraceComplete
  /-- PLAN_JOB_COMPLETE (R106). A plan job completes, and the plan is settled as FAILED, STALE or READY. -/
  | planJobComplete
  /-- TRAVEL_EXPIRY (R113). An ACTING FIELD operation reaches its travel expiry, fails with TRAVEL, and a STOP is offered. -/
  | travelExpiry (valve : Nat)
  /-- ESCALATION (R139). An OPEN or ASSIGNED incident reaches its next escalation, and its escalation level rises. -/
  | escalation (incident : Nat)
  /-- OFFER_EXPIRY (R152). An offer reaches its expiry: the crew becomes AVAILABLE with the item as its declined job, and the item returns to demand. -/
  | offerExpiry (crew : Nat)
  /-- PACK_ACKNOWLEDGE (R178). PACK held low without a break for 20 ms acknowledges and quiets the horn. -/
  | packAcknowledge
  /-- LAMP_TEST_EXPIRY (R177). The 5 s lamp test ends, and each lamp shows its force or its condition. -/
  | lampTestExpiry
  /-- KEEPALIVE_EXPIRY (R180). The keepalive expiry is reached in ATTENDED: the part becomes UNATTENDED, forces are released and C0 lights. -/
  | keepaliveExpiry
  /-- RECEIVED_BYTE (R3). A byte arrives on RXD. A byte arrives on RXD: in HUNTING a 0xC3 starts a candidate and the receiver enters COLLECTING, and in COLLECTING the byte is appended and restarts the 20 ms gap timer. -/
  | receivedByte (b : Byte) (stopLow : Bool)
  /-- FIELD_REPLY_BYTE (R26). A byte arrives on FRXn. A byte arrives on FRXn while a transaction awaits or collects its reply: a 0x96 within the window starts the reply and ends the window, and each further byte restarts the three-character gap timer. -/
  | fieldReplyByte (line : Nat) (b : Byte) (stopLow : Bool)
  /-- PACK_LOW_LEVEL (R178). PACK goes low after having returned high, and the 20 ms acknowledge timer starts. -/
  | packLowLevel
  /-- PACK_RETURN_HIGH (R178). PACK returns high, which cancels a running 20 ms timer and re-arms the input for a further acknowledgement. -/
  | packReturnHigh
  deriving DecidableEq, Repr

end Sys2Proof
end

