-- ==== Sys2Proof/Decode.lean ====
section
/-!
DEFINITION. Reading a command from the bits of a row of the opcode table. No row of the table gives bits, so no word
spells a command (notes/assumptions/19.md).
-/

namespace Sys2Proof

/-- The command that a word of the table spells: none, since the table gives no row any bits. -/
def decodeTableWord (_nbits _w : Nat) : Option Instr := none

end Sys2Proof
end

