-- ==== Sys2Proof/Config.lean ====
section
/-!
DEFINITION. What the spec leaves open and no rule of it can show: the free values of the model.
-/

namespace Sys2Proof

/-- FREE VALUE (notes/assumptions/4.md). A deadline, expiry or next escalation is part time plus an interval, and part
time runs to 4,294,967,295 (00, Quantities). The spec does not state what a 4-byte time field shows of a time that lies
past that end. Nothing constrains this value. -/
opaque Config.pastEndTime : Nat → BitVec 32

/-- FREE VALUE (notes/assumptions/16.md). An optional field is carried with a presence byte (00, Values on the links);
the spec does not state what the bytes of its value hold when the presence byte says absent, but for a point's candidate
(R63) and for lists (R81, R124, R143, R173), which read 0. The argument is the offset in the field. -/
opaque Config.absentByte : Nat → BitVec 8

end Sys2Proof
end

