-- ==== Sys2Proof/Machine/State.lean ====
section
/-!
DEFINITION. Everything the spec gives the part to hold, as plain data, block by block, and the state right after reset.
A table is a list of (id, record) with ids rising; an id with no record is an undefined or FREE entry.
-/

namespace Sys2Proof.Machine

/-- A table of records (00, Tables of records; 04, section 4.1): the entries in use, by ascending id. -/
structure Table (α : Type) where
  entries : List (Nat × α)
  deriving DecidableEq, Repr

/-! ## Control link interface (01) -/

/-- The part state (R14). -/
inductive PartState where
  | unloaded | loading | running
  deriving DecidableEq, Repr

/-- Why the last reset happened (R17, R19). -/
inductive ResetCause where
  | power | pin | restart
  deriving DecidableEq, Repr

/-- The reply statuses (R9). -/
inductive Status where
  | ok | accepted | okUnlisted
  | refusedState | refusedRange | refusedBusy | locked | full | tooLate | notFound
  | unknownKind | badLength | linkFull
  deriving DecidableEq, Repr

/-- The eight notice classes (R12). -/
inductive NoticeClass where
  | point | field | valve | supply | plan | incident | crew | outage
  deriving DecidableEq, Repr

/-! ### Named values that records and notices share -/

/-- The bands of a pressure point (03, section 3.5). -/
inductive Band where
  | normal | low | lowTrip | high | highTrip
  deriving DecidableEq, Repr

/-- Why a point entered a band (R56). -/
inductive BandCause where
  | sample | rideThrough
  deriving DecidableEq, Repr

/-- The communication states of an outstation (R37). -/
inductive CommState where
  | unknown | online | suspect | offline | held
  deriving DecidableEq, Repr

/-- Why a communication state changed (R39). -/
inductive CommCause where
  | reply | failure | hold | free
  deriving DecidableEq, Repr

/-- The end an operation drives its valve toward (06, section 6.4). -/
inductive Action where
  | toOpen | toClose
  deriving DecidableEq, Repr

/-- Who ordered an operation (06, section 6.4). -/
inductive Origin where
  | plan (id : Nat)
  | host
  deriving DecidableEq, Repr

/-- Who carries an operation out (R110). -/
inductive Mode where
  | field | crew
  deriving DecidableEq, Repr

/-- Why an operation failed (06, section 6.4). -/
inductive OpFailure where
  | rejected | comms | travel | torque | seized | cancelled
  deriving DecidableEq, Repr

/-- The states of a plan (06, section 6.1); a FREE plan is an absent entry of the plan table. -/
inductive PlanState where
  | free | requested | computing | ready | stale | failed | executing | blocked | isolated | releasing
  deriving DecidableEq, Repr

/-- Why a plan's computation failed (R104). -/
inductive PlanFailure where
  | tooLarge | feedInside
  deriving DecidableEq, Repr

/-- The grades of calls and incidents (07, section 7.1). -/
inductive Grade where
  | a | b | c
  deriving DecidableEq, Repr

/-- The kinds of a listed call (R130). -/
inductive CallKind where
  | smell | damage
  deriving DecidableEq, Repr

/-- The kinds of an incident (07, section 7.2). -/
inductive IncidentKind where
  | leak | damage
  deriving DecidableEq, Repr

/-- The states of an incident in use (07, section 7.2); a FREE incident is an absent entry. -/
inductive IncidentState where
  | opened | assigned | onSite | madeSafe | repaired | closed
  deriving DecidableEq, Repr

/-- Why an incident's state changed (R132). -/
inductive IncidentCause where
  | host | crew | plan
  deriving DecidableEq, Repr

/-- Why an incident's grade rose (R136). -/
inductive UpgradeCause where
  | call | pressure
  deriving DecidableEq, Repr

/-- The classes of demand (R147). -/
inductive JobClass where
  | leak | valve | relight
  deriving DecidableEq, Repr

/-- Why an offer ended (R152). -/
inductive WithdrawCause where
  | declined | expired | demandEnded | assignedElsewhere
  deriving DecidableEq, Repr

/-- The causes of an outage (R162, R163). -/
inductive OutageCause where
  | load | feed | valve | edit | mixed
  deriving DecidableEq, Repr

/-- A notice as its block places it: the fields that follow the part time in the notice's body (R12 and the owning
rules). -/
inductive Notice where
  /-- R18 -/
  | hello (cause : ResetCause) (rate : Nat)
  /-- R56 -/
  | pointBand (point : Nat) (prev new : Band) (filtered : Nat) (falling : Bool) (cause : BandCause)
  /-- R58 -/
  | discreteEdge (point district group : Nat) (high again : Bool)
  /-- R39 -/
  | outstationState (outstation : Nat) (prev new : CommState) (failures : Nat) (cause : CommCause)
  /-- R116 -/
  | valveDone (valve : Nat) (action : Action) (origin : Origin) (mode : Mode)
  /-- R116 -/
  | valveFailed (valve : Nat) (action : Action) (origin : Origin) (mode : Mode) (reason : OpFailure)
  /-- R79 -/
  | supplyChanged (segment : Nat)
  /-- R102 -/
  | planState (plan : Nat) (prev new : PlanState) (target : Nat) (incident : Option Nat)
      (reason : Option PlanFailure) (valve : Option Nat)
  /-- R131 -/
  | incidentOpened (incident : Nat) (kind : IncidentKind) (grade : Grade) (segment : Option Nat) (district : Nat)
      (deadline : Nat) (reference : Nat) (slot : Option Nat)
  /-- R131 -/
  | incidentMerged (incident : Nat) (callKind : CallKind) (callGrade : Grade) (reference : Nat) (slot : Option Nat)
      (kind : IncidentKind) (total unlisted : Nat)
  /-- R136 -/
  | incidentUpgraded (incident : Nat) (prev new : Grade) (cause : UpgradeCause) (point : Option Nat) (deadline : Nat)
  /-- R139 -/
  | incidentEscalated (incident level : Nat) (state : IncidentState) (deadline : Nat) (next : Option Nat)
  /-- R132 -/
  | incidentState (incident : Nat) (prev new : IncidentState) (cause : IncidentCause) (crew : Option Nat)
  /-- R150 -/
  | crewOffer (crew : Nat) (cls : JobClass) (item district : Nat) (grade : Option Grade) (expiry home : Nat)
  /-- R152 -/
  | offerWithdrawn (crew : Nat) (cls : JobClass) (item : Nat) (cause : WithdrawCause)
  /-- R163 -/
  | outageOpened (outage : Nat) (joined : Bool) (cause : OutageCause) (item plan : Option Nat) (joiners : Nat)
      (customersOff priorityOff : Nat)
  /-- R168 -/
  | segmentRestored (segment outage customers customersOff members : Nat)
  /-- R169 -/
  | outageEnded (outage : Nat) (cause : OutageCause) (opened listing overflow noGas : Nat)
  /-- R171 -/
  | segmentSuspect (segment district oldest newest : Nat)
  /-- R181 -/
  | hostResumed (lost seconds : Nat)
  deriving DecidableEq, Repr

/-- A notice in the notice queue, with the sequence number it took and the part time of its placement (R12). -/
structure QueuedNotice where
  seq : Nat
  time : Nat
  notice : Notice
  deriving DecidableEq, Repr

/-- A request as its frame carried it (01, section 1.2). -/
structure Request where
  kind : Nat
  tag : Byte
  body : List Byte
  deriving DecidableEq, Repr

/-- The executing slot: its request, and whether the reply has been made (R6). It is not made only inside the event of
the request's execution. -/
structure ExecSlot where
  request : Request
  replied : Bool
  deriving DecidableEq, Repr

/-- A reply (R9): the kind and tag of the request it answers, the status and the result after it. -/
structure Reply where
  kind : Nat
  tag : Byte
  status : Status
  result : List Byte
  deriving DecidableEq, Repr

/-- What the transmitter is sending (R10). -/
inductive Sending where
  | reply (r : Reply)
  | notice (n : QueuedNotice)
  deriving DecidableEq, Repr

/-- A byte received on RXD, and whether its stop bit was sampled low (R1). -/
structure RxByte where
  byte : Byte
  stopLow : Bool
  deriving DecidableEq, Repr

/-- The control link interface (01). The receiver is HUNTING when `rxBuffer` is empty and COLLECTING otherwise (R3). -/
structure Link where
  rate : Nat
  resetCause : ResetCause
  rxBuffer : List RxByte := []
  /-- Clock at the arrival of the last received byte (R4). -/
  lastRx : Nat := 0
  executing : Option ExecSlot := none
  waiting : Option Request := none
  /-- Replies made and not yet begun, oldest first (R6, R10). -/
  replies : List Reply := []
  /-- The frame whose bytes are leaving TXD (R10). -/
  tx : Option Sending := none
  /-- Notices not yet begun, oldest first (R11). -/
  notices : List QueuedNotice := []
  seq : Nat := 0
  enables : BitVec 8 := 0
  errorCount : Nat := 0
  lostCount : Nat := 0
  partState : PartState := .unloaded
  deriving DecidableEq, Repr

/-! ## Field poller (02) -/

/-- The kinds of an outstation (02, section 2.2). -/
inductive OsKind where
  | station | actuator
  deriving DecidableEq, Repr

/-- A defined outstation (R23). Outstation n × 16 + d − 1 is drop d of line n. -/
structure Outstation where
  kind : OsKind
  comm : CommState := .unknown
  failures : Nat := 0
  busy : Nat := 0
  seqBit : Bool := true
  lastGood : Option Nat := none
  deriving DecidableEq, Repr

/-- The actions of a COMMAND frame (R25). -/
inductive Drive where
  | toOpen | toClose | stop
  deriving DecidableEq, Repr

/-- A command of a line's queue (02, section 2.5). `origin` is absent for STOP; `bit` is absent until first sent. -/
structure Command where
  valve : Nat
  outstation : Nat
  slot : Nat
  action : Drive
  origin : Option Origin
  bit : Option Bool := none
  noAnswers : Nat := 0
  withdrawn : Bool := false
  deriving DecidableEq, Repr

/-- The conditions of a line (R22). -/
inductive LineCond where
  | stopped | idle | cycling | waiting | held
  deriving DecidableEq, Repr

/-- A transaction under way: the outstation addressed, whether its request is a COMMAND (the head of the queue) or a
POLL, the sequence bit of a COMMAND, the request frame, and the rate and window it began with (R21, R26). -/
structure Txn where
  outstation : Nat
  isCommand : Bool
  bit : Bool
  frame : List Byte
  rate : Nat
  window : Nat
  deriving DecidableEq, Repr

/-- What a line is doing on the wire (R20, R26). Times are clock values. -/
inductive LinePhase where
  /-- no transaction -/
  | idle
  /-- the request is being sent, FDEn high -/
  | sending (t : Txn)
  /-- the reply window is open since `opened` -/
  | awaiting (t : Txn) (opened : Nat)
  /-- the reply has started; `last` is the arrival of its newest byte -/
  | collecting (t : Txn) (bytes : List Byte) (last : Nat)
  /-- the transaction ended at `since`; two character times at `rate` pass -/
  | quiet (since rate : Nat)
  deriving DecidableEq, Repr

/-- One field line (R21, R22, R28, R30). -/
structure Line where
  rate : Nat := 9600
  window : Nat := 100
  period : Nat := 5
  limit : Nat := 3
  holdFlag : Bool := false
  cond : LineCond := .stopped
  cycle : Nat := 0
  /-- Clock at the start of the running cycle. -/
  cycleStart : Nat := 0
  /-- The cycle period in force for the running cycle (R21). -/
  cyclePeriod : Nat := 5
  /-- The lowest drop whose turn has not yet come in this cycle (R28). -/
  nextDrop : Nat := 1
  queue : List Command := []
  run : Nat := 0
  phase : LinePhase := .idle
  deriving DecidableEq, Repr

/-- The four field lines FL0 to FL3. -/
structure Lines where
  fl0 : Line := {}
  fl1 : Line := {}
  fl2 : Line := {}
  fl3 : Line := {}
  deriving DecidableEq, Repr

/-! ## Point supervisor (03) -/

/-- The qualities of a point (R45). -/
inductive Quality where
  | stale | good | faultUnder | faultOver
  deriving DecidableEq, Repr

/-- A candidate band, when it was made and when its ride-through expires (R53). Times are part times. -/
structure Candidate where
  band : Band
  start : Nat
  expiry : Nat
  deriving DecidableEq, Repr

/-- The settings of a PRESSURE point (03, section 3.1). -/
structure PressureSettings where
  z : Nat
  f : Nat
  p0 : Nat
  p1 : Nat
  k : Nat
  fallLimit : Nat
  l2 : Nat
  l1 : Nat
  h1 : Nat
  h2 : Nat
  hyst : Nat
  rideThrough : Nat
  deriving DecidableEq, Repr

/-- The state of a PRESSURE point (R45). -/
structure PressureState where
  value : Option Nat := none
  /-- Filter state S, in sixteenths of a daPa. -/
  filter : Nat := 0
  filtered : Option Nat := none
  /-- The last filtered values, oldest first. -/
  history : List Nat := []
  falling : Bool := false
  band : Band := .normal
  candidate : Option Candidate := none
  lowSeen : Bool := false
  deriving DecidableEq, Repr

/-- The edge modes of a DISCRETE point (03, section 3.1). -/
inductive EdgeMode where
  | rise | fall | both | level
  deriving DecidableEq, Repr

/-- The settings and state of a DISCRETE point (R43, R45). The level is absent while UNKNOWN, and true for HIGH. -/
structure Discrete where
  mode : EdgeMode
  debounce : Nat
  level : Option Bool := none
  stable : Nat := 0
  pending : Bool := false
  deriving DecidableEq, Repr

/-- The part of a point that is its kind's own. -/
inductive PointBody where
  | pressure (segment : Option Nat) (cfg : PressureSettings) (st : PressureState)
  | discrete (d : Discrete)
  deriving DecidableEq, Repr

/-- A defined point (03, section 3.1). `input` is the channel of a PRESSURE point, the bit of a DISCRETE one. -/
structure Point where
  outstation : Nat
  input : Nat
  district : Nat
  group : Nat
  quality : Quality := .stale
  body : PointBody
  deriving DecidableEq, Repr

/-! ## Network model (04) -/

/-- The tiers of a segment (04, section 4.1). -/
inductive Tier where
  | lp | mp | ip
  deriving DecidableEq, Repr

/-- The supply states of a segment (R160). -/
inductive SupplyState where
  | supplied | off | recharged | purged | relighting
  deriving DecidableEq, Repr

/-- A defined segment (04, section 4.1). The pressure state is absent while UNKNOWN (R61). -/
structure Segment where
  district : Nat
  tier : Tier
  customers : Nat
  priority : Nat
  valves : List Nat
  feeds : List Nat := []
  pressure : Option Band := none
  supply : SupplyState := .supplied
  reaching : Option Nat := none
  outage : Option Nat := none
  relit : Nat := 0
  suspect : Bool := false
  noGas : List Nat := []
  changed : Bool := false
  deriving DecidableEq, Repr

/-- The end positions of a valve. -/
inductive End where
  | opened | closed
  deriving DecidableEq, Repr

/-- The positions of a valve (R71). -/
inductive Position where
  | opened | closed | moving | unknown
  deriving DecidableEq, Repr

/-- The states of an operation (06, section 6.4). -/
inductive OpState where
  | pending | acting | done | failed (reason : OpFailure)
  deriving DecidableEq, Repr

/-- A valve operation (06, section 6.4). -/
structure Operation where
  action : Action
  origin : Origin
  mode : Mode
  state : OpState
  ordered : Nat
  stateTime : Nat
  travelExpiry : Option Nat := none
  deriving DecidableEq, Repr

/-- A defined valve (04, section 4.1). Outstation and slot are used when `actuated`. -/
structure Valve where
  endA : Nat
  endB : Nat
  actuated : Bool
  outstation : Nat
  slot : Nat
  normal : End
  position : Position
  lastEnd : End
  inoperable : Bool := false
  travelLimit : Nat
  holders : List Nat := []
  operation : Option Operation := none
  deriving DecidableEq, Repr

/-- A defined feed (04, section 4.1). -/
structure Feed where
  segment : Nat
  outlet : Option Nat
  inService : Bool
  live : Bool := false
  deriving DecidableEq, Repr

/-- A defined district (04, section 4.1). -/
structure District where
  lamp : Nat
  openIncidents : Nat := 0
  activeOutages : Nat := 0
  suspects : Nat := 0
  deriving DecidableEq, Repr

/-! ## Trace engine (05) -/

/-- The causes of a raise of supply-pending (R85). -/
inductive Cause where
  | valve (valve : Nat) (plan : Option Nat)
  | feed (feed : Nat)
  | load
  | edit
  deriving DecidableEq, Repr

/-- The engine condition with the running job (R83). -/
inductive Engine where
  | idle
  | supplyJob (cause : Cause)
  | planJob (plan : Nat)
  deriving DecidableEq, Repr

/-- The view of a job (R88): last end position of each defined valve, the inoperable valves (plan jobs), and the live
feeds, each by ascending id. -/
structure View where
  ends : List (Nat × End)
  inoperable : List Nat
  liveFeeds : List Nat
  deriving DecidableEq, Repr

/-- The trace engine (05, section 5.1). The flag supply-pending is set exactly while `pendingCause` is present, and holds
the first cause (R85). -/
structure Trace where
  engine : Engine := .idle
  pendingCause : Option Cause := none
  planQueue : List Nat := []
  view : Option View := none
  changeSet : List Nat := []
  deriving DecidableEq, Repr

/-! ## Isolation planner (06) -/

/-- The impact of an isolation (R105). -/
structure Impact where
  segments : Nat
  customers : Nat
  priority : Nat
  deriving DecidableEq, Repr

/-- A plan that is not FREE (06, section 6.1). -/
structure Plan where
  state : PlanState
  target : Nat
  incident : Option Nat
  failure : Option PlanFailure := none
  requested : Nat
  stateTime : Nat
  area : List Nat := []
  closeList : List Nat := []
  holdList : List Nat := []
  releaseList : List Nat := []
  impact : Option Impact := none
  blocking : Option Nat := none
  deriving DecidableEq, Repr

/-! ## Incident register (07) -/

/-- An occupied call slot (07, section 7.1). -/
structure Call where
  incident : Nat
  kind : CallKind
  grade : Grade
  segment : Option Nat
  district : Nat
  reference : Nat
  time : Nat
  deriving DecidableEq, Repr

/-- An incident in use (07, section 7.2). -/
structure Incident where
  kind : IncidentKind
  grade : Grade
  segment : Option Nat
  district : Nat
  state : IncidentState
  openedTime : Nat
  stateTime : Nat
  deadline : Nat
  level : Nat := 0
  nextEscalation : Option Nat
  calls : List Nat := []
  unlisted : Nat := 0
  total : Nat := 1
  planLink : Option Nat := none
  crew : Option Nat := none
  deriving DecidableEq, Repr

/-- The incident register: call slots, incidents and the settings of R135, in minutes. -/
structure Register where
  calls : Table Call := ⟨[]⟩
  incidents : Table Incident := ⟨[]⟩
  responseA : Nat := 60
  responseB : Nat := 240
  responseC : Nat := 1440
  interval : Nat := 15
  deriving DecidableEq, Repr

/-! ## Dispatch arbiter (08) -/

/-- The kinds of a crew (08, section 8.1). -/
inductive CrewKind where
  | emergency | fitter
  deriving DecidableEq, Repr

/-- The states of a crew (08, section 8.1). -/
inductive CrewState where
  | offShift | available | offered | assigned | onSite
  deriving DecidableEq, Repr

/-- A job: a class and one item of it (08, section 8.1). -/
structure Job where
  cls : JobClass
  item : Nat
  deriving DecidableEq, Repr

/-- A defined crew (08, section 8.1). -/
structure Crew where
  kind : CrewKind
  home : Nat
  state : CrewState
  job : Option Job := none
  declined : Option Job := none
  expiry : Option Nat := none
  deriving DecidableEq, Repr

/-- One value for each class (08, section 8.3). -/
structure PerClass where
  leak : Nat
  valve : Nat
  relight : Nat
  deriving DecidableEq, Repr

/-- The dispatch arbiter (08, R148). -/
structure Dispatch where
  crews : Table Crew := ⟨[]⟩
  reloads : PerClass := ⟨2, 3, 5⟩
  levels : PerClass := ⟨2, 3, 5⟩
  offerTime : Nat := 120
  deriving DecidableEq, Repr

/-! ## Outage register (09) -/

/-- An outage that is not FREE (09, section 9.2). It is ENDED exactly when its ended time is present. -/
structure Outage where
  cause : OutageCause
  item : Option Nat
  plan : Option Nat
  opened : Nat
  ended : Option Nat := none
  members : Nat := 0
  listing : List Nat := []
  overflow : Nat := 0
  customersOff : Nat := 0
  priorityOff : Nat := 0
  customersRelit : Nat := 0
  noGas : Nat := 0
  deriving DecidableEq, Repr

/-! ## Annunciator and supervision (10) -/

/-- The states a lamp shows (R175). -/
inductive Lamp where
  | off | slow | steady | fast
  deriving DecidableEq, Repr

/-- The PACK input (R178): low and not yet returned high, high, or low since a clock value with the 20 ms timer
running. -/
inductive Pack where
  | spent
  | high
  | low (since : Nat)
  deriving DecidableEq, Repr

/-- Host supervision (10, section 10.4). -/
structure Supervision where
  enabled : Bool := false
  period : Nat := 60
  expiry : Option Nat := none
  lastToken : Option Byte := none
  unattended : Bool := false
  returnCount : Nat := 0
  /-- Part time at which the part last became UNATTENDED. -/
  since : Nat := 0
  deriving DecidableEq, Repr

/-- The annunciator panel (10). -/
structure Panel where
  /-- The conditions of LAMP0 to LAMP31 (R175). -/
  conditions : List Lamp := List.replicate 32 .off
  /-- The forces of lamps 0–35; an absent entry is FOLLOW (R177). -/
  forces : Table Lamp := ⟨[]⟩
  /-- Part time at which the running lamp test ends (R177). -/
  testEnd : Option Nat := none
  /-- The horn is SOUNDING (R178). -/
  horn : Bool := false
  pack : Pack := .spent
  supervision : Supervision := {}
  deriving DecidableEq, Repr

/-! ## The part -/

/-- The CG-320. -/
structure Part where
  /-- Time since the last reset release, in units of 1/96,000 s: the unit in which every field character time, every
  millisecond and every second is whole (DESIGN CHOICE, notes/assumptions/1.md). -/
  clock : Nat := 0
  link : Link
  lines : Lines := {}
  outstations : Table Outstation := ⟨[]⟩
  points : Table Point := ⟨[]⟩
  segments : Table Segment := ⟨[]⟩
  valves : Table Valve := ⟨[]⟩
  feeds : Table Feed := ⟨[]⟩
  districts : Table District := ⟨[]⟩
  trace : Trace := {}
  plans : Table Plan := ⟨[]⟩
  register : Register := {}
  dispatch : Dispatch := {}
  outages : Table Outage := ⟨[]⟩
  panel : Panel := {}
  deriving DecidableEq, Repr

/-- The whole state: the commands that wait, first in, first out, and the part. -/
structure State where
  pending : List Instr
  part : Part
  deriving DecidableEq, Repr

/-- The faults a command can stop with. The spec names none that stops the part: every bad frame, bad request and
failed operation has an effect of its own (R4, R7, R35, R116), so there is no constructor. -/
inductive Fault where
  deriving DecidableEq, Repr

/-- The refusals a command can stop with. -/
inductive Refusal where
  /-- Raised by exec's arm of a command that has no meaning yet, which names the command's row (safe: nothing is claimed
  of it). -/
  | notModelled (mnemonic : String)
  deriving DecidableEq, Repr

/-- HELLO as it is queued at a reset release and begun at once, with sequence number 0 (R18). -/
def helloAt (cause : ResetCause) (rate : Nat) : QueuedNotice := ⟨0, 0, .hello cause rate⟩

/-- The part at the release of a reset (R17, R42, R64, R82, R100, R125, R144, R159, R174, R182): every table empty, every
setting at its reset value, and HELLO on its way. -/
def Part.released (cause : ResetCause) (rate errors lost : Nat) : Part :=
  { link := { rate := rate, resetCause := cause, errorCount := errors, lostCount := lost, seq := 1
              tx := some (.notice (helloAt cause rate)) } }

/-- The machine right after reset: a power-on reset by the supply monitor with both straps low (the straps and the
cause are a DESIGN CHOICE, notes/assumptions/2.md), and no command waiting. -/
def State.reset : State := { pending := [], part := Part.released .power 19200 0 0 }

end Sys2Proof.Machine
end

