-- ==== Sys2Proof/Machine/Limits.lean ====
section
/-!
DEFINITION. The sizes and times that the rules name, and the clock.
-/

namespace Sys2Proof.Machine

/-- The clock counts 1/96,000 s (notes/assumptions/1.md). -/
def ticksPerSecond : Nat := 96000

/-- Clock units in a millisecond. -/
def ticksPerMs : Nat := 96

/-- Clock units in a character time, ten bit times, at a field line rate (R20). -/
def charTicks (rate : Nat) : Nat := 10 * ticksPerSecond / rate

/-- The last part time (00, Quantities): part time stops there (R15). -/
def lastPartTime : Nat := 4294967295

/-- Part time in seconds since the last reset release (00, Quantities). -/
def Part.time (p : Part) : Nat := min (p.clock / ticksPerSecond) lastPartTime

/-- The saturating 16-bit counts (R4, R11, R128, R130, R161, R164). -/
def maxCount : Nat := 65535

/-- One more on a saturating 16-bit count. -/
def bump (n : Nat) : Nat := min maxCount (n + 1)

/-- The longest frame body (01, section 1.2). -/
def maxBody : Nat := 1020

/-- Notices the notice queue holds (R11). -/
def noticeRoom : Nat := 64

/-- LINK_FULL replies the reply queue holds (R6). -/
def linkFullRoom : Nat := 3

/-- The 20 ms gap of R4. -/
def gapTicks : Nat := 20 * ticksPerMs

/-- Commands a line's queue holds (02, section 2.5). -/
def commandRoom : Nat := 8

/-- Command transactions between POLLs (R30). -/
def maxRun : Nat := 4

/-- The 20 ms of PACK (R178). -/
def packTicks : Nat := 20 * ticksPerMs

/-- The length of a lamp test in seconds (R177). -/
def lampTestSeconds : Nat := 5

/-- The window of the suspect test in seconds (R171). -/
def suspectWindow : Nat := 1800

end Sys2Proof.Machine
end

