-- ==== Sys2Proof/Machine/Operands.lean ====
section
/-!
DEFINITION. The bytes of frames: byte order (00, Values on the links), optional fields, fixed-size lists, times, and the
check that both kinds of link carry (R2, R25).
-/

namespace Sys2Proof.Machine

/-! ## Reading a body -/

/-- The byte at an offset, as a number. -/
def u8 (b : List Byte) (off : Nat) : Nat := (b.getD off 0).toNat

/-- Two bytes at an offset, most significant first. -/
def u16 (b : List Byte) (off : Nat) : Nat := 256 * u8 b off + u8 b (off + 1)

/-- Four bytes at an offset, most significant first. -/
def u32 (b : List Byte) (off : Nat) : Nat := 65536 * u16 b off + u16 b (off + 2)

/-- An optional id: absent where the presence byte is 0. -/
def optAt (presence value : Nat) : Option Nat := if presence = 0 then none else some value

/-! ## Writing a body -/

/-- One byte. -/
def byte (n : Nat) : Byte := BitVec.ofNat 8 n

/-- Two bytes, most significant first. -/
def be16 (n : Nat) : List Byte := [byte (n / 256), byte n]

/-- Four bytes, most significant first. -/
def be32 (n : Nat) : List Byte := be16 (n / 65536) ++ be16 n

/-- A flag in one byte. -/
def flag (b : Bool) : Byte := if b then 1 else 0

/-- A 4-byte time. A time past the end of part time has no stated bytes: they are free (notes/assumptions/4.md). -/
def timeBytes (t : Nat) : List Byte :=
  if t ≤ lastPartTime then be32 t else be32 (Config.pastEndTime t).toNat

/-- The value bytes of an absent field: free (notes/assumptions/16.md). -/
def absentBytes (width : Nat) : List Byte := (List.range width).map Config.absentByte

/-- A presence byte and then a 1-byte value. -/
def opt8 : Option Nat → List Byte
  | none => 0 :: absentBytes 1
  | some n => [1, byte n]

/-- A presence byte and then a 2-byte value. -/
def opt16 : Option Nat → List Byte
  | none => 0 :: absentBytes 2
  | some n => 1 :: be16 n

/-- A presence byte and then a 4-byte time. -/
def optTime : Option Nat → List Byte
  | none => 0 :: absentBytes 4
  | some t => 1 :: timeBytes t

/-- A list of 1-byte ids in a fixed number of places; places beyond the list read 0. -/
def padded8 (room : Nat) (ids : List Nat) : List Byte :=
  (ids.take room).map byte ++ List.replicate (room - ids.length) 0

/-- A list of 2-byte ids in a fixed number of places; places beyond the list read 0. -/
def padded16 (room : Nat) (ids : List Nat) : List Byte :=
  (ids.take room).flatMap be16 ++ List.replicate (2 * (room - ids.length)) 0

/-! ## The check -/

/-- One bit of the cyclic redundancy check: x^16 + x^12 + x^5 + 1, most significant bit first (R2). -/
def crcBit (crc : BitVec 16) : BitVec 16 :=
  if crc.msb then (crc <<< 1) ^^^ 0x1021#16 else crc <<< 1

/-- One byte enters the check. -/
def crcByte (crc : BitVec 16) (b : Byte) : BitVec 16 :=
  crcBit (crcBit (crcBit (crcBit (crcBit (crcBit (crcBit (crcBit (crc ^^^ (b.setWidth 16 <<< 8)))))))))

/-- The check of a run of bytes, from 0xFFFF, sent as it stands (R2, R25). -/
def crc16 (bytes : List Byte) : BitVec 16 := bytes.foldl crcByte 0xFFFF#16

/-- The two check bytes, most significant first. -/
def checkBytes (bytes : List Byte) : List Byte := be16 (crc16 bytes).toNat

/-- The start byte of a control link frame (01, section 1.2). -/
def linkStart : Byte := 0xC3

/-- The bytes of a control link frame (01, section 1.2). -/
def linkFrame (kind tag : Byte) (body : List Byte) : List Byte :=
  let covered := be16 body.length ++ [kind, tag] ++ body
  linkStart :: (covered ++ checkBytes covered)

/-- The start byte of a field frame (02, section 2.3). -/
def fieldStart : Byte := 0x96

/-- The bytes of a field frame (02, section 2.3). -/
def fieldFrame (drop fn : Byte) (data : List Byte) : List Byte :=
  let covered := [drop, fn, byte data.length] ++ data
  fieldStart :: (covered ++ checkBytes covered)

end Sys2Proof.Machine
end

