-- ==== Sys2Proof/Machine/Codes.lean ====
section
/-!
DEFINITION. The codes that the bytes of requests, replies and notices carry for named values, each as its rule lays it
out.
-/

namespace Sys2Proof.Machine

/-- R15. -/
def PartState.code : PartState → Nat
  | .unloaded => 0 | .loading => 1 | .running => 2

/-- R15, R18. -/
def ResetCause.code : ResetCause → Nat
  | .power => 0 | .pin => 1 | .restart => 2

/-- R9. -/
def Status.code : Status → Nat
  | .ok => 0x00 | .accepted => 0x01 | .okUnlisted => 0x02
  | .refusedState => 0x10 | .refusedRange => 0x11 | .refusedBusy => 0x12 | .locked => 0x13
  | .full => 0x14 | .tooLate => 0x15 | .notFound => 0x16
  | .unknownKind => 0x20 | .badLength => 0x21 | .linkFull => 0x22

/-- R56. -/
def Band.code : Band → Nat
  | .normal => 0 | .low => 1 | .lowTrip => 2 | .high => 3 | .highTrip => 4

/-- R80: a band, or 5 for UNKNOWN. -/
def pressureCode : Option Band → Nat
  | none => 5
  | some b => b.code

/-- R56. -/
def BandCause.code : BandCause → Nat
  | .sample => 0 | .rideThrough => 1

/-- R23. -/
def OsKind.code : OsKind → Nat
  | .station => 0 | .actuator => 1

/-- R24. -/
def CommState.code : CommState → Nat
  | .unknown => 0 | .online => 1 | .suspect => 2 | .offline => 3 | .held => 4

/-- R39. -/
def CommCause.code : CommCause → Nat
  | .reply => 0 | .failure => 1 | .hold => 2 | .free => 3

/-- 02, section 2.3. -/
def Drive.code : Drive → Nat
  | .toOpen => 1 | .toClose => 2 | .stop => 3

/-- R63. -/
def Quality.code : Quality → Nat
  | .stale => 0 | .good => 1 | .faultUnder => 2 | .faultOver => 3

/-- R43. -/
def EdgeMode.code : EdgeMode → Nat
  | .rise => 0 | .fall => 1 | .both => 2 | .level => 3

/-- R43: the edge mode of a code up to 3. -/
def edgeModeOf : Nat → EdgeMode
  | 0 => .rise | 1 => .fall | 2 => .both | _ => .level

/-- R63: LOW 0, HIGH 1, UNKNOWN 2. -/
def levelCode : Option Bool → Nat
  | some false => 0 | some true => 1 | none => 2

/-- R66. -/
def Tier.code : Tier → Nat
  | .lp => 0 | .mp => 1 | .ip => 2

/-- R66: the tier of a code up to 2. -/
def tierOf : Nat → Tier
  | 0 => .lp | 1 => .mp | _ => .ip

/-- R80. -/
def SupplyState.code : SupplyState → Nat
  | .supplied => 0 | .off => 1 | .recharged => 2 | .purged => 3 | .relighting => 4

/-- R67. -/
def End.code : End → Nat
  | .opened => 0 | .closed => 1

/-- R67: the end of a code up to 1. -/
def endOf : Nat → End
  | 0 => .opened | _ => .closed

/-- R81. -/
def Position.code : Position → Nat
  | .opened => 0 | .closed => 1 | .moving => 2 | .unknown => 3

/-- R116. -/
def Action.code : Action → Nat
  | .toOpen => 0 | .toClose => 1

/-- R122: the action of a code up to 1. -/
def actionOf : Nat → Action
  | 0 => .toOpen | _ => .toClose

/-- R116: the plan id, or 255 for HOST. -/
def Origin.code : Origin → Nat
  | .plan p => p | .host => 255

/-- R116. -/
def Mode.code : Mode → Nat
  | .field => 0 | .crew => 1

/-- R116. -/
def OpFailure.code : OpFailure → Nat
  | .rejected => 0 | .comms => 1 | .travel => 2 | .torque => 3 | .seized => 4 | .cancelled => 5

/-- R124. -/
def OpState.code : OpState → Nat
  | .pending => 0 | .acting => 1 | .done => 2 | .failed _ => 3

/-- R102. -/
def PlanState.code : PlanState → Nat
  | .free => 0 | .requested => 1 | .computing => 2 | .ready => 3 | .stale => 4 | .failed => 5
  | .executing => 6 | .blocked => 7 | .isolated => 8 | .releasing => 9

/-- R102. -/
def PlanFailure.code : PlanFailure → Nat
  | .tooLarge => 0 | .feedInside => 1

/-- R126. -/
def Grade.code : Grade → Nat
  | .a => 0 | .b => 1 | .c => 2

/-- R126: the grade of a code up to 2. -/
def gradeOf : Nat → Grade
  | 0 => .a | 1 => .b | _ => .c

/-- R131. -/
def CallKind.code : CallKind → Nat
  | .smell => 0 | .damage => 1

/-- R131. -/
def IncidentKind.code : IncidentKind → Nat
  | .leak => 0 | .damage => 1

/-- R132. -/
def IncidentState.code : IncidentState → Nat
  | .opened => 0 | .assigned => 1 | .onSite => 2 | .madeSafe => 3 | .repaired => 4 | .closed => 5

/-- R132. -/
def IncidentCause.code : IncidentCause → Nat
  | .host => 0 | .crew => 1 | .plan => 2

/-- R136. -/
def UpgradeCause.code : UpgradeCause → Nat
  | .call => 0 | .pressure => 1

/-- R150. -/
def JobClass.code : JobClass → Nat
  | .leak => 0 | .valve => 1 | .relight => 2

/-- R151, R153: the class of a code up to 2. -/
def classOf : Nat → JobClass
  | 0 => .leak | 1 => .valve | _ => .relight

/-- R152. -/
def WithdrawCause.code : WithdrawCause → Nat
  | .declined => 0 | .expired => 1 | .demandEnded => 2 | .assignedElsewhere => 3

/-- R163. -/
def OutageCause.code : OutageCause → Nat
  | .load => 0 | .feed => 1 | .valve => 2 | .edit => 3 | .mixed => 4

/-- R145. -/
def CrewKind.code : CrewKind → Nat
  | .emergency => 0 | .fitter => 1

/-- R158. -/
def CrewState.code : CrewState → Nat
  | .offShift => 0 | .available => 1 | .offered => 2 | .assigned => 3 | .onSite => 4

/-- R177: FOLLOW is 0. -/
def Lamp.code : Lamp → Nat
  | .off => 1 | .slow => 2 | .steady => 3 | .fast => 4

/-- R177: the force of a code, absent for FOLLOW. -/
def forceOf : Nat → Option Lamp
  | 1 => some .off | 2 => some .slow | 3 => some .steady | 4 => some .fast | _ => none

/-- R12: the bit of SET_NOTICES that enables a class. -/
def NoticeClass.bit : NoticeClass → Nat
  | .point => 0 | .field => 1 | .valve => 2 | .supply => 3 | .plan => 4 | .incident => 5 | .crew => 6 | .outage => 7

end Sys2Proof.Machine
end

