-- ==== Sys2Proof/Machine/Notices.lean ====
section
/-!
DEFINITION. The notices on the wire: the class, kind and body of each (R12 and the owning rules), and the frames that
the transmitter sends (R9, R12).
-/

namespace Sys2Proof.Machine

/-- The class of a notice; HELLO and HOST_RESUMED belong to none (R11, R12). -/
def Notice.cls : Notice → Option NoticeClass
  | .hello .. | .hostResumed .. => none
  | .pointBand .. | .discreteEdge .. => some .point
  | .outstationState .. => some .field
  | .valveDone .. | .valveFailed .. => some .valve
  | .supplyChanged .. => some .supply
  | .planState .. => some .plan
  | .incidentOpened .. | .incidentMerged .. | .incidentUpgraded .. | .incidentEscalated .. | .incidentState .. =>
    some .incident
  | .crewOffer .. | .offerWithdrawn .. => some .crew
  | .outageOpened .. | .segmentRestored .. | .outageEnded .. | .segmentSuspect .. => some .outage

/-- The kind byte of a notice frame (R12). -/
def Notice.kind : Notice → Nat
  | .hello .. => 0x40
  | .pointBand .. => 0x41
  | .discreteEdge .. => 0x42
  | .outstationState .. => 0x43
  | .valveDone .. => 0x44
  | .valveFailed .. => 0x45
  | .supplyChanged .. => 0x46
  | .planState .. => 0x47
  | .incidentOpened .. => 0x48
  | .incidentMerged .. => 0x49
  | .incidentUpgraded .. => 0x4A
  | .incidentEscalated .. => 0x4B
  | .incidentState .. => 0x4C
  | .crewOffer .. => 0x4D
  | .offerWithdrawn .. => 0x4E
  | .outageOpened .. => 0x4F
  | .segmentRestored .. => 0x50
  | .outageEnded .. => 0x51
  | .segmentSuspect .. => 0x52
  | .hostResumed .. => 0x53

/-- The body of a notice after the part time, field by field as its rule lays it out. -/
def Notice.fields : Notice → List Byte
  | .hello cause rate => [byte 0x0C] ++ be16 320 ++ [byte 3, byte cause.code] ++ be32 rate
  | .pointBand point prev new filtered falling cause =>
    [byte point, byte prev.code, byte new.code] ++ be16 filtered ++ [flag falling, byte cause.code]
  | .discreteEdge point district group high again => [byte point, byte district, byte group, flag high, flag again]
  | .outstationState os prev new failures cause =>
    [byte os, byte prev.code, byte new.code, byte failures, byte cause.code]
  | .valveDone valve action origin mode => be16 valve ++ [byte action.code, byte origin.code, byte mode.code]
  | .valveFailed valve action origin mode reason =>
    be16 valve ++ [byte action.code, byte origin.code, byte mode.code, byte reason.code]
  | .supplyChanged segment => be16 segment
  | .planState plan prev new target incident reason valve =>
    [byte plan, byte prev.code, byte new.code] ++ be16 target ++ opt8 incident ++
      opt8 (reason.map PlanFailure.code) ++ opt16 valve
  | .incidentOpened incident kind grade segment district deadline reference slot =>
    [byte incident, byte kind.code, byte grade.code] ++ opt16 segment ++ [byte district] ++ timeBytes deadline ++
      be32 reference ++ opt8 slot
  | .incidentMerged incident callKind callGrade reference slot kind total unlisted =>
    [byte incident, byte callKind.code, byte callGrade.code] ++ be32 reference ++ opt8 slot ++ [byte kind.code] ++
      be16 total ++ be16 unlisted
  | .incidentUpgraded incident prev new cause point deadline =>
    [byte incident, byte prev.code, byte new.code, byte cause.code] ++ opt8 point ++ timeBytes deadline
  | .incidentEscalated incident level state deadline next =>
    [byte incident, byte level, byte state.code] ++ timeBytes deadline ++ optTime next
  | .incidentState incident prev new cause crew =>
    [byte incident, byte prev.code, byte new.code, byte cause.code] ++ opt8 crew
  | .crewOffer crew cls item district grade expiry home =>
    [byte crew, byte cls.code] ++ be16 item ++ [byte district, byte ((grade.map Grade.code).getD 255)] ++
      timeBytes expiry ++ [byte home]
  | .offerWithdrawn crew cls item cause => [byte crew, byte cls.code] ++ be16 item ++ [byte cause.code]
  | .outageOpened outage joined cause item plan joiners customersOff priorityOff =>
    [byte outage, flag joined, byte cause.code] ++ opt16 item ++ opt8 plan ++ be16 joiners ++ be32 customersOff ++
      be32 priorityOff
  | .segmentRestored segment outage customers customersOff members =>
    be16 segment ++ [byte outage] ++ be16 customers ++ be32 customersOff ++ be16 members
  | .outageEnded outage cause opened listing overflow noGas =>
    [byte outage, byte cause.code] ++ timeBytes opened ++ [byte listing] ++ be16 overflow ++ be16 noGas ++ [byte 0]
  | .segmentSuspect segment district oldest newest =>
    be16 segment ++ [byte district] ++ timeBytes oldest ++ timeBytes newest
  | .hostResumed lost seconds => be16 lost ++ be32 seconds

/-- The bytes of a notice frame: the tag is the sequence number, and the body begins with the part time of the
placement (R12). -/
def QueuedNotice.bytes (n : QueuedNotice) : List Byte :=
  linkFrame (byte n.notice.kind) (byte n.seq) (timeBytes n.time ++ n.notice.fields)

/-- The bytes of a reply frame: the request's kind plus 0x80, its tag, the status byte and the result (R9). -/
def Reply.bytes (r : Reply) : List Byte :=
  linkFrame (byte (r.kind + 0x80)) r.tag (byte r.status.code :: r.result)

/-- The bytes that leave TXD for a frame being sent (R10). -/
def Sending.bytes : Sending → List Byte
  | .reply r => r.bytes
  | .notice n => n.bytes

end Sys2Proof.Machine
end

