-- ==== Sys2Proof/Machine/Table.lean ====
section
/-!
DEFINITION. Reading and writing a table of records in its canonical form: ids strictly rising.
-/

namespace Sys2Proof.Machine

/-- The record of an id in a list of entries. -/
def findEntry {α : Type} (k : Nat) : List (Nat × α) → Option α
  | [] => none
  | (i, a) :: rest => if i = k then some a else findEntry k rest

/-- Entries with the record of an id put in its place. -/
def putEntry {α : Type} (k : Nat) (v : α) : List (Nat × α) → List (Nat × α)
  | [] => [(k, v)]
  | (i, a) :: rest =>
    if k < i then (k, v) :: (i, a) :: rest
    else if i = k then (k, v) :: rest
    else (i, a) :: putEntry k v rest

/-- The record of an id, absent when the entry is undefined or FREE. -/
def Table.get? {α : Type} (t : Table α) (k : Nat) : Option α := findEntry k t.entries

/-- The table with an entry filled or replaced. -/
def Table.set {α : Type} (t : Table α) (k : Nat) (v : α) : Table α := ⟨putEntry k v t.entries⟩

/-- The table with an entry made undefined or FREE. -/
def Table.erase {α : Type} (t : Table α) (k : Nat) : Table α := ⟨t.entries.filter fun e => e.1 != k⟩

/-- The table with a used entry changed; an unused one is left unused. -/
def Table.modify {α : Type} (t : Table α) (k : Nat) (f : α → α) : Table α :=
  match t.get? k with
  | none => t
  | some v => t.set k (f v)

/-- The table with every used entry changed. -/
def Table.map {α : Type} (t : Table α) (f : Nat → α → α) : Table α := ⟨t.entries.map fun e => (e.1, f e.1 e.2)⟩

/-- Whether an entry is used. -/
def Table.has {α : Type} (t : Table α) (k : Nat) : Bool := (t.get? k).isSome

/-- The ids in use, ascending. -/
def Table.ids {α : Type} (t : Table α) : List Nat := t.entries.map (·.1)

/-- The ids in use whose record passes a test, ascending. -/
def Table.idsWhere {α : Type} (t : Table α) (f : Nat → α → Bool) : List Nat :=
  (t.entries.filter fun e => f e.1 e.2).map (·.1)

/-- Whether some used entry passes a test. -/
def Table.any {α : Type} (t : Table α) (f : Nat → α → Bool) : Bool := t.entries.any fun e => f e.1 e.2

/-- How many used entries pass a test. -/
def Table.count {α : Type} (t : Table α) (f : Nat → α → Bool) : Nat := (t.entries.filter fun e => f e.1 e.2).length

/-- The lowest unused id below a bound. -/
def Table.firstFree {α : Type} (t : Table α) (room : Nat) : Option Nat :=
  (List.range room).find? fun k => !t.has k

/-- Whether a list of ids strictly rises. -/
def rising : List Nat → Bool
  | [] => true
  | [_] => true
  | a :: b :: rest => decide (a < b) && rising (b :: rest)

/-- The canonical form: ids strictly rise and lie below the table's size. -/
def Table.wf {α : Type} (t : Table α) (room : Nat) : Bool := rising t.ids && t.ids.all fun k => decide (k < room)

/-- An id put into an ascending list that holds no id twice. -/
def insertId (k : Nat) : List Nat → List Nat
  | [] => [k]
  | i :: rest => if k < i then k :: i :: rest else if i = k then i :: rest else i :: insertId k rest

/-- The same ids ascending, each once. -/
def sortIds (ks : List Nat) : List Nat := ks.foldl (fun acc k => insertId k acc) []

end Sys2Proof.Machine
end

