-- ==== Sys2Proof/Machine/Ops.lean ====
section
/-!
DEFINITION. The shared operations over the control link interface (01), the changed marks (R79), supply-pending (R85)
and the field lines as a row of four: what every block uses to report and to hand on.
-/

namespace Sys2Proof.Machine

/-! ## The transmitter, replies and notices -/

/-- A request is in the middle of its execution: it is in the executing slot and its reply has not been made. -/
def Link.midRequest (l : Link) : Bool := l.executing.any fun e => !e.replied

/-- An idle transmitter starts the frame that is due: a waiting reply before the head of the notice queue (R10). Inside
a request's execution it waits for the reply, which goes before the notices that the request causes (R10). -/
def Link.startNext (l : Link) : Link :=
  if l.tx.isSome || l.midRequest then l
  else match l.replies with
    | r :: rest => { l with replies := rest, tx := some (.reply r) }
    | [] => match l.notices with
      | n :: rest => { l with notices := rest, tx := some (.notice n) }
      | [] => l

/-- One more link error (R4, R5, R6). -/
def Link.countError (l : Link) : Link := { l with errorCount := bump l.errorCount }

/-- Whether the class of a notice is enabled (R11, R13); HELLO and HOST_RESUMED count as enabled. -/
def Link.enabled (l : Link) (n : Notice) : Bool :=
  match n.cls with
  | none => true
  | some c => l.enables.getLsbD c.bit

/-- A notice is placed (R11, R12): not queued and not numbered when its class is disabled, appended with the next
sequence number when there is room, and otherwise discarded with its number and counted as lost. -/
def Link.place (now : Nat) (n : Notice) (l : Link) : Link :=
  if !l.enabled n then l
  else if l.notices.length < noticeRoom then
    Link.startNext { l with notices := l.notices ++ [⟨l.seq, now, n⟩], seq := (l.seq + 1) % 256 }
  else { l with seq := (l.seq + 1) % 256, lostCount := bump l.lostCount }

/-- A block places a notice. -/
def place (n : Notice) (p : Part) : Part := { p with link := p.link.place p.time n }

/-- The reply of the request in the executing slot is made (R9, R10). -/
def Link.answer (status : Status) (result : List Byte) (l : Link) : Link :=
  match l.executing with
  | none => l
  | some e =>
    Link.startNext { l with
      executing := some { e with replied := true }
      replies := l.replies ++ [⟨e.request.kind, e.request.tag, status, result⟩] }

/-- How many LINK_FULL replies wait in the reply queue (R6). -/
def Link.linkFulls (l : Link) : Nat := (l.replies.filter fun r => r.status = .linkFull).length

/-- A request that found both slots occupied: a LINK_FULL reply, or a drop and a count when three of them wait (R6). -/
def Link.turnAway (r : Request) (l : Link) : Link :=
  if l.linkFulls < linkFullRoom then
    Link.startNext { l with replies := l.replies ++ [⟨r.kind, r.tag, .linkFull, []⟩] }
  else l.countError

/-! ## Changed marks and supply-pending -/

/-- One segment's changed mark is set; the first mark of a run places SUPPLY_CHANGED (R79). -/
def markSegment (id : Nat) (p : Part) : Part :=
  match p.segments.get? id with
  | none => p
  | some seg =>
    if seg.changed then p
    else
      let none_marked := !p.segments.any fun _ s => s.changed
      let p := { p with segments := p.segments.set id { seg with changed := true } }
      if none_marked then place (.supplyChanged id) p else p

/-- The marks of several segments, set in ascending id (R79). -/
def markSegments (ids : List Nat) (p : Part) : Part := (sortIds ids).foldl (fun p id => markSegment id p) p

/-- Supply-pending is raised: the first cause stays (R85). -/
def raise (c : Cause) (p : Part) : Part :=
  match p.trace.pendingCause with
  | some _ => p
  | none => { p with trace := { p.trace with pendingCause := some c } }

/-! ## The four lines -/

/-- The line of a number; FL3 stands for any number of 3 and above. -/
def Lines.get (ls : Lines) : Nat → Line
  | 0 => ls.fl0 | 1 => ls.fl1 | 2 => ls.fl2 | _ => ls.fl3

/-- The row with one line replaced. -/
def Lines.set (ls : Lines) (n : Nat) (l : Line) : Lines :=
  match n with
  | 0 => { ls with fl0 := l } | 1 => { ls with fl1 := l } | 2 => { ls with fl2 := l } | _ => { ls with fl3 := l }

/-- A line of the part. -/
def Part.line (p : Part) (n : Nat) : Line := p.lines.get n

/-- The part with one line changed. -/
def Part.onLine (p : Part) (n : Nat) (f : Line → Line) : Part := { p with lines := p.lines.set n (f (p.lines.get n)) }

/-- The line of an outstation (00, Identifiers). -/
def lineOf (outstation : Nat) : Nat := outstation / 16

/-- The drop of an outstation (00, Identifiers). -/
def dropOf (outstation : Nat) : Nat := outstation % 16 + 1

/-- The defined outstations of a line, ascending. -/
def Part.outstationsOf (p : Part) (line : Nat) : List Nat := p.outstations.idsWhere fun id _ => lineOf id = line

/-! ## Small updates of records -/

/-- A segment of the part changed. -/
def Part.onSegment (p : Part) (id : Nat) (f : Segment → Segment) : Part :=
  { p with segments := p.segments.modify id f }

/-- A valve of the part changed. -/
def Part.onValve (p : Part) (id : Nat) (f : Valve → Valve) : Part := { p with valves := p.valves.modify id f }

/-- A district of the part changed (R78). -/
def Part.onDistrict (p : Part) (id : Nat) (f : District → District) : Part :=
  { p with districts := p.districts.modify id f }

/-- An outstation of the part changed. -/
def Part.onOutstation (p : Part) (id : Nat) (f : Outstation → Outstation) : Part :=
  { p with outstations := p.outstations.modify id f }

/-- A crew of the part changed. -/
def Part.onCrew (p : Part) (id : Nat) (f : Crew → Crew) : Part :=
  { p with dispatch := { p.dispatch with crews := p.dispatch.crews.modify id f } }

/-- A plan of the part changed. -/
def Part.onPlan (p : Part) (id : Nat) (f : Plan → Plan) : Part := { p with plans := p.plans.modify id f }

/-- The segment's present district. -/
def Part.districtOf (p : Part) (segment : Nat) : Nat := ((p.segments.get? segment).map (·.district)).getD 0

/-! ## Answers of requests -/

/-- What a request's execution comes to: a status, the result after it, and the part after it (R7, R9). -/
structure Answer where
  status : Status
  result : List Byte
  part : Part

/-- A refusal changes no state (R7, R9). -/
def refuse (status : Status) (p : Part) : Answer := ⟨status, [], p⟩

/-- A refusal that names an item after the status (R9). -/
def refuseWith (status : Status) (result : List Byte) (p : Part) : Answer := ⟨status, result, p⟩

/-- The reply OK with a result. -/
def okWith (result : List Byte) (p : Part) : Answer := ⟨.ok, result, p⟩

/-- One request kind: the body lengths it allows, the part states that admit it, and its owning block's rule (R7). -/
structure Handler where
  lengthOk : List Byte → Bool
  admitted : PartState → Bool
  act : List Byte → Part → Answer

/-- A body of a fixed length. -/
def exactly (n : Nat) (body : List Byte) : Bool := body.length = n

/-- Admitted in every part state (R14). -/
def anyState (_ : PartState) : Bool := true

/-- Admitted in LOADING (R14). -/
def inLoading (s : PartState) : Bool := s = .loading

/-- Admitted in RUNNING (R14). -/
def inRunning (s : PartState) : Bool := s = .running

/-- Admitted in LOADING and RUNNING (R14). -/
def loadedOrLoading (s : PartState) : Bool := s = .loading || s = .running

/-- Whether the part is RUNNING. -/
def Part.isRunning (p : Part) : Bool := p.link.partState = .running

/-- The command changes the part and nothing else of the state. -/
def onPart (f : Part → Part) (s : State) : Host.Outcome State Fault Refusal := .next { s with part := f s.part }

end Sys2Proof.Machine
end

