-- ==== Sys2Proof/Machine/Flags.lean ====
section
/-!
DEFINITION. What is derived from the records: the ordering of bands and settings (03), the pressure state of a segment
and the liveness of a feed (R61, R62), the lamps (R175–R177) and the horn (R178).
-/

namespace Sys2Proof.Machine

/-! ## Bands (03, section 3.5) -/

/-- The severity of a band. -/
def Band.severity : Band → Nat
  | .normal => 0 | .low | .high => 1 | .lowTrip | .highTrip => 2

/-- Whether a band lies on the low side. -/
def Band.isLow : Band → Bool
  | .low | .lowTrip => true
  | _ => false

/-- Whether a band is worse than another: more severe, or both non-NORMAL and on opposite sides. -/
def Band.worse (i b : Band) : Bool :=
  b.severity < i.severity || (i != .normal && b != .normal && i.isLow != b.isLow)

/-- The indicated band of a filtered value (R52). -/
def indicated (cfg : PressureSettings) (f : Nat) : Band :=
  if f ≤ cfg.l2 then .lowTrip
  else if f ≤ cfg.l1 then .low
  else if cfg.h2 ≤ f then .highTrip
  else if cfg.h1 ≤ f then .high
  else .normal

/-- The settings are ordered (R44), in whole numbers without wrapping. -/
def ordered (c : PressureSettings) : Bool :=
  decide (c.z < c.f) && decide (c.p0 < c.p1) &&
  decide (c.l2 < c.l1) && decide (c.l1 < c.h1) && decide (c.h1 < c.h2) &&
  decide (c.l2 + c.hyst < c.l1) && decide (c.h1 + c.hyst < c.h2) &&
  decide (c.l1 + 2 * c.hyst < c.h1)

/-- A PRESSURE point is confirming while FALLING is set and its band is LOW or LOW_TRIP (R51). -/
def PressureState.confirming (st : PressureState) : Bool := st.falling && st.band.isLow

/-! ## Segment pressure state and feed liveness (R61, R62) -/

/-- The band that a GOOD pressure point contributes to a segment. -/
def Point.contributes (pt : Point) (segment : Nat) : Option Band :=
  match pt.body with
  | .pressure seg _ st => if seg = some segment && pt.quality = .good then some st.band else none
  | .discrete _ => none

/-- Of two bands, the more severe; of equal severity, the low side (R61). -/
def worstBand (a b : Band) : Band :=
  if a.severity < b.severity then b
  else if b.severity < a.severity then a
  else if b.isLow then b else a

/-- The pressure state of a segment from its GOOD points, absent for UNKNOWN (R61). -/
def derivePressure (points : Table Point) (segment : Nat) : Option Band :=
  points.entries.foldl (fun acc e =>
    match acc, e.2.contributes segment with
    | none, b => b
    | some a, none => some a
    | some a, some b => some (worstBand a b)) none

/-- Whether some PRESSURE point names the segment (R165). -/
def Part.pressureWatched (p : Part) (segment : Nat) : Bool :=
  p.points.any fun _ pt => match pt.body with
    | .pressure seg _ _ => seg = some segment
    | .discrete _ => false

/-- The band of a pressure point. -/
def Point.band? (pt : Point) : Option Band :=
  match pt.body with
  | .pressure _ _ st => some st.band
  | .discrete _ => none

/-- A feed is live while IN_SERVICE with its outlet point, if any, not in LOW_TRIP (R62). -/
def deriveLive (points : Table Point) (fd : Feed) : Bool :=
  fd.inService && match fd.outlet with
    | none => true
    | some pt => ((points.get? pt).bind Point.band?) != some .lowTrip

/-! ## Lamps (R175, R176, R177) -/

/-- An incident that a crew has not reached: OPEN or ASSIGNED (R175, R139). -/
def Incident.unreached (i : Incident) : Bool := i.state = .opened || i.state = .assigned

/-- Whether an outage has a member segment in a district (R78, R175). -/
def Part.memberIn (p : Part) (outage district : Nat) : Bool :=
  p.segments.any fun _ s => s.outage = some outage && s.district = district

/-- Some pressure point of a district passes a test on its state. -/
def Part.pressureIn (p : Part) (district : Nat) (f : PressureState → Bool) : Bool :=
  p.points.any fun _ pt => pt.district = district && match pt.body with
    | .pressure _ _ st => f st
    | .discrete _ => false

/-- The condition of a district (R175). -/
def Part.districtCondition (p : Part) (d : Nat) : Lamp :=
  let inc (f : Incident → Bool) := p.register.incidents.any fun _ i => i.district = d && f i
  let out (f : Outage → Bool) := p.outages.any fun id o => o.ended.isNone && f o && p.memberIn id d
  if inc (fun i => i.unreached && 1 ≤ i.level) || p.pressureIn d (fun st => st.lowSeen || st.band = .highTrip) then .fast
  else if inc (fun i => i.unreached && i.grade = .a) || out (fun o => 0 < o.priorityOff) then .steady
  else if inc (fun i => i.state != .closed) || out (fun _ => true) || p.segments.any (fun _ s => s.district = d && s.suspect)
      || p.pressureIn d (fun st => st.band = .low || st.band = .high) then .slow
  else .off

/-- The district that uses a lamp number. -/
def Part.districtOfLamp (p : Part) (lamp : Nat) : Option Nat :=
  (p.districts.idsWhere fun _ d => d.lamp = lamp).head?

/-- The condition of LAMPn (R175). -/
def Part.lampCondition (p : Part) (lamp : Nat) : Lamp :=
  if p.isRunning then
    match p.districtOfLamp lamp with
    | none => .off
    | some d => p.districtCondition d
  else .off

/-- The conditions of LAMP0 to LAMP31. -/
def Part.lampConditions (p : Part) : List Lamp := (List.range 32).map p.lampCondition

/-- A condition rises into FAST (R178). -/
def risesToFast (before after : List Lamp) : Bool := (before.zip after).any fun c => c.1 != .fast && c.2 = .fast

/-- The lamp conditions are brought up to date; a rise of any into FAST sounds the horn (R175, R178). -/
def refreshLamps (p : Part) : Part :=
  let now := p.lampConditions
  { p with panel := { p.panel with conditions := now, horn := p.panel.horn || risesToFast p.panel.conditions now } }

/-- The condition of common lamp C0 to C3 (R176). -/
def Part.commonLamp (p : Part) : Nat → Lamp
  | 0 => if p.panel.supervision.unattended then .steady else .off
  | 1 =>
    if p.outstations.any (fun _ o => o.comm = .offline) then .fast
    else if p.outstations.any (fun _ o => o.comm = .suspect) then .slow else .off
  | 2 => if p.register.incidents.any (fun _ i => i.state = .opened && i.grade = .a) then .steady else .off
  | _ => if 0 < p.link.lostCount && p.isRunning then .steady else .off

/-- What lamp 0–35 of LAMP_FORCE shows: nothing outside RUNNING, STEADY during a test, its force if it has one, and
otherwise its condition (R175–R177). -/
def Part.lampShown (p : Part) (lamp : Nat) : Lamp :=
  if !p.isRunning then .off
  else if p.panel.testEnd.isSome then .steady
  else match p.panel.forces.get? lamp with
    | some f => f
    | none => if lamp < 32 then p.panel.conditions.getD lamp .off else p.commonLamp (lamp - 32)

/-- Whether a lamp state is lit at a clock value: 1 Hz and 4 Hz from a panel clock that starts lit at the reset
release (R175). -/
def Lamp.lit (clock : Nat) : Lamp → Bool
  | .off => false
  | .steady => true
  | .slow => clock % (1000 * ticksPerMs) < 500 * ticksPerMs
  | .fast => clock % (250 * ticksPerMs) < 125 * ticksPerMs

/-- The level of a lamp output: LAMP0–LAMP31 as 0–31, LAMPC0–LAMPC3 as 32–35 (R175). -/
def Part.lampPin (p : Part) (lamp : Nat) : Bool := (p.lampShown lamp).lit p.clock

/-- The level of HORN (R178). -/
def Part.hornPin (p : Part) : Bool := p.panel.horn

end Sys2Proof.Machine
end

