-- ==== Sys2Proof/Machine/Lines.lean ====
section
/-!
DEFINITION. The field lines at work (02): sending requests, the poll cycle, the command queue, and the commands that the
isolation planner offers and withdraws.
-/

namespace Sys2Proof.Machine

/-! ## Transactions -/

/-- The transaction under way, if any: its request is being sent, or its reply is awaited or collected (R20, R26). -/
def Line.txn? (l : Line) : Option Txn :=
  match l.phase with
  | .sending t | .awaiting t _ | .collecting t _ _ => some t
  | .idle | .quiet _ _ => none

/-- FDEn is high while a request frame is being sent (R20). -/
def Line.fde (l : Line) : Bool :=
  match l.phase with
  | .sending _ => true
  | _ => false

/-- The request frame on FTXn, absent while FTXn rests at the idle level (R20). -/
def Line.ftx (l : Line) : Option (List Byte) :=
  match l.phase with
  | .sending t => some t.frame
  | _ => none

/-- How many commands at the head of the queue are in transaction: one or none (02, section 2.5). -/
def Line.inTxn (l : Line) : Nat := if (l.txn?.map (·.isCommand)).getD false then 1 else 0

/-- A POLL of an outstation begins: the command run returns to 0 (R25, R29, R30). -/
def sendPoll (n os : Nat) (p : Part) : Part :=
  p.onLine n fun l =>
    { l with
      run := 0
      nextDrop := dropOf os + 1
      phase := .sending
        { outstation := os, isCommand := false, bit := false, frame := fieldFrame (byte (dropOf os)) 0x01 []
          rate := l.rate, window := l.window } }

/-- The head command of a line is sent: at its first sending it takes the opposite of the outstation's sequence bit,
which is recorded, and every sending raises the command run (R25, R27, R30). -/
def sendCommand (n : Nat) (p : Part) : Part :=
  match (p.line n).queue with
  | [] => p
  | c :: rest =>
    let recorded := ((p.outstations.get? c.outstation).map (·.seqBit)).getD true
    let bit := c.bit.getD (!recorded)
    let p := if c.bit.isNone then p.onOutstation c.outstation fun o => { o with seqBit := bit } else p
    p.onLine n fun l =>
      { l with
        queue := { c with bit := some bit } :: rest
        run := l.run + 1
        phase := .sending
          { outstation := c.outstation, isCommand := true, bit := bit
            frame := fieldFrame (byte (dropOf c.outstation)) 0x02 [byte c.slot, byte c.action.code, flag bit]
            rate := l.rate, window := l.window } }

/-! ## The poll cycle (R28, R29, R30) -/

/-- Whether an outstation is polled at its turn in a cycle (R29). -/
def Outstation.polledIn (o : Outstation) (cycle : Nat) : Bool :=
  match o.comm with
  | .unknown | .online | .suspect => true
  | .offline => cycle = 0
  | .held => false

/-- The outstation of a line whose turn comes next, those passed over left out (R28, R29). -/
def nextTurn (n : Nat) (p : Part) : Option Nat :=
  (p.outstations.idsWhere fun id o =>
    lineOf id = n && decide ((p.line n).nextDrop ≤ dropOf id) && o.polledIn (p.line n).cycle).head?

/-- The queue has a command and the command run has room (R30). -/
def Line.commandDue (l : Line) : Bool := !l.queue.isEmpty && decide (l.run < maxRun)

/-- A line becomes WAITING; what it is doing on the wire runs on (R28). -/
def waitForPeriod (n : Nat) (p : Part) : Part := p.onLine n fun l => { l with cond := .waiting }

/-- The fields of a cycle that starts with a number (R28). -/
def openCycle (n number : Nat) (p : Part) : Part :=
  p.onLine n fun l =>
    { l with cond := .cycling, cycle := number, cycleStart := p.clock, cyclePeriod := l.period, nextDrop := 1 }

/-- A cycle starts with a number. One in which every outstation is passed over has its polls done at its start, and the
line waits out the whole period (R28). -/
def startCycle (n number : Nat) (p : Part) : Part :=
  let p := openCycle n number p
  if (nextTurn n p).isNone then waitForPeriod n p else p

/-- The cycle period of the running cycle has run from its start (R28). -/
def Part.periodOver (p : Part) (n : Nat) : Bool :=
  decide ((p.line n).cycleStart + (p.line n).cyclePeriod * ticksPerSecond ≤ p.clock)

/-- A transaction of a line has ended: with the polls of its cycle done, the line is WAITING at that moment, or the next
cycle starts at once when the period has run (R28; DEDUCED for an outstation that a command's failure takes out of the
cycle, notes/assumptions/23.md). -/
def pollsEnd (n : Nat) (p : Part) : Part :=
  if (p.line n).cond = .cycling && (nextTurn n p).isNone then
    if p.periodOver n then startCycle n (((p.line n).cycle + 1) % 8) p else waitForPeriod n p
  else p

/-- The line has nothing in transaction and no quiet time to pass. -/
def restLine (n : Nat) (p : Part) : Part := p.onLine n fun l => { l with phase := .idle }

/-- The next transaction of a line with none under way and the quiet time over (R30): the head command while the run is
below 4, else, CYCLING, the outstation whose turn comes next, else none. -/
def takeTurn (n : Nat) (p : Part) : Part :=
  let l := p.line n
  match l.cond with
  | .cycling =>
    if l.commandDue then sendCommand n p
    else match nextTurn n p with
      | some os => sendPoll n os p
      | none => restLine n p
  | .waiting => if l.commandDue then sendCommand n p else restLine n p
  | .stopped | .idle | .held => restLine n p

/-- The choice of R30. A CYCLING line with no command due and no turn to come proceeds first as R28 states; in no run does
it still stand so here, since that was done when its transaction ended. -/
def chooseTransaction (n : Nat) (p : Part) : Part :=
  takeTurn n (if (p.line n).commandDue then p else pollsEnd n p)

/-- The quiet time of a line has passed: two character times since the transaction ended (R20, R30). -/
def Part.quietOver (p : Part) (n : Nat) : Bool :=
  match (p.line n).phase with
  | .quiet since rate => decide (since + 2 * charTicks rate ≤ p.clock)
  | .idle | .sending _ | .awaiting _ _ | .collecting _ _ _ => false

/-- A line with defined outstations begins cycle 0 and is CYCLING; one with none becomes IDLE (R22, R41). The first
request waits for the end of a quiet time that still runs (R20; DEDUCED, notes/assumptions/29.md). -/
def startLine (n : Nat) (p : Part) : Part :=
  if (p.outstationsOf n).isEmpty then p.onLine n fun l => { l with cond := .idle }
  else
    let p := startCycle n 0 p
    if (p.line n).phase = .idle || p.quietOver n then takeTurn n p else p

/-! ## The command queue (R31, R32) -/

/-- A WAITING line with nothing in transaction sends a command that has come to its head, while the run is below 4
(R30). -/
def wakeLine (n : Nat) (p : Part) : Part :=
  let l := p.line n
  if l.cond = .waiting && l.phase = .idle && l.commandDue then sendCommand n p else p

/-- Whether an outstation answers for its valves: UNKNOWN, ONLINE or SUSPECT (R73, R110). -/
def Part.answers (p : Part) (os : Nat) : Bool :=
  match p.outstations.get? os with
  | none => false
  | some o => o.comm = .unknown || o.comm = .online || o.comm = .suspect

/-- The first queued STOP for a valve, not in transaction, replaced by a command (R31). -/
def replaceStop (c : Command) : List Command → Option (List Command)
  | [] => none
  | q :: rest =>
    if q.action = .stop && q.valve = c.valve then some (c :: rest) else (replaceStop c rest).map (q :: ·)

/-- The command is offered to the field poller (R31). True when an OPEN or CLOSE was not placed, so that its operation
is reported ended with COMMS. -/
def offerCommand (c : Command) (p : Part) : Part × Bool :=
  let n := lineOf c.outstation
  let l := p.line n
  let isStop : Bool := c.action = .stop
  if isStop && (l.holdFlag || !p.answers c.outstation) then (p, false)
  else match replaceStop c (l.queue.drop l.inTxn) with
    | some rest => (wakeLine n (p.onLine n fun l => { l with queue := l.queue.take l.inTxn ++ rest }), false)
    | none =>
      if isStop && l.queue.any (fun q => q.action != .stop && q.valve = c.valve) then (p, false)
      else if commandRoom ≤ l.queue.length then (p, !isStop)
      else (wakeLine n (p.onLine n fun l => { l with queue := l.queue ++ [c] }), false)

/-- A STOP for a valve is offered (R112, R113, R119, R32). -/
def offerStop (v : Nat) (p : Part) : Part :=
  match p.valves.get? v with
  | none => p
  | some valve =>
    (offerCommand { valve := v, outstation := valve.outstation, slot := valve.slot, action := .stop, origin := none } p).1

/-- The OPEN or CLOSE command of a valve is withdrawn: removed from the queue, or, in transaction, marked to leave the
queue when its transaction ends (R32). -/
def withdrawCommand (v : Nat) (p : Part) : Part :=
  match p.valves.get? v with
  | none => p
  | some valve =>
    p.onLine (lineOf valve.outstation) fun l =>
      let mine (q : Command) : Bool := q.valve = v && q.action != .stop
      let head := (l.queue.take l.inTxn).map fun q => if mine q then { q with withdrawn := true } else q
      { l with queue := head ++ (l.queue.drop l.inTxn).filter fun q => !mine q }

/-- The valves of the OPEN and CLOSE commands, not withdrawn, among some commands: those reported ended with COMMS when
the commands are removed (R38, R40). -/
def reportedValves (cs : List Command) : List Nat :=
  (cs.filter fun c => c.action != .stop && !c.withdrawn).map (·.valve)

/-- The head command leaves the queue. -/
def popCommand (n : Nat) (p : Part) : Part := p.onLine n fun l => { l with queue := l.queue.tail }

end Sys2Proof.Machine
end

