-- ==== Sys2Proof/Machine/Crews.lean ====
section
/-!
DEFINITION. The dispatch arbiter (08): demand and its order, the decision, offers, and the end of jobs.
-/

namespace Sys2Proof.Machine

/-- A crew serves a class when its kind does (08, section 8.1). -/
def CrewKind.serves : CrewKind → JobClass → Bool
  | .emergency, .leak => true
  | .emergency, .valve => true
  | .fitter, .valve => true
  | .fitter, .relight => true
  | .emergency, .relight => false
  | .fitter, .leak => false

/-- The crew that is offered or holds a job. -/
def Part.crewOn (p : Part) (j : Job) : Option (Nat × Crew) :=
  p.dispatch.crews.entries.find? fun e => e.2.job = some j

/-- The item ended in its owning block: an offer of it ends with DEMAND_ENDED (R152), and a crew holding it is freed
without a notice (R156). -/
def endJob (j : Job) (p : Part) : Part :=
  match p.crewOn j with
  | none => p
  | some (id, c) =>
    if c.state = .offered then
      place (.offerWithdrawn id j.cls j.item .demandEnded)
        (p.onCrew id fun c => { c with state := .available, job := none, expiry := none })
    else p.onCrew id fun c => { c with state := .available, job := none, declined := none }

/-! ## Demand (R147) -/

/-- An item qualifies as demand in its owning block, whether or not it is under offer. -/
def Part.qualifies (p : Part) (j : Job) : Bool :=
  match j.cls with
  | .leak => ((p.register.incidents.get? j.item).map fun i => decide (i.state = .opened)).getD false
  | .valve => (((p.valves.get? j.item).bind (·.operation)).map fun o =>
      decide (o.mode = .crew) && decide (o.state = .pending)).getD false
  | .relight => ((p.segments.get? j.item).map fun s =>
      decide (s.supply = .purged) && decide (s.relit < s.customers)).getD false

/-- The items of a class that are demand: they qualify and no crew is offered or holds them. -/
def Part.demand (p : Part) (cls : JobClass) : List Nat :=
  let ids := match cls with
    | .leak => p.register.incidents.ids
    | .valve => p.valves.ids
    | .relight => p.segments.ids
  ids.filter fun i => p.qualifies ⟨cls, i⟩ && (p.crewOn ⟨cls, i⟩).isNone

/-- A valve's position in a plan's close list (R147). -/
def Part.closeIndex (p : Part) (plan v : Nat) : Nat := (((p.plans.get? plan).map (·.closeList)).getD []).idxOf v

/-- The place of an item in the order of its class: the smaller key comes first (R147). -/
def Part.demandKey (p : Part) (j : Job) : List Nat :=
  match j.cls with
  | .leak => match p.register.incidents.get? j.item with
    | none => [j.item]
    | some i => [i.grade.code, i.deadline, j.item]
  | .valve => match (p.valves.get? j.item).bind (·.operation) with
    | none => [j.item]
    | some o => match o.origin with
      | .plan q => [0, q, p.closeIndex q j.item, j.item]
      | .host => [1, o.ordered, j.item]
  | .relight => match p.segments.get? j.item with
    | none => [j.item]
    | some s => [if 0 < s.priority then 0 else 1, s.outage.getD 0, j.item]

/-- Keys compare place by place. -/
def keyBefore : List Nat → List Nat → Bool
  | [], [] => false
  | [], _ :: _ => true
  | _ :: _, [] => false
  | a :: as, b :: bs => decide (a < b) || (a = b && keyBefore as bs)

/-- The first item of some, in the order of its class. -/
def Part.firstInOrder (p : Part) (cls : JobClass) : List Nat → Option Nat
  | [] => none
  | i :: rest => match p.firstInOrder cls rest with
    | none => some i
    | some j => if keyBefore (p.demandKey ⟨cls, j⟩) (p.demandKey ⟨cls, i⟩) then some j else some i

/-- The district of an item (R147). -/
def Part.jobDistrict (p : Part) (j : Job) : Nat :=
  match j.cls with
  | .leak => ((p.register.incidents.get? j.item).map (·.district)).getD 0
  | .valve => ((p.valves.get? j.item).map fun v => p.districtOf v.endA).getD 0
  | .relight => p.districtOf j.item

/-! ## The decision (R149, R150) -/

/-- A crew is suitable for an item (R149). -/
def Crew.suits (c : Crew) (j : Job) : Bool := c.state = .available && c.kind.serves j.cls && c.declined != some j

/-- The suitable crews of an item, ascending. -/
def Part.suitable (p : Part) (j : Job) : List Nat := p.dispatch.crews.idsWhere fun _ c => c.suits j

/-- The crew chosen for an item: one of the item's district before the others, the lowest id within each group
(R150). -/
def Part.chooseCrew (p : Part) (j : Job) : Option Nat :=
  let home := p.dispatch.crews.idsWhere fun _ c => c.suits j && c.home = p.jobDistrict j
  match home with
  | id :: _ => some id
  | [] => (p.suitable j).head?

/-- The first item of a class, in its order, that has a suitable crew (R149). -/
def Part.contender (p : Part) (cls : JobClass) : Option Nat :=
  p.firstInOrder cls ((p.demand cls).filter fun i => !(p.suitable ⟨cls, i⟩).isEmpty)

/-- The level or reload of a class. -/
def PerClass.of (l : PerClass) : JobClass → Nat
  | .leak => l.leak | .valve => l.valve | .relight => l.relight

/-- The first grade-A LEAK item, in LEAK order, that has a suitable crew (R149, step 1). -/
def Part.gradeABypass (p : Part) : Option Nat :=
  p.firstInOrder .leak ((p.demand .leak).filter fun i =>
    !(p.suitable ⟨.leak, i⟩).isEmpty && ((p.register.incidents.get? i).map (·.grade)) = some .a)

/-- The better of the winner so far and a class that may contend: the lower level, ties to the earlier (R149,
step 2). -/
def Part.betterOf (p : Part) (best : Option Job) (cls : JobClass) : Option Job :=
  match p.contender cls with
  | none => best
  | some i => match best with
    | none => some ⟨cls, i⟩
    | some b => if p.dispatch.levels.of cls < p.dispatch.levels.of b.cls then some ⟨cls, i⟩ else some b

/-- The winning item of a decision (R149, steps 1 and 2). -/
def Part.winner (p : Part) : Option Job :=
  match p.gradeABypass with
  | some i => some ⟨.leak, i⟩
  | none => p.betterOf (p.betterOf (p.betterOf none .leak) .valve) .relight

/-- The level of a class after a decision that another or the same class won (R149, step 3). -/
def Part.levelAfter (p : Part) (won cls : JobClass) : Nat :=
  if cls = won then p.dispatch.reloads.of cls
  else if (p.demand cls).isEmpty then p.dispatch.levels.of cls
  else p.dispatch.levels.of cls - 1

/-- One decision: the levels move, the chosen crew goes to OFFERED, and CREW_OFFER is placed (R149, R150). -/
def makeOffer (j : Job) (crew : Nat) (p : Part) : Part :=
  let levels : PerClass := ⟨p.levelAfter j.cls .leak, p.levelAfter j.cls .valve, p.levelAfter j.cls .relight⟩
  let district := p.jobDistrict j
  let grade := if j.cls = .leak then (p.register.incidents.get? j.item).map (·.grade) else none
  let expiry := p.time + p.dispatch.offerTime
  let home := ((p.dispatch.crews.get? crew).map (·.home)).getD 0
  let p := { p with dispatch := { p.dispatch with levels := levels } }
  let p := p.onCrew crew fun c => { c with state := .offered, job := some j, declined := none, expiry := some expiry }
  place (.crewOffer crew j.cls j.item district grade expiry home) p

/-- Decisions, one after another, until no item has a suitable crew; each takes one free crew, so as many as there are
crews are enough (R149). -/
def decideLoop : Nat → Part → Part
  | 0, p => p
  | n + 1, p =>
    match p.winner with
    | none => p
    | some j => match p.chooseCrew j with
      | none => p
      | some crew => decideLoop n (makeOffer j crew p)

/-- The arbiter decides, while the part is RUNNING and ATTENDED (R149, R157). -/
def dispatchDecide (p : Part) : Part :=
  if p.isRunning && !p.panel.supervision.unattended then decideLoop p.dispatch.crews.entries.length p else p

end Sys2Proof.Machine
end

