-- ==== Sys2Proof/Machine/IncidentOps.lean ====
section
/-!
DEFINITION. The incident register's shared operations (07): changes of state, deadlines brought forward, escalation,
upgrades by pressure, and the links to plans.
-/

namespace Sys2Proof.Machine

/-- An incident of the part. -/
def Part.incident? (p : Part) (id : Nat) : Option Incident := p.register.incidents.get? id

/-- An incident record is written, and the lamps follow it (R175). -/
def putIncident (id : Nat) (i : Incident) (p : Part) : Part :=
  refreshLamps { p with register := { p.register with incidents := p.register.incidents.set id i } }

/-- The response time of a grade, in seconds (R135, R136). -/
def Part.response (p : Part) : Grade → Nat
  | .a => 60 * p.register.responseA
  | .b => 60 * p.register.responseB
  | .c => 60 * p.register.responseC

/-- The escalation interval in seconds (R135, R139). -/
def Part.escalationStep (p : Part) : Nat := 60 * p.register.interval

/-- The states that end escalation when they are entered (R132). -/
def IncidentState.endsEscalation : IncidentState → Bool
  | .onSite | .madeSafe | .repaired | .closed => true
  | .opened | .assigned => false

/-- An incident changes state, with its INCIDENT_STATE notice (R132). -/
def setIncidentState (id : Nat) (new : IncidentState) (cause : IncidentCause) (p : Part) : Part :=
  match p.incident? id with
  | none => p
  | some i =>
    let p := putIncident id { i with
      state := new, stateTime := p.time
      nextEscalation := if new.endsEscalation then none else i.nextEscalation } p
    place (.incidentState id i.state new cause i.crew) p

/-- The incident is made safe, and its demand ends if it was OPEN (R117, R134, R141). The notice of an offer that ends so
comes right after the incident's own (DESIGN CHOICE, notes/assumptions/35.md). -/
def makeSafe (id : Nat) (cause : IncidentCause) (p : Part) : Part :=
  match p.incident? id with
  | none => p
  | some i =>
    let p := setIncidentState id .madeSafe cause p
    if i.state = .opened then endJob ⟨.leak, id⟩ p else p

/-- The escalation level rises by one, up to 7, and the next escalation is one interval after `from_` while the level is
below 7 (R138, R139). -/
def escalateAt (id : Nat) (from_ : Nat) (p : Part) : Part :=
  match p.incident? id with
  | none => p
  | some i =>
    let level := min 7 (i.level + 1)
    let next := if level < 7 then some (from_ + p.escalationStep) else none
    let p := putIncident id { i with level := level, nextEscalation := next } p
    place (.incidentEscalated id level i.state i.deadline next) p

/-- The deadline after an event that may bring it forward (R136). -/
def Part.broughtForward (p : Part) (i : Incident) (g : Grade) : Nat := min i.deadline (i.openedTime + p.response g)

/-- The next escalation follows a deadline that was brought forward from `old`: only one that has become earlier, so that
an event that leaves it as it was escalates nothing (R140; DESIGN CHOICE, notes/assumptions/33.md). -/
def followDeadline (id old : Nat) (p : Part) : Part :=
  match p.incident? id with
  | none => p
  | some i =>
    if i.deadline < old && i.unreached && i.level = 0 then
      if p.time < i.deadline then putIncident id { i with nextEscalation := some i.deadline } p
      else escalateAt id p.time p
    else p

/-- The grade rises: the deadline is brought forward, INCIDENT_UPGRADED is placed, and the next escalation follows
(R136, R140). -/
def raiseGrade (id : Nat) (g : Grade) (cause : UpgradeCause) (point : Option Nat) (p : Part) : Part :=
  match p.incident? id with
  | none => p
  | some i =>
    let deadline := p.broughtForward i g
    let p := putIncident id { i with grade := g, deadline := deadline } p
    followDeadline id i.deadline (place (.incidentUpgraded id i.grade g cause point deadline) p)

/-- The deadline of one incident is brought forward by SET_RESPONSE, without an upgrade (R135, R136). -/
def bringForward (id : Nat) (p : Part) : Part :=
  match p.incident? id with
  | none => p
  | some i =>
    if i.state = .closed then p
    else followDeadline id i.deadline (putIncident id { i with deadline := p.broughtForward i i.grade } p)

/-- A LEAK incident with a segment that pressure may still confirm, and whose grade it would raise (R137). -/
def Incident.confirmable (i : Incident) : Bool :=
  i.kind = .leak && (i.state = .opened || i.state = .assigned || i.state = .onSite) && i.grade != .a

/-- A pressure confirmation for a segment, naming the point: the incident that qualifies is raised to grade A (R137). -/
def pressureConfirm (segment point : Nat) (p : Part) : Part :=
  match (p.register.incidents.idsWhere fun _ i => i.segment = some segment && i.confirmable).head? with
  | none => p
  | some id => raiseGrade id .a .pressure (some point) p

/-- The lowest confirming point of a segment (R137). -/
def Part.confirmingPoint (p : Part) (segment : Nat) : Option Nat :=
  (p.points.idsWhere fun _ pt => match pt.body with
    | .pressure seg _ st => seg = some segment && st.confirming
    | .discrete _ => false).head?

end Sys2Proof.Machine
end

