-- ==== Sys2Proof/Machine/PlanOps.lean ====
section
/-!
DEFINITION. The isolation planner's shared operations (06): changes of a plan's state, the snoop, valve operations from
their ordering to their end, and the course of an executed plan.
-/

namespace Sys2Proof.Machine

/-! ## Plans -/

/-- A plan changes state, with its PLAN_STATE notice; on entry to BLOCKED the valve named becomes the blocking valve
(R102, R117). -/
def setPlanState (id : Nat) (new : PlanState) (valve : Option Nat) (p : Part) : Part :=
  match p.plans.get? id with
  | none => p
  | some q =>
    let q' := { q with state := new, stateTime := p.time, blocking := if valve.isSome then valve else q.blocking }
    place (.planState id q.state new q.target q'.incident q'.failure valve)
      { p with plans := p.plans.set id q' }

/-- A plan goes FREE: the notice carries its last values, every field is cleared, and the linked incident's plan link
becomes absent if it names this plan (R102, R121, R123). -/
def freePlan (id : Nat) (p : Part) : Part :=
  match p.plans.get? id with
  | none => p
  | some q =>
    let p := place (.planState id q.state .free q.target q.incident q.failure none)
      { p with plans := p.plans.erase id }
    match q.incident.bind fun i => (p.incident? i).map fun inc => (i, inc) with
    | some (i, inc) => if inc.planLink = some id then putIncident i { inc with planLink := none } p else p
    | none => p

/-- A valve is on the boundary that a plan computed (06, section 6.1). -/
def Plan.uses (q : Plan) (v : Nat) : Bool := q.closeList.contains v || q.holdList.contains v

/-- The changes of valves that one event makes are handed to the snoop: while a plan job runs they enter the change set
(R89), and every READY plan that uses one of the valves goes STALE, in ascending plan id (R107). The plan that is itself
becoming the holder is left out (notes/assumptions/9.md). -/
def snoop (vs : List Nat) (except : Option Nat) (p : Part) : Part :=
  let p := match p.trace.engine with
    | .planJob _ =>
      { p with trace := { p.trace with changeSet := vs.foldl (fun set v => insertId v set) p.trace.changeSet } }
    | .idle | .supplyJob _ => p
  (p.plans.idsWhere fun id q => q.state = .ready && vs.any q.uses && except != some id).foldl
    (fun p id => setPlanState id .stale none p) p

/-! ## Valve operations -/

/-- The operation of a valve. -/
def Part.op? (p : Part) (v : Nat) : Option Operation := (p.valves.get? v).bind (·.operation)

/-- An operation is PENDING or ACTING. -/
def Operation.live (o : Operation) : Bool := o.state = .pending || o.state = .acting

/-- The last end position of a valve. -/
def Part.lastEnd? (p : Part) (v : Nat) : Option End := (p.valves.get? v).map (·.lastEnd)

/-- An operation takes a new state at the present part time. -/
def setOpState (v : Nat) (st : OpState) (expiry : Option Nat) (p : Part) : Part :=
  p.onValve v fun valve =>
    { valve with operation := valve.operation.map fun o =>
        { o with state := st, stateTime := p.time, travelExpiry := expiry } }

/-- An operation ends DONE with VALVE_DONE, and a CREW operation is handed to the arbiter as ended (R115, R116). The
notice of an offer that ends so comes right after the operation's own (DESIGN CHOICE, notes/assumptions/35.md). -/
def finishOp (v : Nat) (p : Part) : Part :=
  match p.op? v with
  | none => p
  | some o =>
    let p := place (.valveDone v o.action o.origin o.mode) (setOpState v .done none p)
    if o.mode = .crew then endJob ⟨.valve, v⟩ p else p

/-- An operation ends FAILED with its reason and VALVE_FAILED, and a CREW operation is handed to the arbiter as ended
(R115, R116). The notice of an offer that ends so comes right after the operation's own (DESIGN CHOICE,
notes/assumptions/35.md). -/
def failOp (v : Nat) (reason : OpFailure) (p : Part) : Part :=
  match p.op? v with
  | none => p
  | some o =>
    let p := place (.valveFailed v o.action o.origin o.mode reason) (setOpState v (.failed reason) none p)
    if o.mode = .crew then endJob ⟨.valve, v⟩ p else p

/-- A PENDING or ACTING operation is cancelled (R119, step 1): a queued command is withdrawn, an ACTING FIELD operation
is stopped, a CREW operation is taken from the arbiter. -/
def cancelOp (v : Nat) (p : Part) : Part :=
  match p.op? v with
  | none => p
  | some o =>
    if o.live then
      let p := failOp v .cancelled p
      match o.mode, o.state with
      | .field, .pending => withdrawCommand v p
      | .field, .acting => offerStop v p
      | _, _ => p
    else p

/-- The valves of a list whose operation has a plan as origin and passes a test, in list order. -/
def Part.opsOf (p : Part) (plan : Nat) (vs : List Nat) (f : Nat → Operation → Bool) : List Nat :=
  vs.filter fun v => match p.op? v with
    | none => false
    | some o => o.origin = .plan plan && f v o

/-- The drive of an action. -/
def Action.drive : Action → Drive
  | .toOpen => .toOpen | .toClose => .toClose

/-- The end that an action drives toward (06, section 6.4). -/
def Action.target : Action → End
  | .toOpen => .opened | .toClose => .closed

/-- The mode of an operation on a valve, decided at its ordering (R110). -/
def Part.modeFor (p : Part) (v : Valve) : Mode := if v.actuated && p.answers v.outstation then .field else .crew

/-- An operation is ordered on a valve (R110); a FIELD operation is offered to the field poller, and fails with COMMS
when it is not placed (R111). -/
def orderOp (v : Nat) (a : Action) (origin : Origin) (p : Part) : Part :=
  match p.valves.get? v with
  | none => p
  | some valve =>
    let mode := p.modeFor valve
    let op : Operation :=
      { action := a, origin := origin, mode := mode, state := .pending, ordered := p.time, stateTime := p.time }
    let p := p.onValve v fun valve => { valve with operation := some op }
    match mode with
    | .crew => p
    | .field =>
      let (p, full) := offerCommand
        { valve := v, outstation := valve.outstation, slot := valve.slot, action := a.drive, origin := some origin } p
      if full then failOp v .comms p else p

/-! ## The course of an executed plan (R117, R121) -/

/-- A valve that an event touched, and whether its operation went to FAILED in the event. -/
structure Touched where
  valve : Nat
  failed : Bool

/-- Every valve of a plan's close list has last end position CLOSED (R117). -/
def Part.allClosed (p : Part) (q : Plan) : Bool := q.closeList.all fun v => p.lastEnd? v = some .closed

/-- The isolation test of R117 finds for a plan. -/
def Part.isolates (p : Part) (q : Plan) : Bool := (q.state = .executing || q.state = .blocked) && p.allClosed q

/-- A plan that is to go ISOLATED has its CLOSE operations still PENDING cancelled (R117). Their notices come before any
PLAN_STATE that its tests place, that of BLOCKED among them (R116). -/
def cancelPending (id : Nat) (p : Part) : Part :=
  match p.plans.get? id with
  | none => p
  | some q =>
    if p.isolates q then
      (p.opsOf id q.closeList fun _ o => o.action = .toClose && o.state = .pending).foldl (fun p v => cancelOp v p) p
    else p

/-- The plan goes ISOLATED with its notice, and its incident is made safe (R117). -/
def enterIsolated (id : Nat) (p : Part) : Part :=
  match p.plans.get? id with
  | none => p
  | some q =>
    let p := setPlanState id .isolated none p
    match q.incident.bind fun i => (p.incident? i).map fun inc => (i, inc) with
    | some (i, inc) =>
      if inc.state = .opened || inc.state = .assigned || inc.state = .onSite then makeSafe i .plan p else p
    | none => p

/-- The isolation test of R117, once the operations that it ends are cancelled. -/
def isolationTest (id : Nat) (p : Part) : Part :=
  match p.plans.get? id with
  | none => p
  | some q => if p.isolates q then enterIsolated id p else p

/-- The failure test of R117: an EXECUTING plan whose CLOSE operation failed, and was not cancelled, goes BLOCKED. -/
def failureTest (id : Nat) (t : Touched) (p : Part) : Part :=
  match p.plans.get? id, p.op? t.valve with
  | some q, some o =>
    if t.failed && o.origin = .plan id && o.action = .toClose && o.state != .failed .cancelled && q.state = .executing then
      setPlanState id .blocked (some t.valve) p
    else p
  | _, _ => p

/-- An ISOLATED plan whose close-list valve stands OPEN again goes BLOCKED (R117). -/
def breakTest (id v : Nat) (p : Part) : Part :=
  match p.plans.get? id with
  | none => p
  | some q =>
    if q.state = .isolated && p.lastEnd? v = some .opened then setPlanState id .blocked (some v) p else p

/-- A valve leaves the release list of a RELEASING plan, and the plan goes FREE when the list becomes empty (R121). -/
def leaveReleaseOf (id v : Nat) (p : Part) : Part :=
  match p.plans.get? id with
  | none => p
  | some q =>
    if q.state = .releasing && q.releaseList.contains v then
      let rest := q.releaseList.filter (· != v)
      let p := p.onPlan id fun q => { q with releaseList := rest }
      if rest.isEmpty then freePlan id p else p
    else p

/-- A valve leaves every release list that holds it but that of one plan (R121). -/
def leaveReleases (v : Nat) (except : Option Nat) (p : Part) : Part :=
  (p.plans.idsWhere fun id q => q.state = .releasing && q.releaseList.contains v && except != some id).foldl
    (fun p id => leaveReleaseOf id v p) p

/-- The tests of one plan after a valve of its close list was touched: the operations that an isolation ends are
cancelled, and then its state moves (R116, R117). The positions of the event are all written by now, so the isolation
that `cancelPending` finds is the one that `isolationTest` enters. -/
def testPlan (id : Nat) (t : Touched) (p : Part) : Part :=
  isolationTest id (failureTest id t (cancelPending id (breakTest id t.valve p)))

/-- The tests that follow one touched valve: a DONE reopening leaves its plan's release list (R121), and each plan with
the valve on its close list is tested (R117), in ascending plan id (DESIGN CHOICE, notes/assumptions/30.md). -/
def courseOf (t : Touched) (p : Part) : Part :=
  let p := match p.op? t.valve with
    | some o => match o.origin, o.action, o.state with
      | .plan id, .toOpen, .done => leaveReleaseOf id t.valve p
      | _, _, _ => p
    | none => p
  (p.plans.idsWhere fun _ q => q.closeList.contains t.valve).foldl (fun p id => testPlan id t p) p

/-- The tests of R117 and R121 for all the valves that an event touched, after their operations have been brought up to
date, so that the operations' notices come before the plans' (R116). -/
def planCourse (ts : List Touched) (p : Part) : Part := ts.foldl (fun p t => courseOf t p) p

end Sys2Proof.Machine
end

