-- ==== Sys2Proof/Machine/ValveOps.lean ====
section
/-!
DEFINITION. The network model's valve positions (04, sections 4.4): slot reports, reports from the host, the inoperable
flag, and what each hands to the isolation planner.
-/

namespace Sys2Proof.Machine

/-- The plan that is the origin of a valve's operation, absent for HOST or no operation (R71). -/
def Part.originPlan (p : Part) (v : Nat) : Option Nat :=
  match p.op? v with
  | some o => match o.origin with
    | .plan id => some id
    | .host => none
  | none => none

/-- The position of an end. -/
def End.position : End → Position
  | .opened => .opened | .closed => .closed

/-- A valve's position is written, and its last end position with it when an end is reported; a change of the last end
position raises supply-pending with cause VALVE and lists the valve for the plan snoop (R71, R73). -/
def writePosition (v : Nat) (pos : Position) (reached : Option End) (p : Part) : Part × List Nat :=
  match p.valves.get? v with
  | none => (p, [])
  | some valve =>
    let lastEnd := reached.getD valve.lastEnd
    let p := { p with valves := p.valves.set v { valve with position := pos, lastEnd := lastEnd } }
    if lastEnd = valve.lastEnd then (p, []) else (raise (.valve v (p.originPlan v)) p, [v])

/-- One slot of a DATA reply from an ACTUATOR (R33; 02, section 2.3). -/
structure SlotStatus where
  openLimit : Bool
  closedLimit : Bool
  torque : Bool

/-- The indications of a slot status byte; bits 3 to 7 are not used (02, section 2.3). -/
def slotStatus (b : Byte) : SlotStatus := ⟨b.getLsbD 0, b.getLsbD 1, b.getLsbD 2⟩

/-- The position and the end reached that the limits give (R71). -/
def SlotStatus.position (s : SlotStatus) : Position × Option End :=
  match s.openLimit, s.closedLimit with
  | false, true => (.closed, some .closed)
  | true, false => (.opened, some .opened)
  | false, false => (.moving, none)
  | true, true => (.unknown, none)

/-- The planner takes a slot report for the valve's operation, with the position already written (R112, R115). -/
def opSlotReport (v : Nat) (s : SlotStatus) (p : Part) : Part × Touched :=
  match p.op? v with
  | none => (p, ⟨v, false⟩)
  | some o =>
    let atEnd : Bool := s.position.2 = some o.action.target
    match o.mode with
    | .field =>
      if o.state = .acting then
        if atEnd then (finishOp v p, ⟨v, false⟩)
        else if s.torque then (offerStop v (failOp v .torque p), ⟨v, true⟩)
        else (p, ⟨v, false⟩)
      else (p, ⟨v, false⟩)
    | .crew => if o.live && atEnd then (finishOp v p, ⟨v, false⟩) else (p, ⟨v, false⟩)

/-- A VALVE_REPORT of an end is handed to the planner: a CREW operation toward that end is DONE (R115). -/
def opEndReport (v : Nat) (e : End) (p : Part) : Part :=
  match p.op? v with
  | none => p
  | some o => if o.mode = .crew && o.live && o.action.target = e then finishOp v p else p

/-- A report of CANNOT_OPERATE is handed to the planner: a CREW operation fails with SEIZED (R115). -/
def opSeizedReport (v : Nat) (p : Part) : Part × Touched :=
  match p.op? v with
  | none => (p, ⟨v, false⟩)
  | some o => if o.mode = .crew && o.live then (failOp v .seized p, ⟨v, true⟩) else (p, ⟨v, false⟩)

/-- The inoperable flag of a valve is changed: the ends are marked, supply-pending is raised with a cause, and the change
is handed to the snoop (R74). A flag already at the value changes nothing. -/
def changeInoperable (v : Nat) (b : Bool) (c : Cause) (p : Part) : Part :=
  match p.valves.get? v with
  | none => p
  | some valve =>
    if valve.inoperable = b then p
    else
      let p := { p with valves := p.valves.set v { valve with inoperable := b } }
      snoop [v] none (raise c (markSegments [valve.endA, valve.endB] p))

/-- The actuated valves of an outstation's slots, ascending. -/
def Part.valvesOf (p : Part) (os : Nat) : List Nat := p.valves.idsWhere fun _ v => v.actuated && v.outstation = os

/-- The valve on a slot of an outstation. -/
def Part.valveOn (p : Part) (os slot : Nat) : Option Nat :=
  (p.valves.idsWhere fun _ v => v.actuated && v.outstation = os && v.slot = slot).head?

/-- The slot reports of a DATA reply: one for each slot that carries a valve, in ascending slot order (R33). -/
def Part.slotReports (p : Part) (os : Nat) (slots : List SlotStatus) : List (Nat × SlotStatus) :=
  slots.zipIdx.filterMap fun e => (p.valveOn os e.2).map fun v => (v, e.1)

/-- The network model takes some slot reports: the positions are written, and the valves whose last end position changed
are listed (R71). -/
def writeSlots (rs : List (Nat × SlotStatus)) (p : Part) : Part × List Nat :=
  rs.foldl (fun (p, vs) r => let (p, vs') := writePosition r.1 r.2.position.1 r.2.position.2 p; (p, vs ++ vs')) (p, [])

/-- The isolation planner takes some slot reports for the valves' operations (R112, R115). -/
def reportSlots (rs : List (Nat × SlotStatus)) (p : Part) : Part × List Touched :=
  rs.foldl (fun (p, ts) r => let (p, t) := opSlotReport r.1 r.2 p; (p, ts ++ [t])) (p, [])

/-- The slot reports of one DATA reply (R33): all the positions are written first, their changes go to the snoop as those
of one event (R107), and then the planner takes the reports (DESIGN CHOICE, notes/assumptions/34.md). -/
def takeSlots (rs : List (Nat × SlotStatus)) (p : Part) : Part × List Touched :=
  let (p, vs) := writeSlots rs p
  reportSlots rs (snoop vs none p)

/-- The positions of a lost outstation's valves become UNKNOWN, the last ends kept (R72). -/
def losePositions (os : Nat) (p : Part) : Part :=
  { p with valves := p.valves.map fun _ v =>
      if v.actuated && v.outstation = os then { v with position := .unknown } else v }

/-- A valve's FIELD operation still PENDING or ACTING fails with COMMS (R111, R114); true when it did. -/
def failField (v : Nat) (p : Part) : Part × List Touched :=
  match p.op? v with
  | none => (p, [])
  | some o => if o.mode = .field && o.live then (failOp v .comms p, [⟨v, true⟩]) else (p, [])

/-- The FIELD operations of some valves fail with COMMS, in order. -/
def failFields (vs : List Nat) (p : Part) : Part × List Touched :=
  vs.foldl (fun (p, ts) v => let (p, t) := failField v p; (p, ts ++ t)) (p, [])

/-- A command's acceptance: the PENDING FIELD operation goes ACTING with its travel expiry (R111). -/
def opAccepted (v : Nat) (p : Part) : Part :=
  match p.valves.get? v, p.op? v with
  | some valve, some o =>
    if o.mode = .field && o.state = .pending then setOpState v .acting (some (p.time + valve.travelLimit)) p else p
  | _, _ => p

/-- A command ended with REJECTED: the PENDING FIELD operation fails (R111). -/
def opRejected (v : Nat) (p : Part) : Part × List Touched :=
  match p.op? v with
  | none => (p, [])
  | some o => if o.mode = .field && o.state = .pending then (failOp v .rejected p, [⟨v, true⟩]) else (p, [])

end Sys2Proof.Machine
end

