-- ==== Sys2Proof/Machine/PointOps.lean ====
section
/-!
DEFINITION. The point supervisor at work (03): the four stages of a pressure sample, the debounce of a discrete, the
entry of a band, losses, and what a delivery hands on.
-/

namespace Sys2Proof.Machine

/-! ## Stages 1 to 3 (R49, R50, R51) -/

/-- The conversion of a count: the value of a GOOD count, or the fault (R49). Whole numbers without wrapping. -/
def convert (cfg : PressureSettings) (c : Nat) : Quality × Option Nat :=
  let span := cfg.f - cfg.z
  let margin := span / 32
  if c < cfg.z then if cfg.z ≤ c + margin then (.good, some cfg.p0) else (.faultUnder, none)
  else if c ≤ cfg.f then (.good, some (cfg.p0 + ((c - cfg.z) * (cfg.p1 - cfg.p0) + span / 2) / span))
  else if c ≤ cfg.f + margin then (.good, some cfg.p1)
  else (.faultOver, none)

/-- The filter state after a GOOD sample of value v (R50): restarted after a quality that was not GOOD, else moved by
the weighted difference, truncated toward zero. -/
def filterStep (cfg : PressureSettings) (wasGood : Bool) (s v : Nat) : Nat :=
  if wasGood then
    let d : Int := (v * 16 : Int) - s
    (s + Int.tdiv (d * cfg.k) 16).toNat
  else v * 16

/-- The filtered value of a filter state, rounded to the nearest daPa, halves up (R50). -/
def filteredOf (s : Nat) : Nat := (s + 8) / 16

/-- The newest entry joins the history, which keeps eight (R51). -/
def pushHistory (h : List Nat) (f : Nat) : List Nat := if h.length < 8 then h ++ [f] else h.drop 1 ++ [f]

/-- FALLING after the append (R51): tested with eight entries and a fall limit above 0. The fall is the oldest entry
minus the newest. DEDUCED for a fall limit of 1: the table is followed, not the sentence after it
(notes/assumptions/28.md). -/
def fallingAfter (limit : Nat) (h : List Nat) (before : Bool) : Bool :=
  if h.length = 8 && 0 < limit then
    let fall : Int := (h.headD 0 : Int) - (h.getLastD 0)
    if before then Decidable.decide ((limit / 2 : Nat) ≤ fall) else Decidable.decide ((limit : Int) ≤ fall)
  else before

/-! ## Stage 4 (R52, R53, R54) -/

/-- The band that an easing sample leaves the point in (R54). -/
def easeTo (cfg : PressureSettings) (b : Band) (f : Nat) : Band :=
  match b with
  | .normal => .normal
  | .low => if cfg.l1 + cfg.hyst ≤ f then .normal else .low
  | .lowTrip =>
    if cfg.l1 + cfg.hyst ≤ f then .normal else if cfg.l2 + cfg.hyst ≤ f then .low else .lowTrip
  | .high => if f + cfg.hyst ≤ cfg.h1 then .normal else .high
  | .highTrip =>
    if f + cfg.hyst ≤ cfg.h1 then .normal else if f + cfg.hyst ≤ cfg.h2 then .high else .highTrip

/-- The band machine at a GOOD sample: the band after it and the candidate after it (R52, R53, R54). -/
def bandStep (cfg : PressureSettings) (now : Nat) (b : Band) (cand : Option Candidate) (f : Nat) :
    Band × Option Candidate :=
  let i := indicated cfg f
  if i.worse b then
    match cand with
    | some c => (b, some { c with band := i })
    | none => if cfg.rideThrough = 0 then (i, none) else (b, some ⟨i, now, now + cfg.rideThrough⟩)
  else if i = b then (b, none)
  else (easeTo cfg b f, none)

/-- A band is set on a point's state; LOW_TRIP sets LOW_SEEN (R56, step 1). -/
def PressureState.enter (st : PressureState) (b : Band) : PressureState :=
  { st with band := b, lowSeen := st.lowSeen || b = .lowTrip }

/-- The point leaves GOOD: history emptied, FALLING cleared, candidate dropped (R48). -/
def PressureState.leaveGood (st : PressureState) : PressureState :=
  { st with history := [], falling := false, candidate := none }

/-- A pressure sample on a point's quality and state (R48–R54, R56 step 1). -/
def pressureSample (cfg : PressureSettings) (now : Nat) (q : Quality) (st : PressureState) (count : Nat) :
    Quality × PressureState :=
  match convert cfg count with
  | (q', none) => (q', if q = .good then st.leaveGood else st)
  | (_, some v) =>
    let s := filterStep cfg (q = .good) st.filter v
    let f := filteredOf s
    let h := pushHistory st.history f
    let falling := fallingAfter cfg.fallLimit h st.falling
    let (b, cand) := bandStep cfg now st.band st.candidate f
    let st := { st with value := some v, filter := s, filtered := some f, history := h, falling := falling
                        candidate := cand }
    (.good, if b = st.band then st else st.enter b)

/-! ## Discrete points (R57, R58) -/

/-- A level change matches the edge mode (R58). -/
def EdgeMode.matches (m : EdgeMode) (rise : Bool) : Bool :=
  match m with
  | .rise => rise
  | .fall => !rise
  | .both => true
  | .level => false

/-- A discrete sample: the point after it, and for a matching edge whether pending was already set (R57, R58). -/
def discreteSample (d : Discrete) (raw : Bool) : Discrete × Option Bool :=
  match d.level with
  | none => ({ d with level := some raw, stable := 0 }, none)
  | some level =>
    if raw = level then ({ d with stable := 0 }, none)
    else if d.stable + 1 < d.debounce then ({ d with stable := d.stable + 1 }, none)
    else
      let d' := { d with level := some raw, stable := 0 }
      if d.mode.matches raw then ({ d' with pending := true }, some d.pending) else (d', none)

/-! ## Points of the part -/

/-- A point record is written. -/
def putPoint (id : Nat) (pt : Point) (p : Part) : Part := { p with points := p.points.set id pt }

/-- A point that has entered a band: the record is written, POINT_BAND is placed, and the lamps follow (R56, R175). -/
def enterBand (id : Nat) (pt : Point) (prev : Band) (st : PressureState) (cause : BandCause) (p : Part) : Part :=
  refreshLamps (place (.pointBand id prev st.band (st.filtered.getD 0) st.falling cause) (putPoint id pt p))

/-- What the processing of a delivery collects to hand on: the points that entered a band, and the points that began
confirming, with their segments (R46, R51). -/
structure HandOn where
  entered : List Nat := []
  confirming : List (Nat × Nat) := []

/-- A begin of confirming is noted for a point that names a segment (R51). -/
def HandOn.note (h : HandOn) (id : Nat) (segment : Option Nat) (before after : PressureState) : HandOn :=
  let h := if before.band = after.band then h else { h with entered := h.entered ++ [id] }
  match segment with
  | some seg => if !before.confirming && after.confirming then { h with confirming := h.confirming ++ [(id, seg)] } else h
  | none => h

/-- The data of a good DATA reply (R33): the counts of a STATION or the slot statuses of an ACTUATOR, and the discrete
word. -/
inductive ReplyData where
  | station (counts : List Nat) (word : BitVec 16)
  | actuator (slots : List SlotStatus) (word : BitVec 16)

/-- The discrete word of a reply. -/
def ReplyData.word : ReplyData → BitVec 16
  | .station _ w | .actuator _ w => w

/-- The counts of a reply; an ACTUATOR gives none. -/
def ReplyData.counts : ReplyData → List Nat
  | .station cs _ => cs
  | .actuator _ _ => []

/-- One point takes its sample of a delivery (R46, R48, R57). -/
def deliverPoint (data : ReplyData) (id : Nat) (acc : Part × HandOn) : Part × HandOn :=
  let (p, h) := acc
  match p.points.get? id with
  | none => acc
  | some pt =>
    match pt.body with
    | .pressure seg cfg st =>
      match data.counts[pt.input]? with
      | none => acc
      | some count =>
        let (q, st') := pressureSample cfg p.time pt.quality st count
        let pt' := { pt with quality := q, body := .pressure seg cfg st' }
        let p := if st.band = st'.band then putPoint id pt' p else enterBand id pt' st.band st' .sample p
        (p, h.note id seg st st')
    | .discrete d =>
      let raw := data.word.getLsbD pt.input
      let (d', edge) := discreteSample d raw
      let p := putPoint id { pt with quality := .good, body := .discrete d' } p
      match edge with
      | none => (p, h)
      | some again => (place (.discreteEdge id pt.district pt.group raw again) p, h)

/-- The points of an outstation, ascending. -/
def Part.pointsOf (p : Part) (os : Nat) : List Nat := p.points.idsWhere fun _ pt => pt.outstation = os

/-- The segments that the pressure points of an outstation name, ascending. -/
def Part.pressureSegmentsOf (p : Part) (os : Nat) : List Nat :=
  sortIds (p.points.entries.filterMap fun e =>
    if e.2.outstation = os then match e.2.body with
      | .pressure seg _ _ => seg
      | .discrete _ => none
    else none)

/-- The pressure state of a segment is derived again and written; true when it changed (R61). -/
def writePressure (segment : Nat) (p : Part) : Part × Bool :=
  match p.segments.get? segment with
  | none => (p, false)
  | some seg =>
    let b := derivePressure p.points segment
    if b = seg.pressure then (p, false)
    else ({ p with segments := p.segments.set segment { seg with pressure := b } }, true)

/-- The pressure states of some segments are written, and those that changed are listed (R61). -/
def writePressures (segments : List Nat) (p : Part) : Part × List Nat :=
  segments.foldl (fun (p, changed) seg =>
    let (p, c) := writePressure seg p
    (p, if c then changed ++ [seg] else changed)) (p, [])

/-- The liveness of a feed is derived again; a change raises supply-pending with cause FEED (R62). -/
def writeLiveness (feed : Nat) (p : Part) : Part :=
  match p.feeds.get? feed with
  | none => p
  | some fd =>
    let live := deriveLive p.points fd
    if live = fd.live then p
    else raise (.feed feed) { p with feeds := p.feeds.set feed { fd with live := live } }

/-- The feeds whose outlet is one of some points, ascending. -/
def Part.feedsOn (p : Part) (points : List Nat) : List Nat :=
  p.feeds.idsWhere fun _ fd => match fd.outlet with
    | some pt => points.contains pt
    | none => false

/-- What has changed is handed on: segment pressure states, feed liveness, pressure confirmations (R46). -/
def handOn (segments : List Nat) (h : HandOn) (p : Part) : Part :=
  let (p, changed) := writePressures segments p
  let p := markSegments changed p
  let p := (p.feedsOn h.entered).foldl (fun p fd => writeLiveness fd p) p
  h.confirming.foldl (fun p c => pressureConfirm c.2 c.1 p) p

/-- The points of an outstation take a good DATA reply (R46). -/
def deliverPoints (os : Nat) (data : ReplyData) (p : Part) : Part :=
  let (p, h) := (p.pointsOf os).foldl (fun acc id => deliverPoint data id acc) (p, {})
  handOn (p.pressureSegmentsOf os) h p

/-- A point on the loss of its outstation (R47, R48). -/
def Point.lost (pt : Point) : Point :=
  if pt.quality = .stale then pt
  else { pt with
    quality := .stale
    body := match pt.body with
      | .pressure seg cfg st => .pressure seg cfg (if pt.quality = .good then st.leaveGood else st)
      | .discrete d => .discrete { d with stable := 0 } }

/-- The points of a lost outstation become STALE and the pressure states follow; the segments whose pressure state
changed are listed, for their marks (R47). -/
def losePoints (os : Nat) (p : Part) : Part × List Nat :=
  let p := { p with points := p.points.map fun _ pt => if pt.outstation = os then pt.lost else pt }
  writePressures (p.pressureSegmentsOf os) p

/-- A candidate's expiry: the point enters the candidate's band, and what changed is handed on at once (R55, R56). -/
def rideThroughEnds (id : Nat) (p : Part) : Part :=
  match p.points.get? id with
  | none => p
  | some pt => match pt.body with
    | .discrete _ => p
    | .pressure seg cfg st => match st.candidate with
      | none => p
      | some c =>
        if c.expiry ≤ p.time then
          let st' := { st with candidate := none }.enter c.band
          let p := enterBand id { pt with body := .pressure seg cfg st' } st.band st' .rideThrough p
          handOn seg.toList (({} : HandOn).note id seg st st') p
        else p

end Sys2Proof.Machine
end

