-- ==== Sys2Proof/Machine/FieldOps.lean ====
section
/-!
DEFINITION. Field transactions and their outcomes (02, sections 2.3 and 2.6 to 2.8): the reply frame, communication
states, the loss of an outstation, and the bytes of a reply.
-/

namespace Sys2Proof.Machine

/-! ## Communication states (R37, R38, R39) -/

/-- An outstation's record changes, and a change of communication state places OUTSTATION_STATE (R37, R39). -/
def setComm (os : Nat) (f : Outstation → Outstation) (cause : CommCause) (p : Part) : Part :=
  match p.outstations.get? os with
  | none => p
  | some o =>
    let o' := f o
    let p := { p with outstations := p.outstations.set os o' }
    if o'.comm = o.comm then p else place (.outstationState os o.comm o'.comm o'.failures cause) p

/-- A good reply (R36, R37): busy count 0, the last good reply time, and ONLINE. -/
def Outstation.goodReply (now : Nat) (o : Outstation) : Outstation :=
  let o := { o with busy := 0, lastGood := some now }
  match o.comm with
  | .unknown | .suspect | .offline => { o with comm := .online, failures := 0 }
  | .online | .held => o

/-- A failure against a limit (R37). -/
def Outstation.failure (limit : Nat) (o : Outstation) : Outstation :=
  match o.comm with
  | .offline | .held => o
  | .unknown | .online | .suspect =>
    let n := o.failures + 1
    if limit ≤ n then { o with failures := n, comm := .offline }
    else { o with failures := n, comm := if o.comm = .online then .suspect else o.comm }

/-- What the loss of an outstation does before the plans are tested (R38): its commands leave its line's queue and are
reported ended with COMMS, its points go STALE, its valves' positions UNKNOWN, and its operations fail with COMMS. With
`mark`, the changed pressure states are marked in step 2; without, they are listed for the end of the event (R79). -/
def loseOutstation (os : Nat) (mark : Bool) (p : Part) : Part × List Touched × List Nat :=
  let n := lineOf os
  let removed := (p.line n).queue.filter fun c => c.outstation = os
  let p := p.onLine n fun l => { l with queue := l.queue.filter fun c => c.outstation != os }
  let (p, ts) := failFields (reportedValves removed) p
  let (p, changed) := losePoints os p
  let p := if mark then markSegments changed p else p
  let p := losePositions os p
  let (p, ts') := failFields (p.valvesOf os) p
  (p, ts ++ ts', changed)

/-- The outstation entered OFFLINE in this event: its loss, and the tests of its plans (R38, R117). -/
def outstationOffline (os : Nat) (p : Part) : Part :=
  let (p, ts, _) := loseOutstation os true p
  planCourse ts p

/-- Whether an outstation is OFFLINE. -/
def Part.isOffline (p : Part) (os : Nat) : Bool := ((p.outstations.get? os).map (·.comm)) = some .offline

/-- A failure counts against an outstation, with the loss when it goes OFFLINE by it (R37, R38). -/
def countFailure (os : Nat) (p : Part) : Part :=
  let was := p.isOffline os
  let p := setComm os (fun o => o.failure (p.line (lineOf os)).limit) .failure p
  if p.isOffline os && !was then outstationOffline os p else p

/-- A good reply counts for an outstation (R37). -/
def countGood (os : Nat) (p : Part) : Part := setComm os (Outstation.goodReply p.time) .reply p

/-- A BUSY answer (R36): the fourth in a row counts a failure. -/
def countBusy (os : Nat) (p : Part) : Part :=
  match p.outstations.get? os with
  | none => p
  | some o =>
    if o.busy + 1 < 4 then p.onOutstation os fun o => { o with busy := o.busy + 1 }
    else countFailure os (p.onOutstation os fun o => { o with busy := 0 })

/-- A NO_ANSWER (R35): busy count 0 and one failure. -/
def countNoAnswer (os : Nat) (p : Part) : Part := countFailure os (p.onOutstation os fun o => { o with busy := 0 })

/-! ## Outcomes of a transaction (R26, R33–R36) -/

/-- The outcomes of a transaction (02, section 2.6). -/
inductive Outcome where
  | data (d : ReplyData)
  | accept
  | reject
  | busy
  | noAnswer

/-- A good DATA reply (R33): the communication state first, then the deliveries to the points and, from an ACTUATOR,
the slot reports; then the plans are tested (R116) and the arbiter decides (R149). -/
def dataReply (os : Nat) (d : ReplyData) (p : Part) : Part :=
  let p := deliverPoints os d (countGood os p)
  match d with
  | .station _ _ => dispatchDecide p
  | .actuator slots _ =>
    let (p, ts) := takeSlots (p.slotReports os slots) p
    dispatchDecide (planCourse ts p)

/-- A command transaction's outcome on the head command (R32, R34, R35, R36). -/
def commandOutcome (n os : Nat) (c : Command) (o : Outcome) (p : Part) : Part :=
  match o with
  | .accept =>
    let p := popCommand n (countGood os p)
    if c.withdrawn then (if c.action = .stop then p else offerStop c.valve p)
    else if c.action = .stop then p
    else opAccepted c.valve p
  | .reject =>
    let p := popCommand n (countGood os p)
    if c.withdrawn || c.action = .stop then p
    else let (p, ts) := opRejected c.valve p; planCourse ts p
  | .busy => countBusy os (if c.withdrawn then popCommand n p else p)
  | .noAnswer | .data _ =>
    if c.withdrawn then countNoAnswer os (popCommand n p)
    else
      let p := p.onLine n fun l => { l with queue := { c with noAnswers := c.noAnswers + 1 } :: l.queue.tail }
      let p := countNoAnswer os p
      if c.noAnswers + 1 < 3 || p.isOffline os then p
      else
        let p := popCommand n p
        if c.action = .stop then p
        else let (p, ts) := failField c.valve p; planCourse ts p

/-- What the outcome of a transaction does: to the head command, or to the outstation polled (R33–R36). -/
def takeOutcome (n : Nat) (t : Txn) (o : Outcome) (p : Part) : Part :=
  if t.isCommand then
    match (p.line n).queue with
    | [] => p
    | c :: _ => commandOutcome n t.outstation c o p
  else match o with
    | .data d => dataReply t.outstation d p
    | .busy => countBusy t.outstation p
    | .noAnswer | .accept | .reject => countNoAnswer t.outstation p

/-- The transaction under way on a line, if any, is over, and the quiet time begins; a quiet time that runs, runs on
(R20). -/
def Line.quieted (now : Nat) (l : Line) : Line :=
  match l.txn? with
  | none => l
  | some t => { l with phase := .quiet now t.rate }

/-- A transaction of a line ends with an outcome; the quiet time begins, and the cycle proceeds when its polls are done
(R20, R28, R33–R36). -/
def endTransaction (n : Nat) (o : Outcome) (p : Part) : Part :=
  match (p.line n).txn? with
  | none => p
  | some t => pollsEnd n (takeOutcome n t o (p.onLine n (Line.quieted p.clock)))

/-! ## The reply frame (R25, R26) -/

/-- The data of a DATA reply of an outstation kind, if its length and counts are right (R26). -/
def replyData (kind : OsKind) (data : List Byte) : Option ReplyData :=
  match kind with
  | .station =>
    if data.length = 18 then
      let counts := (List.range 8).map fun i => u16 data (2 * i)
      if counts.all fun c => Decidable.decide (c ≤ 4095) then some (.station counts (BitVec.ofNat 16 (u16 data 16))) else none
    else none
  | .actuator =>
    if data.length = 6 then some (.actuator ((data.take 4).map slotStatus) (BitVec.ofNat 16 (u16 data 4))) else none

/-- The outcome of a complete reply: NO_ANSWER when it is not well-formed (R26). -/
def replyOutcome (t : Txn) (kind : OsKind) (bytes : List Byte) : Outcome :=
  let fn := u8 bytes 2
  let len := u8 bytes 3
  let data := (bytes.drop 4).take len
  let covered := (bytes.drop 1).take (3 + len)
  if checkBytes covered != bytes.drop (4 + len) then .noAnswer
  else if u8 bytes 1 != dropOf t.outstation then .noAnswer
  else if t.isCommand then
    if fn = 0x82 then (if len = 1 && u8 data 0 = (if t.bit then 1 else 0) then .accept else .noAnswer)
    else if fn = 0x8E then (if len = 0 then .busy else .noAnswer)
    else if fn = 0x8F then (if len = 0 then .reject else .noAnswer)
    else .noAnswer
  else
    if fn = 0x81 then (match replyData kind data with
      | some d => .data d
      | none => .noAnswer)
    else if fn = 0x8E then (if len = 0 then .busy else .noAnswer)
    else .noAnswer

/-- What a byte does to a reply being collected: it ends the transaction, or joins the reply (R26). -/
def replyByte (t : Txn) (kind : OsKind) (bytes : List Byte) (b : Byte) (stopLow : Bool) : Outcome ⊕ List Byte :=
  let bytes := bytes ++ [b]
  if stopLow then .inl .noAnswer
  else if 4 ≤ bytes.length && Decidable.decide (64 < u8 bytes 3) then .inl .noAnswer
  else if 4 ≤ bytes.length && bytes.length = 6 + u8 bytes 3 then .inl (replyOutcome t kind bytes)
  else .inr bytes

/-- The reply window of a transaction has run out (R26). -/
def windowOver (t : Txn) (opened clock : Nat) : Bool := Decidable.decide (opened + t.window * ticksPerMs ≤ clock)

/-- More than three character times have passed since the newest byte of a reply (R26). -/
def replyGapOver (t : Txn) (last clock : Nat) : Bool := Decidable.decide (last + 3 * charTicks t.rate < clock)

/-- The kind of an outstation. -/
def Part.osKind (p : Part) (os : Nat) : OsKind := ((p.outstations.get? os).map (·.kind)).getD .station

/-- What a byte on FRXn comes to, before it acts (R20, R26). -/
inductive ByteCase where
  /-- discarded -/
  | dropped
  /-- the reply starts with it -/
  | starts (t : Txn)
  /-- it joins the reply -/
  | joins (t : Txn) (bytes : List Byte)
  /-- the transaction ends -/
  | ends (o : Outcome)

/-- The case of a byte on FRXn (R20, R26). A byte that comes only after the window has run out, or after a gap, finds
the transaction ended with NO_ANSWER and is itself discarded. -/
def Part.fieldByteCase (p : Part) (n : Nat) (b : Byte) (stopLow : Bool) : ByteCase :=
  match (p.line n).phase with
  | .idle | .quiet _ _ | .sending _ => .dropped
  | .awaiting t opened =>
    if opened + t.window * ticksPerMs < p.clock then .ends .noAnswer
    else if b = fieldStart && !stopLow then .starts t
    else .dropped
  | .collecting t bytes last =>
    if replyGapOver t last p.clock then .ends .noAnswer
    else match replyByte t (p.osKind t.outstation) bytes b stopLow with
      | .inl o => .ends o
      | .inr bytes => .joins t bytes

/-- A byte arrives on FRXn (R20, R26). -/
def fieldByte (n : Nat) (b : Byte) (stopLow : Bool) (p : Part) : Part :=
  match p.fieldByteCase n b stopLow with
  | .dropped => p
  | .starts t => p.onLine n fun l => { l with phase := .collecting t [b] p.clock }
  | .joins t bytes => p.onLine n fun l => { l with phase := .collecting t bytes p.clock }
  | .ends o => endTransaction n o p

/-! ## Holding and freeing a line (R40, R41) -/

/-- The defined outstations of a line enter HELD, with their notices, in ascending drop order (R39, R40 step 4). -/
def enterHeld (n : Nat) (p : Part) : Part :=
  (p.outstationsOf n).foldl (fun p os => setComm os (fun o => { o with comm := .held }) .hold p) p

/-- The loss of one outstation of a held line, its marks listed for the end of the event (R38, R79). -/
def loseHeld (os : Nat) (acc : Part × List Touched × List Nat) : Part × List Touched × List Nat :=
  let (p, ts, changed) := acc
  let (p, ts', changed') := loseOutstation os false p
  (p, ts ++ ts', changed ++ changed')

/-- HOLD_LINE's event (R40). An abandoned transaction ends at the hold, so its quiet time runs from there (R20; DEDUCED,
notes/assumptions/29.md). Every OUTSTATION_STATE of step 4 comes before the notices of the losses (R39), and those of the
queue emptied in step 3 before it (DEDUCED, notes/assumptions/14.md). The marks of the event are set together in
ascending segment id (R79), and the plans are tested after every operation has ended (R116). -/
def holdLine (n : Nat) (p : Part) : Part :=
  let removed := (p.line n).queue
  let p := p.onLine n fun l => { l.quieted p.clock with holdFlag := true, cond := .held, queue := [], run := 0 }
  let (p, ts) := failFields (reportedValves removed) p
  let (p, ts, changed) := (p.outstationsOf n).foldl (fun acc os => loseHeld os acc) (enterHeld n p, ts, [])
  planCourse ts (markSegments changed p)

/-- FREE_LINE's event (R41). -/
def freeLine (n : Nat) (p : Part) : Part :=
  let p := p.onLine n fun l => { l with holdFlag := false }
  let p := (p.outstationsOf n).foldl (fun p os =>
    setComm os (fun o => { o with comm := .unknown, failures := 0, busy := 0 }) .free p) p
  startLine n p

end Sys2Proof.Machine
end

