-- ==== Sys2Proof/Machine/TraceOps.lean ====
section
/-!
DEFINITION. The trace engine's computations (05, 06 section 6.2): the view, the supply trace, the area search and the
impact of a plan.
-/

namespace Sys2Proof.Machine

/-! ## The view (R88) -/

/-- The view of the live records; a supply trace takes no inoperable flags (R88). -/
def Part.takeView (p : Part) (forPlan : Bool) : View where
  ends := p.valves.entries.map fun e => (e.1, e.2.lastEnd)
  inoperable := if forPlan then p.valves.idsWhere fun _ v => v.inoperable else []
  liveFeeds := p.feeds.idsWhere fun _ f => f.live

/-- The last end position of a valve in a view. -/
def View.endOf (w : View) (v : Nat) : Option End := findEntry v w.ends

/-- A valve stands OPEN in a view. -/
def View.isOpen (w : View) (v : Nat) : Bool := w.endOf v = some .opened

/-! ## The supply trace (R91, R92) -/

/-- The other end of a valve from a segment (R92). -/
def Valve.otherEnd (v : Valve) (segment : Nat) : Nat := if v.endA = segment then v.endB else v.endA

/-- The reached set, each segment with its reaching feed in the order reached, and the work list. -/
structure TraceState where
  reached : List (Nat × Nat)
  work : List Nat

/-- A segment is in the reached set. -/
def TraceState.has (t : TraceState) (segment : Nat) : Bool := t.reached.any fun e => e.1 = segment

/-- A segment is entered in the reached set and appended to the work list, unless it is reached already or is kept
out. -/
def TraceState.reach (t : TraceState) (barred : List Nat) (segment feed : Nat) : TraceState :=
  if t.has segment || barred.contains segment then t
  else ⟨t.reached ++ [(segment, feed)], t.work ++ [segment]⟩

/-- The feeds place their segments, in ascending feed id (R91). -/
def traceFeeds (p : Part) (w : View) (barred : List Nat) : TraceState :=
  w.liveFeeds.foldl (fun t f => match p.feeds.get? f with
    | none => t
    | some fd => t.reach barred fd.segment f) ⟨[], []⟩

/-- One valve of the segment taken is examined: an open one leads to its other end (R92). -/
def traceValve (p : Part) (w : View) (shut barred : List Nat) (segment feed : Nat) (t : TraceState) (v : Nat) :
    TraceState :=
  match p.valves.get? v with
  | none => t
  | some valve => if w.isOpen v && !shut.contains v then t.reach barred (valve.otherEnd segment) feed else t

/-- The valves of a segment in stored order. -/
def Part.valveList (p : Part) (segment : Nat) : List Nat := ((p.segments.get? segment).map (·.valves)).getD []

/-- Segments are taken from the front of the work list until it is empty; each enters it at most once, so as many turns
as there are segments are enough (R92). -/
def traceWork (p : Part) (w : View) (shut barred : List Nat) : Nat → TraceState → TraceState
  | 0, t => t
  | n + 1, t =>
    match t.work with
    | [] => t
    | seg :: rest =>
      let feed := (findEntry seg t.reached).getD 0
      traceWork p w shut barred n
        ((p.valveList seg).foldl (traceValve p w shut barred seg feed) { t with work := rest })

/-- The reached set of a trace over a view, with some valves taken as CLOSED and some segments kept out: none of either
for the supply trace (R91, R92), the close list and the area for the impact trace (R105). -/
def supplyTrace (p : Part) (w : View) (shut barred : List Nat) : List (Nat × Nat) :=
  (traceWork p w shut barred (p.segments.entries.length + 1) (traceFeeds p w barred)).reached

/-! ## The area search (R103, R104) -/

/-- The area search under way; `tooLarge` once a 33rd segment would have joined (R104). -/
structure Search where
  area : List Nat
  close : List Nat
  hold : List Nat
  work : List Nat
  tooLarge : Bool := false

/-- The most segments an area holds (R104). -/
def areaRoom : Nat := 32

/-- The most valves a list of a plan holds (R104). -/
def listRoom : Nat := 64

/-- A valve is appended to a list unless already on it (R103). -/
def appendOnce (v : Nat) (l : List Nat) : List Nat := if l.contains v then l else l ++ [v]

/-- One valve of the segment taken is classed by the view (R103). -/
def searchValve (p : Part) (w : View) (segment : Nat) (s : Search) (v : Nat) : Search :=
  if s.tooLarge then s
  else match p.valves.get? v with
    | none => s
    | some valve =>
      let other := valve.otherEnd segment
      if s.area.contains other then s
      else if !w.isOpen v then { s with hold := appendOnce v s.hold }
      else if !w.inoperable.contains v then { s with close := appendOnce v s.close }
      else if s.area.length < areaRoom then { s with area := s.area ++ [other], work := s.work ++ [other] }
      else { s with tooLarge := true }

/-- The area search; each segment of the area is taken once, so as many turns as an area has places are enough. -/
def searchWork (p : Part) (w : View) : Nat → Search → Search
  | 0, s => s
  | n + 1, s =>
    if s.tooLarge then s
    else match s.work with
      | [] => s
      | seg :: rest => searchWork p w n ((p.valveList seg).foldl (searchValve p w seg) { s with work := rest })

/-- Valves with both ends in the area leave their list (R103). -/
def Search.boundary (p : Part) (s : Search) (l : List Nat) : List Nat :=
  l.filter fun v => match p.valves.get? v with
    | none => true
    | some valve => !(s.area.contains valve.endA && s.area.contains valve.endB)

/-- A feed that is live in the view supplies a segment of an area (R104). -/
def liveFeedInside (p : Part) (w : View) (area : List Nat) : Bool :=
  w.liveFeeds.any fun f => match p.feeds.get? f with
    | none => false
    | some fd => area.contains fd.segment

/-- What a plan job comes to (R97). -/
structure PlanResult where
  area : List Nat
  close : List Nat
  hold : List Nat
  impact : Option Impact
  failure : Option PlanFailure

/-- The impact of shutting an area in: the defined segments that the impact trace does not reach (R105). -/
def impactOf (p : Part) (w : View) (area close : List Nat) : Impact :=
  let reached := supplyTrace p w close area
  let lost := p.segments.entries.filter fun e => !(reached.any fun r => r.1 = e.1)
  ⟨lost.length, (lost.map fun e => e.2.customers).sum, (lost.map fun e => e.2.priority).sum⟩

/-- The computation of a plan for a target over a view (R103, R104, R105). -/
def computePlan (p : Part) (w : View) (target : Nat) : PlanResult :=
  let s := searchWork p w (areaRoom + 1) ⟨[target], [], [], [target], false⟩
  if s.tooLarge then ⟨s.area, s.close, s.hold, none, some .tooLarge⟩
  else
    let close := s.boundary p s.close
    let hold := s.boundary p s.hold
    if liveFeedInside p w s.area then ⟨s.area, close, hold, none, some .feedInside⟩
    else if listRoom < close.length || listRoom < hold.length then ⟨s.area, close, hold, none, some .tooLarge⟩
    else ⟨s.area, close, hold, some (impactOf p w s.area close), none⟩

end Sys2Proof.Machine
end

