-- ==== Sys2Proof/Machine/OutageOps.lean ====
section
/-!
DEFINITION. The outage register's shared operations (09): the joining of segments, the restoration of a segment, the end
of an outage, and the suspicion of a loss.
-/

namespace Sys2Proof.Machine

/-- An outage record is written, and the lamps follow it (R175). -/
def putOutage (id : Nat) (o : Outage) (p : Part) : Part := refreshLamps { p with outages := p.outages.set id o }

/-- A segment's supply state is written, without its mark (R160). -/
def setSupply (id : Nat) (st : SupplyState) (p : Part) : Part := p.onSegment id fun s => { s with supply := st }

/-! ## Joining (R161, R162, R163) -/

/-- The record that a trace's cause opens (R162). -/
def openedOutage (c : Cause) (now : Nat) : Outage :=
  match c with
  | .load => { cause := .load, item := none, plan := none, opened := now }
  | .edit => { cause := .edit, item := none, plan := none, opened := now }
  | .feed f => { cause := .feed, item := some f, plan := none, opened := now }
  | .valve v q => { cause := .valve, item := some v, plan := q, opened := now }

/-- Of two entries by a time, the one that a test prefers; the earlier in the list among equals. -/
def pickBy (before : Nat → Nat → Bool) : List (Nat × Nat) → Option (Nat × Nat)
  | [] => none
  | e :: rest => match pickBy before rest with
    | none => some e
    | some r => if before r.2 e.2 then some r else some e

/-- The record that a group's joiners take: its id, the record at the start, and whether it is JOINED (R162). -/
def Part.outageFor (p : Part) (c : Cause) : Option (Nat × Outage × Bool) :=
  match p.outages.firstFree 64 with
  | some id => some (id, openedOutage c p.time, false)
  | none =>
    let ended := p.outages.entries.filterMap fun e => e.2.ended.map fun t => (e.1, t)
    match pickBy (fun r e => Decidable.decide (r < e)) ended with
    | some (id, _) => some (id, openedOutage c p.time, false)
    | none =>
      let active := p.outages.entries.map fun e => (e.1, e.2.opened)
      match pickBy (fun r e => Decidable.decide (e ≤ r)) active with
      | none => none
      | some (id, _) => (p.outages.get? id).map fun o =>
          (id, { o with cause := .mixed, item := none, plan := none }, true)

/-- A segment joins a record (R161, R164): its outage field, its suspicion withdrawn, the listing and the counters. -/
def joinSegment (rec_ : Nat) (seg : Nat) (acc : Part × Outage) : Part × Outage :=
  let (p, o) := acc
  match p.segments.get? seg with
  | none => acc
  | some s =>
    let first := !p.memberIn rec_ s.district
    let p := p.onDistrict s.district fun d =>
      { d with
        suspects := if s.suspect then d.suspects - 1 else d.suspects
        activeOutages := if first then d.activeOutages + 1 else d.activeOutages }
    let p := { p with segments := p.segments.set seg { s with outage := some rec_, suspect := false, noGas := [] } }
    let o := { o with
      members := o.members + 1
      customersOff := o.customersOff + s.customers
      priorityOff := o.priorityOff + s.priority }
    let o := if o.listing.contains seg then o
      else if o.listing.length < 64 then { o with listing := o.listing ++ [seg] }
      else { o with overflow := bump o.overflow }
    (p, o)

/-- The joiners of a group join one record, and OUTAGE_OPENED is placed (R161, R162, R163). -/
def joinOutage (joiners : List Nat) (c : Cause) (p : Part) : Part :=
  match joiners with
  | [] => p
  | _ =>
    match p.outageFor c with
    | none => p
    | some (id, o, joined) =>
      let (p, o) := joiners.foldl (fun acc seg => joinSegment id seg acc) (p, o)
      place (.outageOpened id joined o.cause o.item o.plan joiners.length o.customersOff o.priorityOff) (putOutage id o p)

/-- A member that is lost again: its outage's customers relit falls by the relit count it held (R161, R164). -/
def loseMember (outage relit : Nat) (p : Part) : Part :=
  match p.outages.get? outage with
  | none => p
  | some o => putOutage outage { o with customersRelit := o.customersRelit - relit } p

/-! ## Restoration (R168, R169) -/

/-- The outage whose last member was restored ends (R169). -/
def endOutage (id : Nat) (p : Part) : Part :=
  match p.outages.get? id with
  | none => p
  | some o =>
    place (.outageEnded id o.cause o.opened o.listing.length o.overflow o.noGas)
      (putOutage id { o with ended := some p.time } p)

/-- A segment is restored (R168): SUPPLIED and out of its outage, the counters and the district count fall, its demand
or job ends, SEGMENT_RESTORED is placed, and the outage ends with its last member. -/
def restoreSegment (seg : Nat) (p : Part) : Part :=
  match p.segments.get? seg with
  | none => p
  | some s =>
    let p := p.onSegment seg fun s => { s with supply := .supplied, relit := 0, outage := none }
    let p := markSegment seg p
    match s.outage.bind fun id => (p.outages.get? id).map fun o => (id, o) with
    | none => endJob ⟨.relight, seg⟩ p
    | some (id, o) =>
      let o := { o with
        members := o.members - 1
        customersOff := o.customersOff - s.customers
        priorityOff := o.priorityOff - s.priority
        customersRelit := o.customersRelit - s.relit }
      let p := if p.memberIn id s.district then p
        else p.onDistrict s.district fun d => { d with activeOutages := d.activeOutages - 1 }
      let p := endJob ⟨.relight, seg⟩ (putOutage id o p)
      let p := place (.segmentRestored seg id s.customers o.customersOff o.members) p
      if o.members = 0 then endOutage id p else p

/-! ## Suspected losses (R171, R172) -/

/-- A call time joins a segment's no-gas call times, the oldest leaving if three are held (R171). -/
def pushNoGas (times : List Nat) (t : Nat) : List Nat := if times.length < 3 then times ++ [t] else times.drop 1 ++ [t]

/-- The suspect test (R171): three times, the oldest no earlier than the newest minus 1,800 s. -/
def suspectTest (times : List Nat) : Bool :=
  times.length = 3 && Decidable.decide (times.getLastD 0 ≤ times.headD 0 + suspectWindow)

/-- SUSPECT is set or cleared, with its mark, the district's count and the lamps (R78, R79, R171, R172, R175). -/
def setSuspect (seg : Nat) (b : Bool) (p : Part) : Part :=
  let p := p.onSegment seg fun s => { s with suspect := b }
  let p := markSegment seg p
  refreshLamps (p.onDistrict (p.districtOf seg) fun d =>
    { d with suspects := if b then d.suspects + 1 else d.suspects - 1 })

/-- The outage register takes a NO_GAS call for a segment (R171). -/
def noGasCall (seg : Nat) (p : Part) : Part :=
  match p.segments.get? seg with
  | none => p
  | some s =>
    match s.outage with
    | some id =>
      match p.outages.get? id with
      | none => p
      | some o => putOutage id { o with noGas := bump o.noGas } p
    | none =>
      let times := pushNoGas s.noGas p.time
      let p := p.onSegment seg fun s => { s with noGas := times }
      if !s.suspect && suspectTest times then
        place (.segmentSuspect seg s.district (times.headD 0) (times.getLastD 0)) (setSuspect seg true p)
      else p

/-! ## The completion of a supply trace (R93–R96, R160, R161) -/

/-- The supply state of a segment after a trace that reached it or not (R94). -/
def supplyAfter (reached : Bool) (st : SupplyState) : SupplyState :=
  if reached then (if st = .off then .recharged else st) else .off

/-- One segment record at the completion: its reaching feed and supply state, and relit count 0 when it goes OFF (R93,
R94). -/
def Segment.traced (s : Segment) (feed : Option Nat) : Segment :=
  let st := supplyAfter feed.isSome s.supply
  { s with reaching := feed, supply := st, relit := if st = .off && s.supply != .off then 0 else s.relit }

/-- A supply trace completes (R93): reaching feeds and supply states by segment, the marks of what changed, the group of
newly OFF segments to their outages, the engine IDLE, and then the arbiter's part: ended offers, freed crews and
decisions. The notices of the ended offers come after the outage register's (DESIGN CHOICE, notes/assumptions/35.md). -/
def completeTrace (c : Cause) (w : View) (p : Part) : Part :=
  let reached := supplyTrace p w [] []
  let before := p.segments
  let p := { p with segments := p.segments.map fun id s => s.traced (findEntry id reached) }
  let changed := before.idsWhere fun id s =>
    s.reaching != findEntry id reached || s.supply != supplyAfter (findEntry id reached).isSome s.supply
  let p := markSegments changed p
  let lost := before.entries.filter fun e => (findEntry e.1 reached).isNone && e.2.supply != .off
  let p := lost.foldl (fun p e => match e.2.outage with
    | some id => loseMember id e.2.relit p
    | none => p) p
  let p := joinOutage ((lost.filter fun e => e.2.outage.isNone).map (·.1)) c p
  let p := { p with trace := { p.trace with engine := .idle, view := none, changeSet := [] } }
  let ended := lost.filter fun e => e.2.supply = .purged || e.2.supply = .relighting
  dispatchDecide (ended.foldl (fun p e => endJob ⟨.relight, e.1⟩ p) p)

end Sys2Proof.Machine
end

