-- ==== Sys2Proof/Machine/Records.lean ====
section
/-!
DEFINITION. The records of READ_TABLE, each as its chapter lays it out (R24, R63, R81, R124, R143, R158, R173), and the
change records of READ_CHANGES (R80).
-/

namespace Sys2Proof.Machine

/-- R24: the 12 bytes of a defined outstation. -/
def outstationRecord (id : Nat) (o : Outstation) : List Byte :=
  [byte (lineOf id), byte (dropOf id), byte o.kind.code, byte o.comm.code, byte o.failures, byte o.busy, flag o.seqBit] ++
    optTime o.lastGood

/-- The PRESSURE part of DEFINE_POINT, 23 bytes (R43, R63). -/
def settingsRecord (c : PressureSettings) : List Byte :=
  be16 c.z ++ be16 c.f ++ be16 c.p0 ++ be16 c.p1 ++ [byte c.k] ++ be16 c.fallLimit ++ be16 c.l2 ++ be16 c.l1 ++
    be16 c.h1 ++ be16 c.h2 ++ be16 c.hyst ++ be16 c.rideThrough

/-- R63: the candidate, whose band and time read 0 when absent. -/
def candidateRecord : Option Candidate → List Byte
  | none => [0, 0, 0, 0, 0, 0]
  | some c => [1, byte c.band.code] ++ timeBytes c.start

/-- R63: the fields of a defined point. -/
def pointRecord (pt : Point) : List Byte :=
  let common (kind : Byte) (seg : Option Nat) : List Byte :=
    [kind, byte pt.outstation, byte pt.input, byte pt.district] ++ opt16 seg ++ [byte pt.group, byte pt.quality.code]
  match pt.body with
  | .discrete d =>
    common 1 none ++ [byte d.mode.code, byte d.debounce, byte (levelCode d.level), byte d.stable, flag d.pending]
  | .pressure seg cfg st =>
    common 0 seg ++ settingsRecord cfg ++ opt16 st.value ++ be32 st.filter ++ opt16 st.filtered ++
      [byte st.history.length] ++ padded16 8 st.history ++ [flag st.falling, byte st.band.code] ++
      candidateRecord st.candidate ++ [flag st.lowSeen]

/-- R81: the 51 bytes of a defined segment. -/
def segmentRecord (s : Segment) : List Byte :=
  [byte s.district, byte s.tier.code] ++ be16 s.customers ++ be16 s.priority ++
    [byte s.valves.length] ++ padded16 8 s.valves ++ [byte s.feeds.length] ++ padded8 4 s.feeds ++
    [byte (pressureCode s.pressure), byte s.supply.code] ++ opt8 s.reaching ++ opt8 s.outage ++ be16 s.relit ++
    [flag s.suspect, byte s.noGas.length] ++ (s.noGas.take 3).flatMap timeBytes ++
    List.replicate (4 * (3 - s.noGas.length)) 0 ++ [flag s.changed]

/-- R124: the 14 bytes of a valve's operation field. -/
def operationRecord : Option Operation → List Byte
  | none => 0 :: absentBytes 13
  | some o =>
    let reason := match o.state with
      | .failed r => r.code
      | .pending | .acting | .done => 0
    [1, byte o.action.code, byte o.origin.code, byte o.mode.code, byte o.state.code, byte reason] ++
      timeBytes o.ordered ++ timeBytes o.stateTime

/-- R81: the 32 fixed bytes of a defined valve with its operation field. -/
def valveRecord (v : Valve) : List Byte :=
  be16 v.endA ++ be16 v.endB ++
    [flag v.actuated, byte v.outstation, byte v.slot, byte v.normal.code, byte v.position.code, byte v.lastEnd.code,
      flag v.inoperable] ++ be16 v.travelLimit ++ [byte v.holders.length] ++ padded8 4 v.holders ++
    operationRecord v.operation

/-- R81: the 6 bytes of a defined feed. -/
def feedRecord (f : Feed) : List Byte := be16 f.segment ++ opt8 f.outlet ++ [flag (!f.inService), flag f.live]

/-- R81: the 5 bytes of a defined district. -/
def districtRecord (d : District) : List Byte :=
  [byte d.lamp, byte d.openIncidents, byte d.activeOutages] ++ be16 d.suspects

/-- R124: the impact field. -/
def impactRecord : Option Impact → List Byte
  | none => 0 :: absentBytes 10
  | some i => 1 :: be16 i.segments ++ be32 i.customers ++ be32 i.priority

/-- R124: the 481 bytes of a plan that is not FREE. -/
def planRecord (q : Plan) : List Byte :=
  [byte q.state.code] ++ be16 q.target ++ opt8 q.incident ++ opt8 (q.failure.map PlanFailure.code) ++
    timeBytes q.requested ++ timeBytes q.stateTime ++
    [byte q.area.length] ++ padded16 32 q.area ++ [byte q.closeList.length] ++ padded16 64 q.closeList ++
    [byte q.holdList.length] ++ padded16 64 q.holdList ++ [byte q.releaseList.length] ++ padded16 64 q.releaseList ++
    impactRecord q.impact ++ opt16 q.blocking

/-- R143: the 15 bytes of an occupied call slot. -/
def callRecord (c : Call) : List Byte :=
  [byte c.incident, byte c.kind.code, byte c.grade.code] ++ opt16 c.segment ++ [byte c.district] ++ be32 c.reference ++
    timeBytes c.time

/-- R143: the 50 bytes of an incident in use. -/
def incidentRecord (i : Incident) : List Byte :=
  [byte i.kind.code, byte i.grade.code] ++ opt16 i.segment ++ [byte i.district, byte i.state.code] ++
    timeBytes i.openedTime ++ timeBytes i.deadline ++ [byte i.level] ++ optTime i.nextEscalation ++
    timeBytes i.stateTime ++ [byte i.calls.length] ++ padded8 16 i.calls ++ be16 i.unlisted ++ be16 i.total ++
    opt8 i.planLink ++ opt8 i.crew

/-- R158: a job field, 4 bytes. -/
def jobRecord : Option Job → List Byte
  | none => 0 :: absentBytes 3
  | some j => [1, byte j.cls.code] ++ be16 j.item

/-- R158: the 16 bytes of a defined crew. -/
def crewRecord (c : Crew) : List Byte :=
  [byte c.kind.code, byte c.home, byte c.state.code] ++ jobRecord c.job ++ jobRecord c.declined ++ optTime c.expiry

/-- R173: the 163 bytes of an outage that is not FREE. -/
def outageRecord (o : Outage) : List Byte :=
  [flag o.ended.isSome, byte o.cause.code] ++ opt16 o.item ++ opt8 o.plan ++ timeBytes o.opened ++ optTime o.ended ++
    be16 o.members ++ [byte o.listing.length] ++ padded16 64 o.listing ++ be16 o.overflow ++ be32 o.customersOff ++
    be32 o.priorityOff ++ be32 o.customersRelit ++ be16 o.noGas

/-- The entries of a table by its code (R16); none above 10. -/
def tableRoom : Nat → Option Nat
  | 0 => some 64 | 1 => some 256 | 2 => some 512 | 3 => some 768 | 4 => some 64 | 5 => some 32
  | 6 => some 16 | 7 => some 256 | 8 => some 128 | 9 => some 48 | 10 => some 64
  | _ => none

/-- The fields of an entry of the table of a code, absent where the entry reads FREE (R16). -/
def Part.fieldsOf (p : Part) (code i : Nat) : Option (List Byte) :=
  match code with
  | 0 => (p.outstations.get? i).map (outstationRecord i)
  | 1 => (p.points.get? i).map pointRecord
  | 2 => (p.segments.get? i).map segmentRecord
  | 3 => (p.valves.get? i).map valveRecord
  | 4 => (p.feeds.get? i).map feedRecord
  | 5 => (p.districts.get? i).map districtRecord
  | 6 => (p.plans.get? i).map planRecord
  | 7 => (p.register.calls.get? i).map callRecord
  | 8 => (p.register.incidents.get? i).map incidentRecord
  | 9 => (p.dispatch.crews.get? i).map crewRecord
  | _ => (p.outages.get? i).map outageRecord

/-- A record as READ_TABLE carries it: the presence byte FREE 0, or USED 1 and the fields (R16). -/
def Part.recordOf (p : Part) (code i : Nat) : List Byte :=
  match p.fieldsOf code i with
  | none => [0]
  | some fields => 1 :: fields

/-- The records from the first that fit in some room (R16). -/
def fitting : Nat → List (List Byte) → List (List Byte)
  | _, [] => []
  | room, r :: rest => if r.length ≤ room then r :: fitting (room - r.length) rest else []

/-- R80: the 11 bytes of a change record. -/
def changeRecord (id : Nat) (s : Segment) : List Byte :=
  be16 id ++ [byte s.supply.code, byte (pressureCode s.pressure)] ++ opt8 s.reaching ++ opt8 s.outage ++ be16 s.relit ++
    [flag s.suspect]

end Sys2Proof.Machine
end

