-- ==== Sys2Proof/Machine/General.lean ====
section
/-!
DEFINITION. The general requests of the control link (01, section 1.6; R13, R14, R19) and READ_CHANGES (R80).
-/

namespace Sys2Proof.Machine

/-- The outstation counts of STATUS: for each line, the defined outstations in each communication state (R15). -/
def Part.commCounts (p : Part) : List Byte :=
  [0, 1, 2, 3].flatMap fun n =>
    [CommState.unknown, .online, .suspect, .offline, .held].map fun c =>
      byte (p.outstations.count fun id o => lineOf id = n && o.comm = c)

/-- The plans in EXECUTING, BLOCKED, ISOLATED or RELEASING (R15). -/
def Plan.inExecution (q : Plan) : Bool :=
  q.state = .executing || q.state = .blocked || q.state = .isolated || q.state = .releasing

/-- The fields of the STATUS reply after the status byte, 42 bytes (R15). -/
def Part.statusFields (p : Part) : List Byte :=
  [byte p.link.partState.code, flag p.panel.supervision.unattended] ++ be32 p.time ++ be16 p.link.errorCount ++
    be16 p.link.lostCount ++ [byte p.link.notices.length] ++ p.commCounts ++
    [flag (p.trace.engine != .idle), flag p.trace.pendingCause.isSome,
      byte (p.register.incidents.count fun _ i => i.state != .closed),
      byte (p.outages.count fun _ o => o.ended.isNone),
      byte (p.plans.count fun _ q => q.inExecution), p.link.enables] ++ be32 p.link.rate ++
    [byte p.link.resetCause.code]

/-- STATUS (R15). -/
def statusRule : Handler where
  lengthOk := exactly 0
  admitted := anyState
  act _ p := okWith p.statusFields p

/-- READ_TABLE (R16). -/
def readTableRule : Handler where
  lengthOk := exactly 4
  admitted := anyState
  act b p :=
    let code := u8 b 0
    let first := u16 b 1
    let count := u8 b 3
    match tableRoom code with
    | none => refuse .refusedRange p
    | some room =>
      if count = 0 || 16 < count || room < first + count then refuse .refusedRange p
      else
        let records := fitting (maxBody - 5) ((List.range count).map fun i => p.recordOf code (first + i))
        okWith ([byte code] ++ be16 first ++ [byte records.length] ++ records.flatten) p

/-- SET_NOTICES (R13). -/
def setNoticesRule : Handler where
  lengthOk := exactly 1
  admitted := anyState
  act b p := okWith [p.link.enables] { p with link := { p.link with enables := b.getD 0 0 } }

/-- RESTART makes the OK reply; the part resets when it has been sent (R19). -/
def restartRule : Handler where
  lengthOk := exactly 0
  admitted := anyState
  act _ p := okWith [] p

/-- BEGIN_LOAD (R14). -/
def beginLoadRule : Handler where
  lengthOk := exactly 0
  admitted := fun s => s = .unloaded
  act _ p := okWith [] { p with link := { p.link with partState := .loading } }

/-- READ_CHANGES (R80). -/
def readChangesRule : Handler where
  lengthOk := exactly 0
  admitted := inRunning
  act _ p :=
    let taken := (p.segments.entries.filter fun e => e.2.changed).take 32
    let ids := taken.map (·.1)
    let p := { p with segments := p.segments.map fun id s => if ids.contains id then { s with changed := false } else s }
    okWith ([byte taken.length, flag (p.segments.any fun _ s => s.changed)] ++ taken.flatMap fun e => changeRecord e.1 e.2) p

end Sys2Proof.Machine
end

