-- ==== Sys2Proof/Machine/Loading.lean ====
section
/-!
DEFINITION. The requests that describe the model (R21, R23, R43, R65–R68, R145) and END_LOAD (R44, R69, R70).
-/

namespace Sys2Proof.Machine

/-- The rates that a field line may run at (R21). -/
def lineRates : List Nat := [1200, 2400, 4800, 9600, 19200, 38400]

/-- SET_LINE (R21). -/
def setLineRule : Handler where
  lengthOk := exactly 9
  admitted := loadedOrLoading
  act b p :=
    let rate := u32 b 1
    let window := u16 b 5
    let period := u8 b 7
    let limit := u8 b 8
    if 3 < u8 b 0 || !lineRates.contains rate || window < 20 || 500 < window || period < 1 || 60 < period ||
        limit < 2 || 8 < limit then refuse .refusedRange p
    else okWith [] (p.onLine (u8 b 0) fun l => { l with rate := rate, window := window, period := period, limit := limit })

/-- DEFINE_OUTSTATION (R23). -/
def defineOutstationRule : Handler where
  lengthOk := exactly 3
  admitted := inLoading
  act b p :=
    let line := u8 b 0
    let drop := u8 b 1
    if 3 < line || drop < 1 || 16 < drop || 1 < u8 b 2 then refuse .refusedRange p
    else okWith [] { p with
      outstations := p.outstations.set (line * 16 + drop - 1)
        { kind := if u8 b 2 = 0 then .station else .actuator } }

/-! ## DEFINE_POINT (R43) -/

/-- The body lengths of DEFINE_POINT: 32 for a PRESSURE kind byte, 11 for a DISCRETE one, either for another (R43). -/
def pointLengthOk (b : List Byte) : Bool :=
  if u8 b 1 = 0 then b.length = 32 else if u8 b 1 = 1 then b.length = 11 else b.length = 32 || b.length = 11

/-- The settings of the PRESSURE part at an offset (R43). -/
def settingsAt (b : List Byte) (o : Nat) : PressureSettings where
  z := u16 b o
  f := u16 b (o + 2)
  p0 := u16 b (o + 4)
  p1 := u16 b (o + 6)
  k := u8 b (o + 8)
  fallLimit := u16 b (o + 9)
  l2 := u16 b (o + 11)
  l1 := u16 b (o + 13)
  h1 := u16 b (o + 15)
  h2 := u16 b (o + 17)
  hyst := u16 b (o + 19)
  rideThrough := u16 b (o + 21)

/-- The ranges of the PRESSURE settings (03, section 3.1); pressures take every 2-byte value. -/
def PressureSettings.inRange (c : PressureSettings) : Bool :=
  decide (c.z ≤ 4094) && decide (1 ≤ c.f) && decide (c.f ≤ 4095) && decide (1 ≤ c.k) && decide (c.k ≤ 16) &&
    decide (c.fallLimit ≤ 10000) && decide (c.rideThrough ≤ 600)

/-- The ranges of the common part of a definition (R43). -/
def pointCommonOk (b : List Byte) : Bool :=
  decide (u8 b 2 ≤ 63) && decide (u8 b 3 ≤ (if u8 b 1 = 0 then 7 else 15)) && decide (u8 b 4 ≤ 31) &&
    decide (u8 b 5 ≤ 1) && (u8 b 5 = 0 || decide (u16 b 6 ≤ 511)) && decide (u8 b 8 ≤ 7)

/-- DEFINE_POINT (R43, R45). -/
def definePointRule : Handler where
  lengthOk := pointLengthOk
  admitted := inLoading
  act b p :=
    let fill (body : PointBody) : Answer :=
      okWith [] { p with
        points := p.points.set (u8 b 0)
          { outstation := u8 b 2, input := u8 b 3, district := u8 b 4, group := u8 b 8, body := body } }
    if 1 < u8 b 1 || !pointCommonOk b then refuse .refusedRange p
    else if u8 b 1 = 0 then
      let cfg := settingsAt b 9
      if cfg.inRange then fill (.pressure (optAt (u8 b 5) (u16 b 6)) cfg {}) else refuse .refusedRange p
    else if u8 b 5 = 1 || 3 < u8 b 9 || u8 b 10 < 1 || 8 < u8 b 10 then refuse .refusedRange p
    else fill (.discrete { mode := edgeModeOf (u8 b 9), debounce := u8 b 10 })

/-! ## The model's own tables (R65–R68) and crews (R145) -/

/-- DEFINE_DISTRICT (R65). -/
def defineDistrictRule : Handler where
  lengthOk := exactly 2
  admitted := inLoading
  act b p :=
    if 31 < u8 b 0 || 31 < u8 b 1 then refuse .refusedRange p
    else okWith [] { p with districts := p.districts.set (u8 b 0) { lamp := u8 b 1 } }

/-- Whether a list names nothing twice (R66). -/
def noRepeats : List Nat → Bool
  | [] => true
  | a :: rest => !rest.contains a && noRepeats rest

/-- The valves that a DEFINE_SEGMENT body lists (R66). -/
def segmentValves (b : List Byte) : List Nat := (List.range (u8 b 8)).map fun i => u16 b (9 + 2 * i)

/-- DEFINE_SEGMENT (R66). -/
def defineSegmentRule : Handler where
  lengthOk := fun b => decide (9 ≤ b.length) && b.length = 9 + 2 * u8 b 8
  admitted := inLoading
  act b p :=
    let valves := segmentValves b
    if 511 < u16 b 0 || 31 < u8 b 2 || 2 < u8 b 3 || u8 b 8 = 0 || 8 < u8 b 8 || valves.any (fun v => decide (767 < v)) ||
        !noRepeats valves || u16 b 4 < u16 b 6 then refuse .refusedRange p
    else okWith [] { p with
      segments := p.segments.set (u16 b 0)
        { district := u8 b 2, tier := tierOf (u8 b 3), customers := u16 b 4, priority := u16 b 6, valves := valves } }

/-- DEFINE_VALVE (R67). -/
def defineValveRule : Handler where
  lengthOk := exactly 12
  admitted := inLoading
  act b p :=
    let normal := endOf (u8 b 9)
    if 767 < u16 b 0 || 511 < u16 b 2 || 511 < u16 b 4 || u16 b 2 = u16 b 4 || 1 < u8 b 6 || 1 < u8 b 9 ||
        63 < u8 b 7 || 3 < u8 b 8 || u16 b 10 < 10 || 900 < u16 b 10 then refuse .refusedRange p
    else okWith [] { p with
      valves := p.valves.set (u16 b 0)
        { endA := u16 b 2, endB := u16 b 4, actuated := u8 b 6 = 1, outstation := u8 b 7, slot := u8 b 8
          normal := normal, position := normal.position, lastEnd := normal, travelLimit := u16 b 10 } }

/-- DEFINE_FEED (R68). -/
def defineFeedRule : Handler where
  lengthOk := exactly 6
  admitted := inLoading
  act b p :=
    if 63 < u8 b 0 || 511 < u16 b 1 || 1 < u8 b 3 || 1 < u8 b 5 then refuse .refusedRange p
    else okWith [] { p with
      feeds := p.feeds.set (u8 b 0)
        { segment := u16 b 1, outlet := optAt (u8 b 3) (u8 b 4), inService := u8 b 5 = 0 } }

/-- DEFINE_CREW (R145). -/
def defineCrewRule : Handler where
  lengthOk := exactly 4
  admitted := inLoading
  act b p :=
    if 47 < u8 b 0 || 1 < u8 b 1 || 31 < u8 b 2 || 1 < u8 b 3 then refuse .refusedRange p
    else okWith [] { p with
      dispatch := { p.dispatch with
        crews := p.dispatch.crews.set (u8 b 0)
          { kind := if u8 b 1 = 0 then .emergency else .fitter, home := u8 b 2
            state := if u8 b 3 = 0 then .offShift else .available } } }

/-! ## END_LOAD: the validation (R44, R69) -/

/-- The reasons of a refused END_LOAD (R69). -/
inductive LoadFault where
  | undefinedRef | wrongKind | tooMany | notOrdered | listMismatch | slotShared | lampShared
  deriving DecidableEq, Repr

/-- R69. -/
def LoadFault.code : LoadFault → Nat
  | .undefinedRef => 1 | .wrongKind => 2 | .tooMany => 3 | .notOrdered => 4 | .listMismatch => 5 | .slotShared => 6
  | .lampShared => 7

/-- The first test of some that fails: each is its condition for failing and its reason. -/
def firstFault : List (Bool × LoadFault) → Option LoadFault
  | [] => none
  | (fails, why) :: rest => if fails then some why else firstFault rest

/-- A point names a segment as a PRESSURE point. -/
def Point.names (pt : Point) (segment : Nat) : Bool :=
  match pt.body with
  | .pressure seg _ _ => seg = some segment
  | .discrete _ => false

/-- The tests of a point (R44, R69). -/
def Part.pointFault (p : Part) (id : Nat) (pt : Point) : Option LoadFault :=
  let base := !p.outstations.has pt.outstation || !p.districts.has pt.district
  match pt.body with
  | .discrete _ => firstFault [(base, .undefinedRef)]
  | .pressure seg cfg _ =>
    firstFault
      [(base || seg.any (fun s => !p.segments.has s), .undefinedRef),
        (p.osKind pt.outstation != .station, .wrongKind),
        (seg.any fun s => decide (4 ≤ p.points.count fun i q => decide (i < id) && q.names s), .tooMany),
        (!ordered cfg, .notOrdered)]

/-- The tests of a segment (R69). -/
def Part.segmentFault (p : Part) (id : Nat) (s : Segment) : Option LoadFault :=
  firstFault
    [(!p.districts.has s.district || s.valves.any (fun v => !p.valves.has v), .undefinedRef),
      (s.valves.any fun v => match p.valves.get? v with
        | none => true
        | some valve => valve.endA != id && valve.endB != id, .listMismatch)]

/-- The tests of a valve (R69). -/
def Part.valveFault (p : Part) (id : Nat) (v : Valve) : Option LoadFault :=
  firstFault
    [(!p.segments.has v.endA || !p.segments.has v.endB || (v.actuated && !p.outstations.has v.outstation), .undefinedRef),
      (v.actuated && p.osKind v.outstation != .actuator, .wrongKind),
      (!(p.valveList v.endA).contains id || !(p.valveList v.endB).contains id, .listMismatch),
      (v.actuated && p.valves.any fun i w =>
        decide (i < id) && w.actuated && w.outstation = v.outstation && w.slot = v.slot, .slotShared)]

/-- The tests of a feed (R69). -/
def Part.feedFault (p : Part) (id : Nat) (f : Feed) : Option LoadFault :=
  firstFault
    [(!p.segments.has f.segment || f.outlet.any (fun pt => !p.points.has pt), .undefinedRef),
      (f.outlet.any fun pt => ((p.points.get? pt).bind Point.band?).isNone, .wrongKind),
      (decide (3 < p.feeds.count fun i g => decide (i < id) && g.segment = f.segment), .tooMany)]

/-- The test of a district (R69). -/
def Part.districtFault (p : Part) (id : Nat) (d : District) : Option LoadFault :=
  firstFault [(p.districts.any fun i e => decide (i < id) && e.lamp = d.lamp, .lampShared)]

/-- The test of a crew (R69, R145). -/
def Part.crewFault (p : Part) (_id : Nat) (c : Crew) : Option LoadFault :=
  firstFault [(!p.districts.has c.home, .undefinedRef)]

/-- The first failing item of a table: its index and the reason. -/
def firstFailing {α : Type} (test : Nat → α → Option LoadFault) : List (Nat × α) → Option (Nat × LoadFault)
  | [] => none
  | (id, a) :: rest => match test id a with
    | some why => some (id, why)
    | none => firstFailing test rest

/-- The first failing item of the whole description, with its table code (R69). -/
def Part.loadFault (p : Part) : Option (Nat × Nat × LoadFault) :=
  let tag (code : Nat) (r : Option (Nat × LoadFault)) : Option (Nat × Nat × LoadFault) := r.map fun e => (code, e)
  (tag 1 (firstFailing p.pointFault p.points.entries)).orElse fun _ =>
  (tag 2 (firstFailing p.segmentFault p.segments.entries)).orElse fun _ =>
  (tag 3 (firstFailing p.valveFault p.valves.entries)).orElse fun _ =>
  (tag 4 (firstFailing p.feedFault p.feeds.entries)).orElse fun _ =>
  (tag 5 (firstFailing p.districtFault p.districts.entries)).orElse fun _ =>
  tag 9 (firstFailing p.crewFault p.dispatch.crews.entries)

/-! ## END_LOAD: entering RUNNING (R70) -/

/-- A segment as the running model starts with it (R70, steps 1 to 3). -/
def Segment.started (s : Segment) (feeds : List Nat) : Segment :=
  { s with feeds := feeds, pressure := none, supply := .supplied, reaching := none, outage := none, relit := 0
           suspect := false }

/-- The running model is set up (R70): feed lists, liveness, normal positions, RUNNING, class levels at their reloads
(R148), the raise of cause LOAD, and the first cycles of the lines (R22). -/
def enterRunning (p : Part) : Part :=
  let p := { p with
    segments := p.segments.map fun id s => s.started (p.feeds.idsWhere fun _ f => f.segment = id)
    feeds := p.feeds.map fun _ f => { f with live := deriveLive p.points f }
    valves := p.valves.map fun _ v => { v with position := v.normal.position, lastEnd := v.normal }
    link := { p.link with partState := .running }
    dispatch := { p.dispatch with levels := p.dispatch.reloads } }
  let p := raise .load p
  let p := [0, 1, 2, 3].foldl (fun p n => startLine n p) p
  dispatchDecide (refreshLamps p)

/-- END_LOAD (R69, R70). -/
def endLoadRule : Handler where
  lengthOk := exactly 0
  admitted := inLoading
  act _ p :=
    match p.loadFault with
    | some (code, id, why) => refuseWith .refusedRange ([byte code] ++ be16 id ++ [byte why.code]) p
    | none => okWith [] (enterRunning p)

end Sys2Proof.Machine
end

