-- ==== Sys2Proof/Machine/Settings.lean ====
section
/-!
DEFINITION. The requests over settings, lines, points and the model while it runs (R40, R41, R59, R60, R73–R77, R135,
R148).
-/

namespace Sys2Proof.Machine

/-! ## Settings (R135, R148) -/

/-- Whether a number lies in a closed range. -/
def within (lo hi n : Nat) : Bool := decide (lo ≤ n) && decide (n ≤ hi)

/-- SET_RESPONSE's event in RUNNING: every incident not CLOSED has its deadline brought forward, in ascending id
(R135). -/
def bringAllForward (p : Part) : Part :=
  if p.isRunning then dispatchDecide (p.register.incidents.ids.foldl (fun p id => bringForward id p) p) else p

/-- SET_RESPONSE (R135). -/
def setResponseRule : Handler where
  lengthOk := exactly 7
  admitted := loadedOrLoading
  act b p :=
    let times := [u16 b 0, u16 b 2, u16 b 4]
    if !times.all (within 10 1440) || !within 5 60 (u8 b 6) then refuse .refusedRange p
    else okWith [] (bringAllForward { p with
      register := { p.register with
        responseA := u16 b 0, responseB := u16 b 2, responseC := u16 b 4, interval := u8 b 6 } })

/-- SET_DISPATCH (R148). -/
def setDispatchRule : Handler where
  lengthOk := exactly 5
  admitted := loadedOrLoading
  act b p :=
    let reloads : PerClass := ⟨u8 b 0, u8 b 1, u8 b 2⟩
    if 15 < u8 b 0 || 15 < u8 b 1 || 15 < u8 b 2 || !within 30 600 (u16 b 3) then refuse .refusedRange p
    else okWith [] (dispatchDecide { p with
      dispatch := { p.dispatch with reloads := reloads, levels := reloads, offerTime := u16 b 3 } })

/-! ## Lines (R40, R41) -/

/-- HOLD_LINE (R40). -/
def holdLineRule : Handler where
  lengthOk := exactly 1
  admitted := inRunning
  act b p :=
    if 3 < u8 b 0 then refuse .refusedRange p
    else if (p.line (u8 b 0)).cond = .held then refuse .refusedState p
    else okWith [] (dispatchDecide (holdLine (u8 b 0) p))

/-- FREE_LINE (R41). -/
def freeLineRule : Handler where
  lengthOk := exactly 1
  admitted := inRunning
  act b p :=
    if 3 < u8 b 0 then refuse .refusedRange p
    else if (p.line (u8 b 0)).cond != .held then refuse .refusedState p
    else okWith [] (freeLine (u8 b 0) p)

/-! ## Points (R59, R60) -/

/-- A point has a flag that ACK_POINT clears. -/
def Point.flagged (pt : Point) : Bool :=
  match pt.body with
  | .pressure _ _ st => st.lowSeen
  | .discrete d => d.pending

/-- A point with its LOW_SEEN or pending flag cleared (R59). -/
def Point.acked (pt : Point) : Point :=
  { pt with
    body := match pt.body with
      | .pressure seg cfg st => .pressure seg cfg { st with lowSeen := false }
      | .discrete d => .discrete { d with pending := false } }

/-- One named point is acknowledged; the count rises when something was cleared (R59). -/
def ackOne (acc : Part × Nat) (id : Nat) : Part × Nat :=
  let (p, n) := acc
  match p.points.get? id with
  | none => acc
  | some pt => if pt.flagged then (putPoint id pt.acked p, n + 1) else acc

/-- The points that an ACK_POINT body names, in order. -/
def ackNames (b : List Byte) : List Nat := (List.range (u8 b 0)).map fun i => u8 b (1 + i)

/-- ACK_POINT (R59). -/
def ackPointRule : Handler where
  lengthOk := fun b => decide (1 ≤ b.length) && b.length = 1 + u8 b 0
  admitted := inRunning
  act b p :=
    if !within 1 16 (u8 b 0) then refuse .refusedRange p
    else match (ackNames b).find? fun id => !p.points.has id with
      | some id => refuseWith .notFound [byte id] p
      | none =>
        let (p, n) := (ackNames b).foldl ackOne (p, 0)
        okWith [byte n] (refreshLamps p)

/-- Settings with the six that SET_BANDS replaces (R60). -/
def PressureSettings.withBands (c : PressureSettings) (b : List Byte) : PressureSettings :=
  { c with l2 := u16 b 1, l1 := u16 b 3, h1 := u16 b 5, h2 := u16 b 7, hyst := u16 b 9, rideThrough := u16 b 11 }

/-- SET_BANDS (R60). -/
def setBandsRule : Handler where
  lengthOk := exactly 13
  admitted := inRunning
  act b p :=
    match p.points.get? (u8 b 0) with
    | none => refuse .notFound p
    | some pt => match pt.body with
      | .discrete _ => refuse .refusedRange p
      | .pressure seg cfg st =>
        let cfg' := cfg.withBands b
        if 600 < cfg'.rideThrough || !ordered cfg' then refuse .refusedRange p
        else okWith [] (putPoint (u8 b 0) { pt with body := .pressure seg cfg' { st with candidate := none } } p)

/-! ## The model while it runs (R73–R77) -/

/-- EDIT_SEGMENT (R75). -/
def editSegmentRule : Handler where
  lengthOk := exactly 6
  admitted := inRunning
  act b p :=
    if 511 < u16 b 0 then refuse .refusedRange p
    else match p.segments.get? (u16 b 0) with
      | none => refuse .notFound p
      | some s =>
        if u16 b 2 < u16 b 4 then refuse .refusedRange p
        else if s.supply != .supplied then refuse .refusedState p
        else okWith [] (p.onSegment (u16 b 0) fun s => { s with customers := u16 b 2, priority := u16 b 4 })

/-- EDIT_VALVE (R76). -/
def editValveRule : Handler where
  lengthOk := exactly 3
  admitted := inRunning
  act b p :=
    if 767 < u16 b 0 || 1 < u8 b 2 then refuse .refusedRange p
    else if !p.valves.has (u16 b 0) then refuse .notFound p
    else okWith [] (changeInoperable (u16 b 0) (u8 b 2 = 1) .edit p)

/-- EDIT_FEED (R77). -/
def editFeedRule : Handler where
  lengthOk := exactly 2
  admitted := inRunning
  act b p :=
    if 63 < u8 b 0 || 1 < u8 b 1 then refuse .refusedRange p
    else match p.feeds.get? (u8 b 0) with
      | none => refuse .notFound p
      | some f =>
        okWith [] (writeLiveness (u8 b 0) { p with feeds := p.feeds.set (u8 b 0) { f with inService := u8 b 1 = 0 } })

/-- A report of an end, admitted: the position is written, the planner takes it, and the plans are tested (R73, R115,
R117). -/
def endReported (v : Nat) (e : End) (p : Part) : Part :=
  let (p, vs) := writePosition v e.position (some e) p
  dispatchDecide (planCourse [⟨v, false⟩] (opEndReport v e (snoop vs none p)))

/-- A report of CANNOT_OPERATE: the flag is set, the planner takes it, and the plans are tested (R73, R74, R115,
R117). -/
def seizureReported (v : Nat) (p : Part) : Part :=
  let (p, t) := opSeizedReport v (changeInoperable v true (.valve v (p.originPlan v)) p)
  dispatchDecide (planCourse [t] p)

/-- VALVE_REPORT (R73). -/
def valveReportRule : Handler where
  lengthOk := exactly 3
  admitted := inRunning
  act b p :=
    let v := u16 b 0
    if 767 < v || 2 < u8 b 2 then refuse .refusedRange p
    else match p.valves.get? v with
      | none => refuse .notFound p
      | some valve =>
        if u8 b 2 = 2 then okWith [] (seizureReported v p)
        else if valve.actuated && p.answers valve.outstation then refuse .refusedState p
        else okWith [] (endReported v (endOf (u8 b 2)) p)

end Sys2Proof.Machine
end

