-- ==== Sys2Proof/Machine/Plans.lean ====
section
/-!
DEFINITION. The requests over plans and operations (06): PLAN, EXECUTE, REISSUE, ABORT, RELEASE, DROP_PLAN and OPERATE.
-/

namespace Sys2Proof.Machine

/-! ## PLAN (R101) -/

/-- The states of a plan that stand in the way of another for the same target (R101). -/
def PlanState.standsInTheWay : PlanState → Bool
  | .requested | .computing | .ready | .executing | .blocked | .isolated | .releasing => true
  | .free | .stale | .failed => false

/-- What R101 tests of the incident that a PLAN names. -/
def Part.planIncidentRefusal (p : Part) : Option Nat → Option Status
  | none => none
  | some i => match p.incident? i with
    | none => some .notFound
    | some inc => if inc.state = .closed then some .refusedState else none

/-- A new plan enters the table in REQUESTED, and its job the queue (R87, R101). -/
def requestPlan (id target : Nat) (incident : Option Nat) (p : Part) : Part :=
  let plan : Plan :=
    { state := .requested, target := target, incident := incident, requested := p.time, stateTime := p.time }
  let p := { p with
    plans := p.plans.set id plan
    trace := { p.trace with planQueue := p.trace.planQueue ++ [id] } }
  let p := match incident.bind fun i => (p.incident? i).map fun inc => (i, inc) with
    | none => p
    | some (i, inc) => putIncident i { inc with planLink := some id } p
  place (.planState id .free .requested target incident none none) p

/-- PLAN (R101). -/
def planRule : Handler where
  lengthOk := exactly 4
  admitted := inRunning
  act b p :=
    let target := u16 b 0
    let incident := optAt (u8 b 2) (u8 b 3)
    if 511 < target || 1 < u8 b 2 || (u8 b 2 = 1 && decide (127 < u8 b 3)) then refuse .refusedRange p
    else if !p.segments.has target then refuse .notFound p
    else match p.planIncidentRefusal incident with
      | some status => refuse status p
      | none => match p.plans.firstFree 16 with
        | none => refuse .full p
        | some id => match (p.plans.idsWhere fun _ q => q.target = target && q.state.standsInTheWay).head? with
          | some other => refuseWith .refusedBusy [byte other] p
          | none => ⟨.accepted, [byte id], requestPlan id target incident p⟩

/-! ## Plans by number -/

/-- A request over one plan: a plan above 15 is refused with REFUSED_RANGE, a FREE plan with NOT_FOUND (R107, R108,
R118–R120). -/
def onPlanNumbered (b : List Byte) (p : Part) (act : Nat → Plan → Answer) : Answer :=
  if 15 < u8 b 0 then refuse .refusedRange p
  else match p.plans.get? (u8 b 0) with
    | none => refuse .notFound p
    | some q => act (u8 b 0) q

/-- DROP_PLAN (R107). -/
def dropPlanRule : Handler where
  lengthOk := exactly 1
  admitted := inRunning
  act b p := onPlanNumbered b p fun id q =>
    if q.state = .ready || q.state = .stale || q.state = .failed then okWith [] (freePlan id p)
    else refuse .refusedState p

/-! ## EXECUTE (R108, R109) -/

/-- The lowest live feed that supplies a segment of an area (R108, test 3). -/
def Part.liveFeedIn (p : Part) (area : List Nat) : Option Nat :=
  (p.feeds.idsWhere fun _ f => f.live && area.contains f.segment).head?

/-- Whether a valve's operation is PENDING or ACTING. -/
def Part.opLive (p : Part) (v : Nat) : Bool := (p.op? v).any fun o => o.live

/-- The first valve whose operation stands in the way of an EXECUTE (R108, test 4). -/
def Part.busyValve (p : Part) (q : Plan) : Option Nat :=
  (q.closeList.find? fun v => p.opLive v).orElse fun _ =>
    q.holdList.find? fun v => (p.op? v).any fun o => o.live && o.action = .toOpen

/-- The valves that a plan holds or is to hold: its close list, then its hold list (R109). -/
def Plan.held (q : Plan) : List Nat := q.closeList ++ q.holdList

/-- The first valve that already has 4 holders (R108, test 5). -/
def Part.fullValve (p : Part) (q : Plan) : Option Nat :=
  q.held.find? fun v => (p.valves.get? v).any fun valve => decide (4 ≤ valve.holders.length)

/-- A plan becomes a holder of a valve, at the tail of its holder list (R109, step 1). -/
def addHolder (id v : Nat) (p : Part) : Part := p.onValve v fun valve => { valve with holders := valve.holders ++ [id] }

/-- A plan's hold on a valve is dropped (R119, step 2). -/
def dropHolder (id v : Nat) (p : Part) : Part :=
  p.onValve v fun valve => { valve with holders := valve.holders.filter (· != id) }

/-- A plan becomes a holder of its valves, in list order: the changes are handed to the snoop, and then the valves leave
the release lists of other plans (R109, R107, R121; the order of the last two is a DESIGN CHOICE,
notes/assumptions/31.md). -/
def addHolders (id : Nat) (q : Plan) (p : Part) : Part :=
  let p := snoop q.held (some id) (q.held.foldl (fun p v => addHolder id v p) p)
  q.held.foldl (fun p v => leaveReleases v (some id) p) p

/-- All the holds of a plan are dropped, in list order, and the changes are handed to the snoop (R119, step 2). -/
def dropHolders (id : Nat) (q : Plan) (p : Part) : Part :=
  snoop q.held (some id) (q.held.foldl (fun p v => dropHolder id v p) p)

/-- The operation of a valve went to FAILED with COMMS in its ordering event (R111). -/
def Part.orderFailed (p : Part) (v : Nat) : Bool := (p.op? v).any fun o => o.state = .failed .comms

/-- The tests of R117 after a plan ordered CLOSE operations: those that failed at once, in order, and the isolation, the
operations that it ends cancelled first (R116). EXECUTE's notice of EXECUTING comes before them all, as R109 orders its
steps (DEDUCED, notes/assumptions/32.md). -/
def afterCloses (id : Nat) (vs : List Nat) (p : Part) : Part :=
  isolationTest id ((vs.filter p.orderFailed).foldl (fun p v => failureTest id ⟨v, true⟩ p) (cancelPending id p))

/-- EXECUTE's event (R109). -/
def executePlan (id : Nat) (q : Plan) (p : Part) : Part :=
  let p := addHolders id q p
  let p := q.closeList.foldl (fun p v => orderOp v .toClose (.plan id) p) p
  dispatchDecide (afterCloses id q.closeList (setPlanState id .executing none p))

/-- EXECUTE (R108, R109). -/
def executeRule : Handler where
  lengthOk := exactly 1
  admitted := inRunning
  act b p := onPlanNumbered b p fun id q =>
    if q.state != .ready then refuse .refusedState p
    else match p.liveFeedIn q.area with
      | some f => refuseWith .refusedState [byte f] p
      | none => match p.busyValve q with
        | some v => refuseWith .refusedBusy (be16 v) p
        | none => match p.fullValve q with
          | some v => refuseWith .full (be16 v) p
          | none => ⟨.accepted, [], executePlan id q p⟩

/-! ## REISSUE (R118) -/

/-- A close-list valve of a BLOCKED plan qualifies for reissue (R118). -/
def Part.closeQualifies (p : Part) (v : Nat) : Bool :=
  match p.valves.get? v with
  | none => false
  | some valve => valve.lastEnd = .opened && !p.opLive v && !valve.inoperable

/-- A release-list valve of a RELEASING plan qualifies for reissue (R118). -/
def Part.openQualifies (p : Part) (v : Nat) : Bool :=
  match p.valves.get? v, p.op? v with
  | some valve, some o => (match o.state with
    | .failed _ => true
    | .pending | .acting | .done => false) && !valve.inoperable
  | _, _ => false

/-- The valves that a REISSUE orders, and the action (R118). -/
def Part.reissued (p : Part) (q : Plan) : Action × List Nat :=
  if q.state = .blocked then (.toClose, q.closeList.filter p.closeQualifies)
  else (.toOpen, q.releaseList.filter p.openQualifies)

/-- REISSUE's event (R118). -/
def reissuePlan (id : Nat) (q : Plan) (p : Part) : Part :=
  let (a, vs) := p.reissued q
  let p := vs.foldl (fun p v => orderOp v a (.plan id) p) p
  if q.state = .blocked then
    dispatchDecide (afterCloses id vs (setPlanState id .executing none (p.onPlan id fun q => { q with blocking := none })))
  else dispatchDecide p

/-- REISSUE (R118). -/
def reissueRule : Handler where
  lengthOk := exactly 1
  admitted := inRunning
  act b p := onPlanNumbered b p fun id q =>
    if q.state != .blocked && q.state != .releasing then refuse .refusedState p
    else if (p.reissued q).2.isEmpty then refuse .refusedState p
    else ⟨.accepted, [], reissuePlan id q p⟩

/-! ## ABORT and RELEASE (R119, R120) -/

/-- A plan's operations on its close-list valves that pass a test are cancelled, in close-list order (R119, step 1; R120,
step 1). -/
def cancelOps (id : Nat) (q : Plan) (f : Nat → Operation → Bool) (p : Part) : Part :=
  (p.opsOf id q.closeList f).foldl (fun p v => cancelOp v p) p

/-- ABORT's event: the operations still PENDING or ACTING are cancelled (R119). -/
def abortPlan (id : Nat) (q : Plan) (p : Part) : Part :=
  dispatchDecide (freePlan id (dropHolders id q (cancelOps id q (fun _ o => o.live) p)))

/-- ABORT (R119). -/
def abortRule : Handler where
  lengthOk := exactly 1
  admitted := inRunning
  act b p := onPlanNumbered b p fun id q =>
    if q.state = .executing || q.state = .blocked || q.state = .isolated then okWith [] (abortPlan id q p)
    else refuse .refusedState p

/-- The valves that a RELEASE reopens (R120, test 4). -/
def Part.reopened (p : Part) (id : Nat) (q : Plan) : List Nat :=
  q.closeList.filter fun v => (p.valves.get? v).any fun valve =>
    valve.holders = [id] && valve.normal = .opened && !valve.inoperable

/-- A plan's incident, if it names one, is REPAIRED (R120, test 3). -/
def Part.incidentRepaired (p : Part) (q : Plan) : Bool :=
  match q.incident with
  | none => true
  | some i => (p.incident? i).any fun inc => inc.state = .repaired

/-- An operation that step 1 of RELEASE cancels: an ACTING one, and, on a valve to be reopened, one that a crew's CLEAR
has returned to PENDING, since its OPEN operation may not replace it (R120; 06, section 6.4; DEDUCED,
notes/assumptions/11.md). -/
def Operation.endsAtRelease (o : Operation) (reopened : Bool) : Bool := o.state = .acting || (reopened && o.live)

/-- RELEASE's event (R120). -/
def releasePlan (id : Nat) (q : Plan) (p : Part) : Part :=
  let vs := p.reopened id q
  let p := dropHolders id q (cancelOps id q (fun v o => o.endsAtRelease (vs.contains v)) p)
  let p := vs.foldl (fun p v => orderOp v .toOpen (.plan id) p) (p.onPlan id fun q => { q with releaseList := vs })
  let p := setPlanState id .releasing none p
  dispatchDecide (if vs.isEmpty then freePlan id p else p)

/-- RELEASE (R120). -/
def releaseRule : Handler where
  lengthOk := exactly 1
  admitted := inRunning
  act b p := onPlanNumbered b p fun id q =>
    if q.state != .isolated || !p.incidentRepaired q then refuse .refusedState p
    else match (p.reopened id q).find? fun v => (p.op? v).any fun o => o.live && o.origin = .host with
      | some v => refuseWith .refusedBusy (be16 v) p
      | none => ⟨.accepted, [], releasePlan id q p⟩

/-! ## OPERATE (R122) -/

/-- OPERATE's event: an operation of HOST origin is ordered, and the valve leaves any release list (R121, R122). -/
def operateValve (v : Nat) (a : Action) (p : Part) : Part := dispatchDecide (leaveReleases v none (orderOp v a .host p))

/-- OPERATE (R122). -/
def operateRule : Handler where
  lengthOk := exactly 3
  admitted := inRunning
  act b p :=
    let v := u16 b 0
    if 767 < v || 1 < u8 b 2 then refuse .refusedRange p
    else match p.valves.get? v with
      | none => refuse .notFound p
      | some valve =>
        if u8 b 2 = 0 && !valve.holders.isEmpty then refuseWith .locked [byte valve.holders.length] p
        else if valve.inoperable then refuse .refusedState p
        else if p.opLive v then refuse .refusedBusy p
        else okWith [] (operateValve v (actionOf (u8 b 2)) p)

end Sys2Proof.Machine
end

