-- ==== Sys2Proof/Machine/Incidents.lean ====
section
/-!
DEFINITION. The requests over calls and incidents (07): CALL and INCIDENT_UPDATE.
-/

namespace Sys2Proof.Machine

/-! ## Calls (R126–R131) -/

/-- A SMELL or DAMAGE call as it is taken (R126). -/
structure TakenCall where
  kind : CallKind
  grade : Grade
  segment : Option Nat
  district : Nat
  reference : Nat

/-- The kind of incident that a call opens (R129). -/
def CallKind.incidentKind : CallKind → IncidentKind
  | .smell => .leak | .damage => .damage

/-- The incident that a call merges into: the candidate of lowest id (R128). -/
def Part.candidateFor (p : Part) (c : TakenCall) : Option Nat :=
  (p.register.incidents.idsWhere fun _ i =>
    i.state != .closed && i.segment = c.segment && (c.segment.isSome || i.district = c.district)).head?

/-- The entry that an opening takes: the lowest FREE one, else the CLOSED one of earliest state time (R129). -/
def Part.entryToOpen (p : Part) : Option Nat :=
  match p.register.incidents.firstFree 128 with
  | some id => some id
  | none =>
    let closed := p.register.incidents.entries.filterMap fun e =>
      if e.2.state = .closed then some (e.1, e.2.stateTime) else none
    (pickBy (fun r e => decide (r < e)) closed).map (·.1)

/-- The slot that a call takes for an incident whose call list has some length, absent for an unlisted call (R130). -/
def Part.slotFor (p : Part) (listed : Nat) : Option Nat :=
  if 16 ≤ listed then none else p.register.calls.firstFree 256

/-- A call takes its slot (R130). -/
def fillSlot (slot : Option Nat) (id : Nat) (c : TakenCall) (p : Part) : Part :=
  match slot with
  | none => p
  | some n =>
    let call : Call :=
      { incident := id, kind := c.kind, grade := c.grade, segment := c.segment, district := c.district
        reference := c.reference, time := p.time }
    { p with register := { p.register with calls := p.register.calls.set n call } }

/-- An incident with a call joined to its list, or counted as unlisted (R130). -/
def Incident.withSlot (i : Incident) : Option Nat → Incident
  | some n => { i with calls := i.calls ++ [n] }
  | none => { i with unlisted := bump i.unlisted }

/-- The reply of a SMELL or DAMAGE call (R130, R131). -/
def callReply (outcome id : Nat) (slot : Option Nat) (p : Part) : Answer :=
  let grade := ((p.incident? id).map fun i => i.grade.code).getD 0
  ⟨if slot.isSome then .ok else .okUnlisted, [byte outcome, byte id] ++ opt8 slot ++ [byte grade], p⟩

/-- A grade is more urgent than another: A, then B, then C (07, section 7.1). -/
def Grade.moreUrgent (g h : Grade) : Bool := decide (g.code < h.code)

/-- A call merges into an incident (R128). -/
def mergeCall (id : Nat) (i : Incident) (c : TakenCall) (p : Part) : Answer :=
  let slot := p.slotFor i.calls.length
  let p := fillSlot slot id c p
  let i' := { i.withSlot slot with
    total := bump i.total
    kind := if c.kind = .damage then .damage else i.kind }
  let p := putIncident id i' p
  let p := place (.incidentMerged id c.kind c.grade c.reference slot i'.kind i'.total i'.unlisted) p
  let p := if c.grade.moreUrgent i.grade then raiseGrade id c.grade .call none p else p
  callReply 1 id slot (dispatchDecide p)

/-- The incident that a call opens, before its call is listed (R129, R136, R138). -/
def openedIncident (c : TakenCall) (p : Part) : Incident :=
  let deadline := p.time + p.response c.grade
  { kind := c.kind.incidentKind, grade := c.grade, segment := c.segment, district := c.district, state := .opened
    openedTime := p.time, stateTime := p.time, deadline := deadline, nextEscalation := some deadline }

/-- The question to the point supervisor at an opening: a confirming point of the segment raises a LEAK incident at
once (R129, R137). -/
def confirmAtOpening (id : Nat) (p : Part) : Part :=
  match p.incident? id with
  | none => p
  | some i => match i.segment.bind p.confirmingPoint with
    | some pt => if i.confirmable then raiseGrade id .a .pressure (some pt) p else p
    | none => p

/-- A call opens an incident (R129). -/
def openIncident (id : Nat) (c : TakenCall) (p : Part) : Answer :=
  let slot := p.slotFor 0
  let i := (openedIncident c p).withSlot slot
  let p := putIncident id i (fillSlot slot id c p)
  let p := p.onDistrict c.district fun d => { d with openIncidents := d.openIncidents + 1 }
  let p := place
    (.incidentOpened id i.kind i.grade i.segment i.district i.deadline c.reference slot) p
  callReply 0 id slot (dispatchDecide (confirmAtOpening id p))

/-- A SMELL or DAMAGE call (R128, R129). -/
def takeCall (c : TakenCall) (p : Part) : Answer :=
  match (p.candidateFor c).bind fun id => (p.incident? id).map fun i => (id, i) with
  | some (id, i) => mergeCall id i c p
  | none => match p.entryToOpen with
    | none => refuse .full p
    | some id => openIncident id c p

/-- A NO_GAS call and its reply (R127). -/
def takeNoGas (segment : Nat) (p : Part) : Answer :=
  let p := noGasCall segment p
  let s := p.segments.get? segment
  okWith (opt8 (s.bind (·.outage)) ++ [flag (s.any (·.suspect))]) p

/-- CALL (R126). -/
def callRule : Handler where
  lengthOk := exactly 10
  admitted := inRunning
  act b p :=
    let kind := u8 b 0
    let segment := optAt (u8 b 2) (u16 b 3)
    let district := u8 b 5
    if 2 < kind || 2 < u8 b 1 || 1 < u8 b 2 || (u8 b 2 = 1 && decide (511 < u16 b 3)) || 31 < district then
      refuse .refusedRange p
    else if !p.districts.has district || segment.any (fun s => !p.segments.has s) then refuse .notFound p
    else if segment.any (fun s => p.districtOf s != district) then refuse .refusedRange p
    else if kind = 2 then
      match segment with
      | none => refuse .refusedRange p
      | some s => takeNoGas s p
    else takeCall
      { kind := if kind = 0 then .smell else .damage
        grade := if kind = 0 then gradeOf (u8 b 1) else .a
        segment := segment, district := district, reference := u32 b 6 } p

/-! ## INCIDENT_UPDATE (R141, R142) -/

/-- MADE_SAFE is admitted (R141). -/
def IncidentState.admitsSafe : IncidentState → Bool
  | .opened | .assigned | .onSite => true
  | .madeSafe | .repaired | .closed => false

/-- REPAIRED is admitted (R141). -/
def IncidentState.admitsRepaired : IncidentState → Bool
  | .onSite | .madeSafe => true
  | .opened | .assigned | .repaired | .closed => false

/-- The lowest plan that keeps an incident from being closed (R142). -/
def Part.planHolding (p : Part) (incident : Nat) : Option Nat :=
  (p.plans.idsWhere fun _ q =>
    q.incident = some incident && (q.state = .executing || q.state = .blocked || q.state = .isolated)).head?

/-- CLOSE's event (R142). -/
def closeIncident (id : Nat) (i : Incident) (p : Part) : Part :=
  let p := { p with
    register := { p.register with calls := i.calls.foldl (fun t slot => t.erase slot) p.register.calls } }
  let closed := { i with state := .closed, stateTime := p.time, nextEscalation := none, calls := [] }
  let p := place (.incidentState id i.state .closed .host i.crew) (putIncident id closed p)
  let p := endJob ⟨.leak, id⟩ p
  let p := { p with
    plans := p.plans.map fun _ q => if q.incident = some id then { q with incident := none } else q }
  let p := putIncident id { closed with crew := none, planLink := none } p
  p.onDistrict i.district fun d => { d with openIncidents := d.openIncidents - 1 }

/-- INCIDENT_UPDATE (R141, R142). -/
def incidentUpdateRule : Handler where
  lengthOk := exactly 2
  admitted := inRunning
  act b p :=
    let id := u8 b 0
    let action := u8 b 1
    if 127 < id || 2 < action then refuse .refusedRange p
    else match p.incident? id with
      | none => refuse .notFound p
      | some i =>
        if i.state = .closed then refuse .refusedState p
        else if action = 0 then
          if i.state.admitsSafe then okWith [] (dispatchDecide (makeSafe id .host p)) else refuse .refusedState p
        else if action = 1 then
          if i.state.admitsRepaired then okWith [] (dispatchDecide (setIncidentState id .repaired .host p))
          else refuse .refusedState p
        else if i.state = .repaired then okWith [] (dispatchDecide (closeIncident id i p))
        else match p.planHolding id with
          | some q => refuseWith .refusedBusy [byte q] p
          | none => okWith [] (dispatchDecide (closeIncident id i p))

end Sys2Proof.Machine
end

