-- ==== Sys2Proof/Machine/CrewRequests.lean ====
section
/-!
DEFINITION. The requests over crews (08): CREW_STATE, ANSWER_OFFER, ASSIGN and CREW_REPORT.
-/

namespace Sys2Proof.Machine

/-- CREW_STATE (R146). -/
def crewStateRule : Handler where
  lengthOk := exactly 2
  admitted := inRunning
  act b p :=
    let wanted : CrewState := if u8 b 1 = 0 then .offShift else .available
    if 47 < u8 b 0 || 1 < u8 b 1 then refuse .refusedRange p
    else match p.dispatch.crews.get? (u8 b 0) with
      | none => refuse .notFound p
      | some c =>
        if c.state != .offShift && c.state != .available then refuse .refusedBusy p
        else if c.state = wanted then okWith [] p
        else okWith [] (dispatchDecide (p.onCrew (u8 b 0) fun c => { c with state := wanted, declined := none }))

/-! ## Acceptance (R133, R151, R153) -/

/-- A crew's acceptance, or an ASSIGN, is handed to the block that owns the job. -/
def acceptJob (crew : Nat) (j : Job) (cause : IncidentCause) (p : Part) : Part :=
  match j.cls with
  | .leak => match p.incident? j.item with
    | none => p
    | some i => setIncidentState j.item .assigned cause (putIncident j.item { i with crew := some crew } p)
  | .valve =>
    if (p.op? j.item).any fun o => o.mode = .crew && o.state = .pending then setOpState j.item .acting none p else p
  | .relight => markSegment j.item (setSupply j.item .relighting p)

/-- A crew goes to ASSIGNED with a job (R151, R153). -/
def Crew.assignedTo (c : Crew) (j : Job) : Crew :=
  { c with state := .assigned, job := some j, declined := none, expiry := none }

/-- ACCEPT's event (R151). -/
def acceptOffer (crew : Nat) (j : Job) (p : Part) : Part :=
  dispatchDecide (acceptJob crew j .crew (p.onCrew crew fun c => c.assignedTo j))

/-- An offer ends with its crew AVAILABLE, the item its declined job, and OFFER_WITHDRAWN (R151, R152). -/
def withdrawOffer (crew : Nat) (j : Job) (cause : WithdrawCause) (p : Part) : Part :=
  dispatchDecide (place (.offerWithdrawn crew j.cls j.item cause)
    (p.onCrew crew fun c => { c with state := .available, job := none, declined := some j, expiry := none }))

/-- ANSWER_OFFER (R151). -/
def answerOfferRule : Handler where
  lengthOk := exactly 5
  admitted := inRunning
  act b p :=
    let crew := u8 b 0
    if 47 < crew || 1 < u8 b 1 || 2 < u8 b 2 then refuse .refusedRange p
    else match p.dispatch.crews.get? crew with
      | none => refuse .notFound p
      | some c =>
        let j : Job := ⟨classOf (u8 b 2), u16 b 3⟩
        if c.state != .offered || c.job != some j then refuse .tooLate p
        else if u8 b 1 = 0 then okWith [] (acceptOffer crew j p)
        else okWith [] (withdrawOffer crew j .declined p)

/-! ## ASSIGN (R153) -/

/-- The ids that an item of a class may have (R153, test 1). -/
def JobClass.room : JobClass → Nat
  | .leak => 128 | .valve => 768 | .relight => 512

/-- An item is in use in its owning block (R153, test 2). -/
def Part.itemExists (p : Part) (j : Job) : Bool :=
  match j.cls with
  | .leak => p.register.incidents.has j.item
  | .valve => p.valves.has j.item
  | .relight => p.segments.has j.item

/-- An item is demand or under offer (R153, test 5). -/
def Part.assignable (p : Part) (j : Job) : Bool :=
  p.qualifies j && ((p.crewOn j).map (·.2.state)).all (· == .offered)

/-- Another crew's offer of an item ends, because the item is assigned (R152, R153 step 2). -/
def endOtherOffer (crew : Nat) (j : Job) (p : Part) : Part :=
  match p.crewOn j with
  | none => p
  | some (id, _) =>
    if id = crew then p
    else place (.offerWithdrawn id j.cls j.item .assignedElsewhere)
      (p.onCrew id fun c => { c with state := .available, job := none, expiry := none })

/-- ASSIGN's event (R153). -/
def assignCrew (crew : Nat) (j : Job) (p : Part) : Part :=
  dispatchDecide (acceptJob crew j .host ((endOtherOffer crew j p).onCrew crew fun c => c.assignedTo j))

/-- ASSIGN (R153). -/
def assignRule : Handler where
  lengthOk := exactly 4
  admitted := inRunning
  act b p :=
    let crew := u8 b 0
    let j : Job := ⟨classOf (u8 b 1), u16 b 2⟩
    if 47 < crew || 2 < u8 b 1 || decide (j.cls.room ≤ j.item) then refuse .refusedRange p
    else match p.dispatch.crews.get? crew with
      | none => refuse .notFound p
      | some c =>
        if !p.itemExists j then refuse .notFound p
        else if !c.kind.serves j.cls then refuse .refusedRange p
        else if c.state != .available && c.state != .offered then refuse .refusedBusy p
        else if !p.assignable j then refuse .refusedState p
        else okWith [] (assignCrew crew j p)

/-! ## CREW_REPORT (R154, R155) -/

/-- ON_SITE's event for a crew in ASSIGNED (R154). -/
def crewArrives (crew : Nat) (c : Crew) (p : Part) : Part :=
  let p := p.onCrew crew fun c => { c with state := .onSite }
  match c.job with
  | none => p
  | some j => match j.cls with
    | .leak =>
      if ((p.incident? j.item).map (·.state)) = some .assigned then setIncidentState j.item .onSite .crew p else p
    | .valve | .relight => p

/-- A job that its crew leaves goes back to its owning block; true when it is demand again (R155). -/
def returnJob (j : Job) (p : Part) : Part × Bool :=
  match j.cls with
  | .leak => match p.incident? j.item with
    | none => (p, false)
    | some i =>
      let p := putIncident j.item { i with crew := none } p
      if i.state = .assigned then (setIncidentState j.item .opened .crew p, true) else (p, false)
  | .valve =>
    if (p.op? j.item).any fun o => o.state = .acting then (setOpState j.item .pending none p, true) else (p, false)
  | .relight =>
    if (p.segments.get? j.item).any fun s => s.supply = .relighting then
      (markSegment j.item (setSupply j.item .purged p), true)
    else (p, false)

/-- CLEAR's event (R155). -/
def crewClears (crew : Nat) (c : Crew) (p : Part) : Answer :=
  let (p, returned) := match c.job with
    | none => (p, none)
    | some j => let (p, again) := returnJob j p; (p, if again then some j else none)
  let p := p.onCrew crew fun c => { c with state := .available, job := none, declined := returned }
  okWith (jobRecord returned) (dispatchDecide p)

/-- CREW_REPORT (R154, R155). -/
def crewReportRule : Handler where
  lengthOk := exactly 2
  admitted := inRunning
  act b p :=
    let crew := u8 b 0
    if 47 < crew || 1 < u8 b 1 then refuse .refusedRange p
    else match p.dispatch.crews.get? crew with
      | none => refuse .notFound p
      | some c =>
        if u8 b 1 = 0 then match c.state with
          | .assigned => okWith [] (crewArrives crew c p)
          | .onSite => okWith [] p
          | .offShift | .available | .offered => refuse .refusedState p
        else match c.state with
          | .assigned | .onSite => crewClears crew c p
          | .offShift | .available | .offered => refuse .refusedState p

end Sys2Proof.Machine
end

