-- ==== Sys2Proof/Machine/OutageRequests.lean ====
section
/-!
DEFINITION. The requests over outages (09): PURGE, RELIGHT_REPORT, DISMISS and CLEAR_SUSPECT.
-/

namespace Sys2Proof.Machine

/-- A request over one segment: a segment above 511 is refused with REFUSED_RANGE, an undefined one with NOT_FOUND
(R165, R172). -/
def onSegmentNumbered (b : List Byte) (p : Part) (act : Nat → Segment → Answer) : Answer :=
  if 511 < u16 b 0 then refuse .refusedRange p
  else match p.segments.get? (u16 b 0) with
    | none => refuse .notFound p
    | some s => act (u16 b 0) s

/-- The code of a segment's present supply state. -/
def Part.supplyCode (p : Part) (seg : Nat) : Byte := byte (((p.segments.get? seg).map fun s => s.supply.code).getD 0)

/-- A segment's pressure lets it be purged (R165, test 4). -/
def Part.fitToPurge (p : Part) (seg : Nat) (s : Segment) : Bool :=
  s.pressure = some .normal || (s.pressure.isNone && !p.pressureWatched seg)

/-- PURGE's event (R165). -/
def purgeSegment (seg : Nat) (s : Segment) (p : Part) : Part :=
  dispatchDecide (if 0 < s.customers then
      markSegment seg (p.onSegment seg fun s => { s with supply := .purged, relit := 0 })
    else restoreSegment seg p)

/-- PURGE (R165). -/
def purgeRule : Handler where
  lengthOk := exactly 2
  admitted := inRunning
  act b p := onSegmentNumbered b p fun seg s =>
    if s.supply != .recharged || !p.fitToPurge seg s then refuse .refusedState p
    else
      let p := purgeSegment seg s p
      okWith [p.supplyCode seg] p

/-- Premises relit join a member's relit count and its outage's (R164, R167). -/
def addRelit (seg : Nat) (s : Segment) (n : Nat) (p : Part) : Part :=
  let relit := min (s.relit + n) s.customers
  let p := p.onSegment seg fun s => { s with relit := relit }
  match s.outage.bind fun id => (p.outages.get? id).map fun o => (id, o) with
  | none => p
  | some (id, o) => putOutage id { o with customersRelit := o.customersRelit + (relit - s.relit) } p

/-- RELIGHT_REPORT's event (R167). -/
def relightSegment (seg : Nat) (s : Segment) (n : Nat) (p : Part) : Part :=
  let p := addRelit seg s n p
  if s.customers ≤ s.relit + n then dispatchDecide (restoreSegment seg p) else p

/-- A report of a source is admitted for a supply state (R167, test 3). -/
def relightAdmitted (source : Nat) (st : SupplyState) : Bool :=
  st = .relighting || (source = 1 && st = .purged)

/-- RELIGHT_REPORT (R167). -/
def relightReportRule : Handler where
  lengthOk := exactly 5
  admitted := inRunning
  act b p :=
    if 511 < u16 b 0 || u16 b 2 = 0 || 1 < u8 b 4 then refuse .refusedRange p
    else match p.segments.get? (u16 b 0) with
      | none => refuse .notFound p
      | some s =>
        if !relightAdmitted (u8 b 4) s.supply then refuse .refusedState p
        else
          let p := relightSegment (u16 b 0) s (u16 b 2) p
          okWith (be16 (((p.segments.get? (u16 b 0)).map (·.relit)).getD 0) ++ [p.supplyCode (u16 b 0)]) p

/-- DISMISS (R170). -/
def dismissRule : Handler where
  lengthOk := exactly 1
  admitted := inRunning
  act b p :=
    if 63 < u8 b 0 then refuse .refusedRange p
    else match p.outages.get? (u8 b 0) with
      | none => refuse .notFound p
      | some o =>
        if o.ended.isNone then refuse .refusedState p
        else okWith [] { p with outages := p.outages.erase (u8 b 0) }

/-- CLEAR_SUSPECT (R172). -/
def clearSuspectRule : Handler where
  lengthOk := exactly 2
  admitted := inRunning
  act b p := onSegmentNumbered b p fun seg s =>
    let p := p.onSegment seg fun s => { s with noGas := [] }
    okWith [flag s.suspect] (if s.suspect then setSuspect seg false p else p)

end Sys2Proof.Machine
end

