-- ==== Sys2Proof/Machine/PanelRequests.lean ====
section
/-!
DEFINITION. The requests over the panel and host supervision (10): LAMP_FORCE, LAMP_TEST, SILENCE, SET_SUPERVISION and
KEEPALIVE.
-/

namespace Sys2Proof.Machine

/-- The part is UNATTENDED. -/
def Part.unattended (p : Part) : Bool := p.panel.supervision.unattended

/-- The panel changed. -/
def Part.onPanel (p : Part) (f : Panel → Panel) : Part := { p with panel := f p.panel }

/-- Supervision changed. -/
def Part.onSupervision (p : Part) (f : Supervision → Supervision) : Part :=
  p.onPanel fun a => { a with supervision := f a.supervision }

/-- A table of forces with one lamp forced, or set to FOLLOW (R177). -/
def setForce (lamp : Nat) (f : Option Lamp) (t : Table Lamp) : Table Lamp :=
  match f with
  | none => t.erase lamp
  | some s => t.set lamp s

/-- The code of a lamp's force, FOLLOW 0 (R177). -/
def forceCode (f : Option Lamp) : Nat := (f.map Lamp.code).getD 0

/-- LAMP_FORCE (R177). -/
def lampForceRule : Handler where
  lengthOk := exactly 2
  admitted := inRunning
  act b p :=
    if 35 < u8 b 0 || 4 < u8 b 1 then refuse .refusedRange p
    else if p.unattended then refuse .refusedState p
    else okWith [byte (forceCode (p.panel.forces.get? (u8 b 0)))]
      (p.onPanel fun a => { a with forces := setForce (u8 b 0) (forceOf (u8 b 1)) a.forces })

/-- LAMP_TEST (R177). -/
def lampTestRule : Handler where
  lengthOk := exactly 0
  admitted := inRunning
  act _ p :=
    if p.unattended then refuse .refusedState p
    else if p.panel.testEnd.isSome then refuse .refusedBusy p
    else okWith [] (p.onPanel fun a => { a with testEnd := some (p.time + lampTestSeconds) })

/-- SILENCE (R178). -/
def silenceRule : Handler where
  lengthOk := exactly 0
  admitted := inRunning
  act _ p := okWith [flag p.panel.horn] (p.onPanel fun a => { a with horn := false })

/-- SET_SUPERVISION's event with a period (R179). -/
def superviseWith (period : Nat) (p : Part) : Part :=
  p.onSupervision fun v =>
    if v.enabled then { v with period := period }
    else { v with enabled := true, period := period, lastToken := none, expiry := some (p.time + period) }

/-- The period of a SET_SUPERVISION body: 60 s for an empty one (R179). -/
def supervisionPeriod (b : List Byte) : Nat := if b.isEmpty then 60 else u16 b 0

/-- SET_SUPERVISION (R179). -/
def setSupervisionRule : Handler where
  lengthOk := fun b => b.isEmpty || b.length = 2
  admitted := inRunning
  act b p :=
    if !within 10 300 (supervisionPeriod b) then refuse .refusedRange p
    else okWith [flag p.panel.supervision.enabled] (superviseWith (supervisionPeriod b) p)

/-- The return to ATTENDED (R181). -/
def resumeAttended (p : Part) : Part :=
  let since := p.panel.supervision.since
  let p := p.onSupervision fun v =>
    { v with unattended := false, returnCount := 0, expiry := some (p.time + v.period) }
  dispatchDecide (place (.hostResumed p.link.lostCount (p.time - since)) p)

/-- An accepted token (R179, R181). -/
def acceptToken (token : Byte) (p : Part) : Part :=
  let p := p.onSupervision fun v => { v with lastToken := some token }
  if !p.unattended then p.onSupervision fun v => { v with expiry := some (p.time + v.period) }
  else if p.panel.supervision.returnCount = 0 then p.onSupervision fun v => { v with returnCount := 1 }
  else resumeAttended p

/-- KEEPALIVE (R179, R181). -/
def keepaliveRule : Handler where
  lengthOk := exactly 1
  admitted := inRunning
  act b p :=
    let token := b.getD 0 0
    if token != 0x5A && token != 0xA5 then refuse .refusedRange p
    else if !p.panel.supervision.enabled then refuse .refusedState p
    else
      let accepted : Bool := p.panel.supervision.lastToken != some token
      let p := if accepted then acceptToken token p else p
      okWith [flag accepted, flag p.unattended] p

end Sys2Proof.Machine
end

