-- ==== Sys2Proof/Machine/Requests.lean ====
section
/-!
DEFINITION. The life of a request: its placement in the slots (R6), the tests of its execution (R7), and its reply (R9).
-/

namespace Sys2Proof.Machine

/-- The request kinds of the part (R14); a kind above 0x2F is unknown (R7). -/
def handlerOf : Nat → Option Handler
  | 0x01 => some statusRule
  | 0x02 => some readTableRule
  | 0x03 => some readChangesRule
  | 0x04 => some setNoticesRule
  | 0x05 => some restartRule
  | 0x06 => some beginLoadRule
  | 0x07 => some endLoadRule
  | 0x08 => some setLineRule
  | 0x09 => some defineOutstationRule
  | 0x0A => some definePointRule
  | 0x0B => some defineDistrictRule
  | 0x0C => some defineSegmentRule
  | 0x0D => some defineValveRule
  | 0x0E => some defineFeedRule
  | 0x0F => some defineCrewRule
  | 0x10 => some setResponseRule
  | 0x11 => some setDispatchRule
  | 0x12 => some holdLineRule
  | 0x13 => some freeLineRule
  | 0x14 => some ackPointRule
  | 0x15 => some setBandsRule
  | 0x16 => some editSegmentRule
  | 0x17 => some editValveRule
  | 0x18 => some editFeedRule
  | 0x19 => some valveReportRule
  | 0x1A => some planRule
  | 0x1B => some executeRule
  | 0x1C => some reissueRule
  | 0x1D => some abortRule
  | 0x1E => some releaseRule
  | 0x1F => some dropPlanRule
  | 0x20 => some operateRule
  | 0x21 => some callRule
  | 0x22 => some incidentUpdateRule
  | 0x23 => some crewStateRule
  | 0x24 => some answerOfferRule
  | 0x25 => some assignRule
  | 0x26 => some crewReportRule
  | 0x27 => some purgeRule
  | 0x28 => some relightReportRule
  | 0x29 => some dismissRule
  | 0x2A => some clearSuspectRule
  | 0x2B => some lampForceRule
  | 0x2C => some lampTestRule
  | 0x2D => some silenceRule
  | 0x2E => some setSupervisionRule
  | 0x2F => some keepaliveRule
  | _ => none

/-- The tests of R7 in their order, and then the owning block's rule. -/
def runRequest (r : Request) (p : Part) : Answer :=
  match handlerOf r.kind with
  | none => refuse .unknownKind p
  | some h =>
    if !h.lengthOk r.body then refuse .badLength p
    else if !h.admitted p.link.partState then refuse .refusedState p
    else h.act r.body p

/-- A request enters the empty executing slot. -/
def Link.begin (r : Request) (l : Link) : Link := { l with executing := some ⟨r, false⟩ }

/-- A request executes in the executing slot: one event, in which its reply is made (R6, R7, R9). -/
def executeRequest (r : Request) (p : Part) : Part :=
  let a := runRequest r { p with link := p.link.begin r }
  { a.part with link := a.part.link.answer a.status a.result }

/-- The placement of a request whose frame has completed (R6). -/
def requestArrives (r : Request) (p : Part) : Part :=
  match p.link.executing with
  | none => executeRequest r p
  | some _ => match p.link.waiting with
    | none => { p with link := { p.link with waiting := some r } }
    | some _ => { p with link := p.link.turnAway r }

/-- The frame of a request arrives: the meaning that all request commands share (R6, R7). -/
def request (kind : Nat) (tag : Byte) (body : List Byte) (s : State) : Host.Outcome State Fault Refusal :=
  onPart (requestArrives ⟨kind, tag, body⟩) s

end Sys2Proof.Machine
end

