-- ==== Sys2Proof/Machine/LinkEvents.lean ====
section
/-!
DEFINITION. The receiver and the transmitter of the control link at work (R1, R3–R6, R10, R17–R19).
-/

namespace Sys2Proof.Machine

/-! ## The candidate frame (R3, R4) -/

/-- What the receiver knows of a candidate frame. -/
inductive Verdict where
  /-- it goes on -/
  | open_
  /-- complete, with its check passed -/
  | complete
  /-- to be abandoned -/
  | bad
  deriving DecidableEq, Repr

/-- The bytes of some received characters. -/
def bytesOf (rx : List RxByte) : List Byte := rx.map (·.byte)

/-- The verdict on a candidate once its newest byte is in: a framing error, a length above 1,020 once its second byte is
in, and at the (L + 7)th byte the check (R3, R4). -/
def verdict (cand : List RxByte) : Verdict :=
  let bytes := bytesOf cand
  if (cand.getLast?.map (·.stopLow)).getD false then .bad
  else if bytes.length < 3 then .open_
  else
    let len := u16 bytes 1
    if maxBody < len then .bad
    else if bytes.length < len + 7 then .open_
    else if checkBytes ((bytes.drop 1).take (len + 4)) = bytes.drop (len + 5) then .complete
    else .bad

/-- The request that a complete candidate carries (01, section 1.2). -/
def requestOf (cand : List RxByte) : Request :=
  let bytes := bytesOf cand
  { kind := u8 bytes 3, tag := bytes.getD 4 0, body := (bytes.drop 5).take (u16 bytes 1) }

/-- A complete frame is handed on: a request to the slots, any other kind discarded and counted (R5). -/
def handFrame (cand : List RxByte) (p : Part) : Part :=
  let r := requestOf cand
  if 1 ≤ r.kind && r.kind ≤ 0x3F then requestArrives r p else { p with link := p.link.countError }

/-- The receive buffer written. -/
def setBuffer (rx : List RxByte) (p : Part) : Part := { p with link := { p.link with rxBuffer := rx } }

/-- The number of buffered bytes a candidate takes before its verdict falls, and the verdict. -/
def examineCandidate : List RxByte → List RxByte → List RxByte × List RxByte × Verdict
  | cand, [] => (cand, [], .open_)
  | cand, b :: rest =>
    match verdict (cand ++ [b]) with
    | .open_ => examineCandidate (cand ++ [b]) rest
    | v => (cand ++ [b], rest, v)

/-- More than 20 ms have passed since the last received byte (R4). -/
def Link.gapOver (l : Link) (clock : Nat) : Bool := decide (l.lastRx + gapTicks < clock)

/-- Buffered bytes are examined again as hunting bytes, in order (R3, R4): a byte that starts no candidate is discarded,
a complete frame is handed on, an abandoned candidate counts and leaves the bytes after its start to be examined. A
candidate still open when the bytes run out is kept, or abandoned at once if the last byte is more than 20 ms old. Every
turn drops at least one byte, so as many turns as there are bytes are enough. -/
def examine : Nat → List RxByte → Part → Part
  | 0, _, p => setBuffer [] p
  | _ + 1, [], p => setBuffer [] p
  | n + 1, b :: rest, p =>
    if b.byte = linkStart && !b.stopLow then
      match examineCandidate [b] rest with
      | (cand, after, .complete) => examine n after (handFrame cand p)
      | (_, _, .bad) => examine n rest { p with link := p.link.countError }
      | (cand, _, .open_) =>
        if p.link.gapOver p.clock then examine n rest { p with link := p.link.countError } else setBuffer cand p
    else examine n rest p

/-- The candidate in the buffer is abandoned and counted, and its bytes after the start byte are examined (R4). -/
def abandon (cand : List RxByte) (p : Part) : Part :=
  examine cand.length (cand.drop 1) { p with link := p.link.countError }

/-- The gap before a byte, or before no byte, abandons a candidate (R4). -/
def closeGap (p : Part) : Part :=
  if !p.link.rxBuffer.isEmpty && p.link.gapOver p.clock then abandon p.link.rxBuffer p else p

/-- The candidate that a byte would make, and its verdict: absent for a byte that hunting discards. -/
def Link.withByte (l : Link) (b : RxByte) : Option (List RxByte × Verdict) :=
  if l.rxBuffer.isEmpty then if b.byte = linkStart && !b.stopLow then some ([b], .open_) else none
  else some (l.rxBuffer ++ [b], verdict (l.rxBuffer ++ [b]))

/-- A byte joins the candidate, and what its verdict asks is done (R3, R4, R5). -/
def takeByte (b : RxByte) (p : Part) : Part :=
  let clock := p.clock
  let heard (p : Part) : Part := { p with link := { p.link with lastRx := clock } }
  match p.link.withByte b with
  | none => heard p
  | some (cand, .open_) => setBuffer cand (heard p)
  | some (cand, .complete) => handFrame cand (setBuffer [] (heard p))
  | some (cand, .bad) => abandon cand (heard p)

/-- A byte arrives on RXD; a gap before it is closed first (R3, R4). -/
def receiveByte (b : RxByte) (p : Part) : Part := takeByte b (closeGap p)

/-- The verdict that a byte brings, the gap before it closed. -/
def Part.verdictOn (p : Part) (b : RxByte) : Option Verdict := (((closeGap p).link.withByte b).map (·.2))

/-! ## The end of a frame on TXD (R6, R10, R19) -/

/-- The transmitter is idle. -/
def Link.txIdle (l : Link) : Link := { l with tx := none }

/-- The executing slot is emptied, and the waiting request, if any, moves into it and executes (R6). -/
def promoteWaiting (p : Part) : Part :=
  let waiting := p.link.waiting
  let p := { p with link := { p.link with executing := none, waiting := none } }
  match waiting with
  | none => p
  | some r => executeRequest r p

/-- The last byte of a reply to an executed request has left TXD: a RESTART that was answered OK resets the part with
its rate and counts kept (R19); else the slot empties (R6). -/
def replySent (r : Reply) (p : Part) : Part :=
  if r.kind = 0x05 && r.status = .ok then
    Part.released .restart p.link.rate p.link.errorCount p.link.lostCount
  else
    let p := promoteWaiting p
    { p with link := p.link.startNext }

/-- The last byte of the frame being sent leaves TXD (R10). -/
def frameSent (p : Part) : Part :=
  match p.link.tx with
  | none => p
  | some (.reply r) =>
    let p := { p with link := p.link.txIdle }
    if r.status = .linkFull then { p with link := p.link.startNext } else replySent r p
  | some (.notice _) => { p with link := p.link.txIdle.startNext }

/-! ## The rate straps (R1) -/

/-- The link rate that the straps select (R1). -/
def strapRate : Bool → Bool → Nat
  | false, false => 19200
  | false, true => 57600
  | true, false => 115200
  | true, true => 460800

/-! ## The meanings -/

/-- POWER_ON_RESET (R1, R17, R18): the release of a power-on reset. -/
def execPowerOnReset (supply lr1 lr0 : Bool) (s : State) : Host.Outcome State Fault Refusal :=
  onPart (fun _ => Part.released (if supply then .power else .pin) (strapRate lr1 lr0) 0 0) s

/-- RECEIVED_BYTE (R3, R4): a byte arrives on RXD. -/
def execReceivedByte (b : Byte) (stopLow : Bool) (s : State) : Host.Outcome State Fault Refusal :=
  onPart (receiveByte ⟨b, stopLow⟩) s

/-- FRAME_RECEIVED (R3, R5): the byte that completes the candidate with a passing check. Another byte is no such
event, and changes nothing. -/
def execFrameReceived (b : Byte) (s : State) : Host.Outcome State Fault Refusal :=
  onPart (fun p => if p.verdictOn ⟨b, false⟩ = some .complete then receiveByte ⟨b, false⟩ p else p) s

/-- FRAME_ABANDONED (R4): the byte on which the candidate is abandoned. Another byte is no such event, and changes
nothing. -/
def execFrameAbandoned (b : Byte) (stopLow : Bool) (s : State) : Host.Outcome State Fault Refusal :=
  onPart (fun p => if p.verdictOn ⟨b, stopLow⟩ = some .bad then receiveByte ⟨b, stopLow⟩ p else p) s

/-- RECEIVE_GAP_TIMEOUT (R4): more than 20 ms have passed since the candidate's newest byte. -/
def execReceiveGapTimeout (s : State) : Host.Outcome State Fault Refusal := onPart closeGap s

/-- TRANSMIT_END (R6, R10, R19). -/
def execTransmitEnd (s : State) : Host.Outcome State Fault Refusal := onPart frameSent s

end Sys2Proof.Machine
end

