-- ==== Sys2Proof/Machine/FieldEvents.lean ====
section
/-!
DEFINITION. The events of the field lines (02): the end of a sent frame, the bytes of a reply, the reply's timers, the
quiet time and the cycle period. An event whose moment has not come changes nothing (notes/assumptions/5.md), nor does
one of a line above 3.
-/

namespace Sys2Proof.Machine

/-- An event of a line FL0–FL3; whatever it frees is open to the arbiter (R149). -/
def lineEvent (n : Nat) (f : Part → Part) (p : Part) : Part := if n < 4 then dispatchDecide (f p) else p

/-- QUIET_TIME_END on the part (R30). -/
def quietEnds (n : Nat) (p : Part) : Part := if p.quietOver n then chooseTransaction n p else p

/-- QUIET_TIME_END (R20, R28, R30). -/
def execQuietTimeEnd (line : Nat) (s : State) : Host.Outcome State Fault Refusal :=
  onPart (lineEvent line (quietEnds line)) s

/-- FIELD_FRAME_SENT on the part: FDEn falls and the reply window opens (R20). -/
def frameLeaves (n : Nat) (p : Part) : Part :=
  match (p.line n).phase with
  | .sending t => p.onLine n fun l => { l with phase := .awaiting t p.clock }
  | .idle | .awaiting _ _ | .collecting _ _ _ | .quiet _ _ => p

/-- FIELD_FRAME_SENT (R20). -/
def execFieldFrameSent (line : Nat) (s : State) : Host.Outcome State Fault Refusal :=
  onPart (lineEvent line (frameLeaves line)) s

/-- REPLY_WINDOW_EXPIRY on the part (R26). -/
def windowEnds (n : Nat) (p : Part) : Part :=
  match (p.line n).phase with
  | .awaiting t opened => if windowOver t opened p.clock then endTransaction n .noAnswer p else p
  | .idle | .sending _ | .collecting _ _ _ | .quiet _ _ => p

/-- REPLY_WINDOW_EXPIRY (R26). -/
def execReplyWindowExpiry (line : Nat) (s : State) : Host.Outcome State Fault Refusal :=
  onPart (lineEvent line (windowEnds line)) s

/-- REPLY_GAP_TIMEOUT on the part (R26). -/
def gapEnds (n : Nat) (p : Part) : Part :=
  match (p.line n).phase with
  | .collecting t _ last => if replyGapOver t last p.clock then endTransaction n .noAnswer p else p
  | .idle | .sending _ | .awaiting _ _ | .quiet _ _ => p

/-- REPLY_GAP_TIMEOUT (R26). -/
def execReplyGapTimeout (line : Nat) (s : State) : Host.Outcome State Fault Refusal :=
  onPart (lineEvent line (gapEnds line)) s

/-- FIELD_REPLY_BYTE (R20, R26): a byte arrives on FRXn. -/
def execFieldReplyByte (line : Nat) (b : Byte) (stopLow : Bool) (s : State) : Host.Outcome State Fault Refusal :=
  onPart (lineEvent line (fieldByte line b stopLow)) s

/-- The byte ends the transaction of a line. -/
def ByteCase.isEnd : ByteCase → Bool
  | .ends _ => true
  | .dropped | .starts _ | .joins _ _ => false

/-- FIELD_REPLY_RECEIVED (R26): the byte on which the reply completes or fails. Another byte is no such event, and
changes nothing. -/
def execFieldReplyReceived (line : Nat) (b : Byte) (stopLow : Bool) (s : State) : Host.Outcome State Fault Refusal :=
  onPart (lineEvent line fun p => if (p.fieldByteCase line b stopLow).isEnd then fieldByte line b stopLow p else p) s

/-- CYCLE_PERIOD_EXPIRY on the part: the next cycle starts, and its first transaction with it unless a command's is in
flight or the quiet time after one runs (R20, R28, R30). -/
def periodEnds (n : Nat) (p : Part) : Part :=
  if (p.line n).cond = .waiting && p.periodOver n then
    let idle : Bool := (p.line n).phase = .idle
    let p := startCycle n (((p.line n).cycle + 1) % 8) p
    if idle then takeTurn n p else p
  else p

/-- CYCLE_PERIOD_EXPIRY (R28). -/
def execCyclePeriodExpiry (line : Nat) (s : State) : Host.Outcome State Fault Refusal :=
  onPart (lineEvent line (periodEnds line)) s

end Sys2Proof.Machine
end

