-- ==== Sys2Proof/Machine/Timers.lean ====
section
/-!
DEFINITION. The events of the trace engine (05) and of the timers that the other blocks run: ride-through (03), travel
(06), escalation (07), offers (08), the lamp test, PACK and the keepalive (10). An event whose moment has not come
changes nothing (notes/assumptions/5.md).
-/

namespace Sys2Proof.Machine

/-- A time that may be absent has been reached by part time. -/
def Part.reached (p : Part) (t : Option Nat) : Bool := t.any fun t => decide (t ≤ p.time)

/-! ## The point supervisor (R55) -/

/-- RIDE_THROUGH_EXPIRY (R55). -/
def execRideThroughExpiry (point : Nat) (s : State) : Host.Outcome State Fault Refusal :=
  onPart (fun p => dispatchDecide (rideThroughEnds point p)) s

/-! ## The trace engine (R83–R97, R106) -/

/-- The engine takes a job and its view. -/
def startJob (engine : Engine) (forPlan : Bool) (p : Part) : Part :=
  { p with trace := { p.trace with engine := engine, view := some (p.takeView forPlan), changeSet := [] } }

/-- JOB_START on the part: a supply trace that is owed, else the plan job at the head of the queue (R84, R88, R97). -/
def jobStarts (p : Part) : Part :=
  if p.trace.engine != .idle then p
  else match p.trace.pendingCause with
    | some c => startJob (.supplyJob c) false { p with trace := { p.trace with pendingCause := none } }
    | none => match p.trace.planQueue with
      | [] => p
      | id :: rest =>
        setPlanState id .computing none
          (startJob (.planJob id) true { p with trace := { p.trace with planQueue := rest } })

/-- JOB_START (R83, R84). -/
def execJobStart (s : State) : Host.Outcome State Fault Refusal := onPart jobStarts s

/-- SUPPLY_TRACE_COMPLETE on the part (R93). -/
def traceEnds (p : Part) : Part :=
  match p.trace.engine, p.trace.view with
  | .supplyJob c, some w => completeTrace c w p
  | _, _ => p

/-- SUPPLY_TRACE_COMPLETE (R93). -/
def execSupplyTraceComplete (s : State) : Host.Outcome State Fault Refusal := onPart traceEnds s

/-- The state in which a completed computation leaves its plan (R106). -/
def settledState (r : PlanResult) (changes : List Nat) : PlanState :=
  if r.failure.isSome then .failed
  else if changes.any fun v => r.close.contains v || r.hold.contains v then .stale
  else .ready

/-- A plan with the result of its computation, the lists cut to the 64 entries that a record keeps (R104, R106). -/
def Plan.withResult (q : Plan) (r : PlanResult) : Plan :=
  { q with
    area := r.area, closeList := r.close.take listRoom, holdList := r.hold.take listRoom, impact := r.impact
    failure := r.failure }

/-- PLAN_JOB_COMPLETE on the part: the plan is settled, and the engine is IDLE (R83, R106). -/
def planJobEnds (p : Part) : Part :=
  match p.trace.engine, p.trace.view with
  | .planJob id, some w =>
    let changes := p.trace.changeSet
    let r := computePlan p w (((p.plans.get? id).map (·.target)).getD 0)
    let p := { p with trace := { p.trace with engine := .idle, view := none, changeSet := [] } }
    setPlanState id (settledState r changes) none (p.onPlan id fun q => q.withResult r)
  | _, _ => p

/-- PLAN_JOB_COMPLETE (R106). -/
def execPlanJobComplete (s : State) : Host.Outcome State Fault Refusal := onPart planJobEnds s

/-! ## Valve operations (R113) -/

/-- TRAVEL_EXPIRY on the part (R113, R117). -/
def travelEnds (v : Nat) (p : Part) : Part :=
  match p.op? v with
  | none => p
  | some o =>
    if o.mode = .field && o.state = .acting && p.reached o.travelExpiry then
      dispatchDecide (planCourse [⟨v, true⟩] (offerStop v (failOp v .travel p)))
    else p

/-- TRAVEL_EXPIRY (R113). -/
def execTravelExpiry (valve : Nat) (s : State) : Host.Outcome State Fault Refusal := onPart (travelEnds valve) s

/-! ## Incidents and offers (R139, R152) -/

/-- ESCALATION on the part (R139). -/
def escalationDue (id : Nat) (p : Part) : Part :=
  match p.incident? id with
  | none => p
  | some i => match i.nextEscalation with
    | none => p
    | some t => if decide (t ≤ p.time) && i.unreached then escalateAt id t p else p

/-- ESCALATION (R139). -/
def execEscalation (incident : Nat) (s : State) : Host.Outcome State Fault Refusal := onPart (escalationDue incident) s

/-- OFFER_EXPIRY on the part (R152). -/
def offerEnds (crew : Nat) (p : Part) : Part :=
  match p.dispatch.crews.get? crew with
  | none => p
  | some c => match c.job with
    | none => p
    | some j => if c.state = .offered && p.reached c.expiry then withdrawOffer crew j .expired p else p

/-- OFFER_EXPIRY (R152). -/
def execOfferExpiry (crew : Nat) (s : State) : Host.Outcome State Fault Refusal := onPart (offerEnds crew) s

/-! ## The panel (R177, R178) -/

/-- PACK has been low without a break for 20 ms (R178). -/
def Part.packHeld (p : Part) : Bool :=
  match p.panel.pack with
  | .low since => decide (since + packTicks ≤ p.clock)
  | .spent | .high => false

/-- PACK_LOW_LEVEL on the part (R178). -/
def packFalls (p : Part) : Part :=
  if p.isRunning && p.panel.pack = .high then p.onPanel fun a => { a with pack := .low p.clock } else p

/-- PACK_LOW_LEVEL (R178). -/
def execPackLowLevel (s : State) : Host.Outcome State Fault Refusal := onPart packFalls s

/-- PACK_ACKNOWLEDGE on the part: the horn goes QUIET, and PACK must return high (R178). -/
def packAcknowledged (p : Part) : Part :=
  if p.isRunning && p.packHeld then p.onPanel fun a => { a with horn := false, pack := .spent } else p

/-- PACK_ACKNOWLEDGE (R178). -/
def execPackAcknowledge (s : State) : Host.Outcome State Fault Refusal := onPart packAcknowledged s

/-- PACK_RETURN_HIGH on the part: a low level of 20 ms has acknowledged, a shorter one leaves no trace (R178). -/
def packRises (p : Part) : Part :=
  if p.isRunning then (packAcknowledged p).onPanel fun a => { a with pack := .high } else p

/-- PACK_RETURN_HIGH (R178). -/
def execPackReturnHigh (s : State) : Host.Outcome State Fault Refusal := onPart packRises s

/-- LAMP_TEST_EXPIRY on the part (R177). -/
def testEnds (p : Part) : Part :=
  if p.reached p.panel.testEnd then p.onPanel fun a => { a with testEnd := none } else p

/-- LAMP_TEST_EXPIRY (R177). -/
def execLampTestExpiry (s : State) : Host.Outcome State Fault Refusal := onPart testEnds s

/-! ## Host supervision (R180) -/

/-- The part becomes UNATTENDED (R180). -/
def lapse (p : Part) : Part :=
  (p.onPanel fun a => { a with forces := ⟨[]⟩, testEnd := none }).onSupervision fun v =>
    { v with unattended := true, expiry := none, returnCount := 0, since := p.time }

/-- KEEPALIVE_EXPIRY on the part (R180). -/
def keepaliveEnds (p : Part) : Part :=
  if !p.unattended && p.reached p.panel.supervision.expiry then lapse p else p

/-- KEEPALIVE_EXPIRY (R180). -/
def execKeepaliveExpiry (s : State) : Host.Outcome State Fault Refusal := onPart keepaliveEnds s

end Sys2Proof.Machine
end

