-- ==== Sys2Proof/Machine/RequestMeanings.lean ====
section
/-!
DEFINITION. The meanings of the request commands: the arrival of a frame of each kind (R14), with its tag and body. Its
placement and execution are R6 and R7; what its execution does is the rule of its kind in `handlerOf`.
-/

namespace Sys2Proof.Machine

/-! ## The control link (01) -/

/-- UNKNOWN_KIND (R7): a request of kind 0x30–0x3F. -/
def execUnknownKind (low : Fin 16) (tag : Byte) (body : List Byte) (s : State) : Host.Outcome State Fault Refusal :=
  request (0x30 + low.val) tag body s

/-- STATUS (R15). -/
def execStatus (tag : Byte) (body : List Byte) (s : State) : Host.Outcome State Fault Refusal := request 0x01 tag body s

/-- READ_TABLE (R16). -/
def execReadTable (tag : Byte) (body : List Byte) (s : State) : Host.Outcome State Fault Refusal := request 0x02 tag body s

/-- SET_NOTICES (R13). -/
def execSetNotices (tag : Byte) (body : List Byte) (s : State) : Host.Outcome State Fault Refusal := request 0x04 tag body s

/-- RESTART (R19). -/
def execRestart (tag : Byte) (body : List Byte) (s : State) : Host.Outcome State Fault Refusal := request 0x05 tag body s

/-- BEGIN_LOAD (R14). -/
def execBeginLoad (tag : Byte) (body : List Byte) (s : State) : Host.Outcome State Fault Refusal := request 0x06 tag body s

/-! ## Field lines (02) -/

/-- SET_LINE (R21). -/
def execSetLine (tag : Byte) (body : List Byte) (s : State) : Host.Outcome State Fault Refusal := request 0x08 tag body s

/-- DEFINE_OUTSTATION (R23). -/
def execDefineOutstation (tag : Byte) (body : List Byte) (s : State) : Host.Outcome State Fault Refusal := request 0x09 tag body s

/-- HOLD_LINE (R40). -/
def execHoldLine (tag : Byte) (body : List Byte) (s : State) : Host.Outcome State Fault Refusal := request 0x12 tag body s

/-- FREE_LINE (R41). -/
def execFreeLine (tag : Byte) (body : List Byte) (s : State) : Host.Outcome State Fault Refusal := request 0x13 tag body s

/-! ## Points (03) -/

/-- DEFINE_POINT (R43). -/
def execDefinePoint (tag : Byte) (body : List Byte) (s : State) : Host.Outcome State Fault Refusal := request 0x0A tag body s

/-- ACK_POINT (R59). -/
def execAckPoint (tag : Byte) (body : List Byte) (s : State) : Host.Outcome State Fault Refusal := request 0x14 tag body s

/-- SET_BANDS (R60). -/
def execSetBands (tag : Byte) (body : List Byte) (s : State) : Host.Outcome State Fault Refusal := request 0x15 tag body s

/-! ## The network model (04) -/

/-- DEFINE_DISTRICT (R65). -/
def execDefineDistrict (tag : Byte) (body : List Byte) (s : State) : Host.Outcome State Fault Refusal := request 0x0B tag body s

/-- DEFINE_SEGMENT (R66). -/
def execDefineSegment (tag : Byte) (body : List Byte) (s : State) : Host.Outcome State Fault Refusal := request 0x0C tag body s

/-- DEFINE_VALVE (R67). -/
def execDefineValve (tag : Byte) (body : List Byte) (s : State) : Host.Outcome State Fault Refusal := request 0x0D tag body s

/-- DEFINE_FEED (R68). -/
def execDefineFeed (tag : Byte) (body : List Byte) (s : State) : Host.Outcome State Fault Refusal := request 0x0E tag body s

/-- END_LOAD (R69). -/
def execEndLoad (tag : Byte) (body : List Byte) (s : State) : Host.Outcome State Fault Refusal := request 0x07 tag body s

/-- EDIT_SEGMENT (R75). -/
def execEditSegment (tag : Byte) (body : List Byte) (s : State) : Host.Outcome State Fault Refusal := request 0x16 tag body s

/-- EDIT_VALVE (R76). -/
def execEditValve (tag : Byte) (body : List Byte) (s : State) : Host.Outcome State Fault Refusal := request 0x17 tag body s

/-- EDIT_FEED (R77). -/
def execEditFeed (tag : Byte) (body : List Byte) (s : State) : Host.Outcome State Fault Refusal := request 0x18 tag body s

/-- VALVE_REPORT (R73). -/
def execValveReport (tag : Byte) (body : List Byte) (s : State) : Host.Outcome State Fault Refusal := request 0x19 tag body s

/-- READ_CHANGES (R80). -/
def execReadChanges (tag : Byte) (body : List Byte) (s : State) : Host.Outcome State Fault Refusal := request 0x03 tag body s

/-! ## Plans and valve operations (06) -/

/-- PLAN (R101). -/
def execPlan (tag : Byte) (body : List Byte) (s : State) : Host.Outcome State Fault Refusal := request 0x1A tag body s

/-- EXECUTE (R109). -/
def execExecute (tag : Byte) (body : List Byte) (s : State) : Host.Outcome State Fault Refusal := request 0x1B tag body s

/-- REISSUE (R118). -/
def execReissue (tag : Byte) (body : List Byte) (s : State) : Host.Outcome State Fault Refusal := request 0x1C tag body s

/-- ABORT (R119). -/
def execAbort (tag : Byte) (body : List Byte) (s : State) : Host.Outcome State Fault Refusal := request 0x1D tag body s

/-- RELEASE (R120). -/
def execRelease (tag : Byte) (body : List Byte) (s : State) : Host.Outcome State Fault Refusal := request 0x1E tag body s

/-- DROP_PLAN (R107). -/
def execDropPlan (tag : Byte) (body : List Byte) (s : State) : Host.Outcome State Fault Refusal := request 0x1F tag body s

/-- OPERATE (R122). -/
def execOperate (tag : Byte) (body : List Byte) (s : State) : Host.Outcome State Fault Refusal := request 0x20 tag body s

/-! ## Incidents (07) -/

/-- SET_RESPONSE (R135). -/
def execSetResponse (tag : Byte) (body : List Byte) (s : State) : Host.Outcome State Fault Refusal := request 0x10 tag body s

/-- CALL (R126). -/
def execCall (tag : Byte) (body : List Byte) (s : State) : Host.Outcome State Fault Refusal := request 0x21 tag body s

/-- INCIDENT_UPDATE (R141). -/
def execIncidentUpdate (tag : Byte) (body : List Byte) (s : State) : Host.Outcome State Fault Refusal := request 0x22 tag body s

/-! ## Crews (08) -/

/-- DEFINE_CREW (R145). -/
def execDefineCrew (tag : Byte) (body : List Byte) (s : State) : Host.Outcome State Fault Refusal := request 0x0F tag body s

/-- SET_DISPATCH (R148). -/
def execSetDispatch (tag : Byte) (body : List Byte) (s : State) : Host.Outcome State Fault Refusal := request 0x11 tag body s

/-- CREW_STATE (R146). -/
def execCrewState (tag : Byte) (body : List Byte) (s : State) : Host.Outcome State Fault Refusal := request 0x23 tag body s

/-- ANSWER_OFFER (R151). -/
def execAnswerOffer (tag : Byte) (body : List Byte) (s : State) : Host.Outcome State Fault Refusal := request 0x24 tag body s

/-- ASSIGN (R153). -/
def execAssign (tag : Byte) (body : List Byte) (s : State) : Host.Outcome State Fault Refusal := request 0x25 tag body s

/-- CREW_REPORT (R154). -/
def execCrewReport (tag : Byte) (body : List Byte) (s : State) : Host.Outcome State Fault Refusal := request 0x26 tag body s

/-! ## Outages (09) -/

/-- PURGE (R165). -/
def execPurge (tag : Byte) (body : List Byte) (s : State) : Host.Outcome State Fault Refusal := request 0x27 tag body s

/-- RELIGHT_REPORT (R167). -/
def execRelightReport (tag : Byte) (body : List Byte) (s : State) : Host.Outcome State Fault Refusal := request 0x28 tag body s

/-- DISMISS (R170). -/
def execDismiss (tag : Byte) (body : List Byte) (s : State) : Host.Outcome State Fault Refusal := request 0x29 tag body s

/-- CLEAR_SUSPECT (R172). -/
def execClearSuspect (tag : Byte) (body : List Byte) (s : State) : Host.Outcome State Fault Refusal := request 0x2A tag body s

/-! ## The panel and supervision (10) -/

/-- LAMP_FORCE (R177). -/
def execLampForce (tag : Byte) (body : List Byte) (s : State) : Host.Outcome State Fault Refusal := request 0x2B tag body s

/-- LAMP_TEST (R177). -/
def execLampTest (tag : Byte) (body : List Byte) (s : State) : Host.Outcome State Fault Refusal := request 0x2C tag body s

/-- SILENCE (R178). -/
def execSilence (tag : Byte) (body : List Byte) (s : State) : Host.Outcome State Fault Refusal := request 0x2D tag body s

/-- SET_SUPERVISION (R179). -/
def execSetSupervision (tag : Byte) (body : List Byte) (s : State) : Host.Outcome State Fault Refusal := request 0x2E tag body s

/-- KEEPALIVE (R179). -/
def execKeepalive (tag : Byte) (body : List Byte) (s : State) : Host.Outcome State Fault Refusal := request 0x2F tag body s

end Sys2Proof.Machine
end

