-- ==== Sys2Proof/Machine/Dispatch.lean ====
section
/-!
DEFINITION. The meaning of each command: one arm for each constructor, one call of its meaning.
-/

namespace Sys2Proof.Machine

/-- The command's effect on everything but the queue. -/
def exec (i : Instr) (s : State) : Host.Outcome State Fault Refusal :=
  match i with
  | .powerOnReset supply lr1 lr0 => Sys2Proof.Machine.execPowerOnReset supply lr1 lr0 s
  | .frameReceived b => Sys2Proof.Machine.execFrameReceived b s
  | .frameAbandoned b stopLow => Sys2Proof.Machine.execFrameAbandoned b stopLow s
  | .receiveGapTimeout => Sys2Proof.Machine.execReceiveGapTimeout s
  | .transmitEnd => Sys2Proof.Machine.execTransmitEnd s
  | .unknownKind low tag body => Sys2Proof.Machine.execUnknownKind low tag body s
  | .status tag body => Sys2Proof.Machine.execStatus tag body s
  | .readTable tag body => Sys2Proof.Machine.execReadTable tag body s
  | .readChanges tag body => Sys2Proof.Machine.execReadChanges tag body s
  | .setNotices tag body => Sys2Proof.Machine.execSetNotices tag body s
  | .restart tag body => Sys2Proof.Machine.execRestart tag body s
  | .beginLoad tag body => Sys2Proof.Machine.execBeginLoad tag body s
  | .endLoad tag body => Sys2Proof.Machine.execEndLoad tag body s
  | .setLine tag body => Sys2Proof.Machine.execSetLine tag body s
  | .defineOutstation tag body => Sys2Proof.Machine.execDefineOutstation tag body s
  | .definePoint tag body => Sys2Proof.Machine.execDefinePoint tag body s
  | .defineDistrict tag body => Sys2Proof.Machine.execDefineDistrict tag body s
  | .defineSegment tag body => Sys2Proof.Machine.execDefineSegment tag body s
  | .defineValve tag body => Sys2Proof.Machine.execDefineValve tag body s
  | .defineFeed tag body => Sys2Proof.Machine.execDefineFeed tag body s
  | .defineCrew tag body => Sys2Proof.Machine.execDefineCrew tag body s
  | .setResponse tag body => Sys2Proof.Machine.execSetResponse tag body s
  | .setDispatch tag body => Sys2Proof.Machine.execSetDispatch tag body s
  | .holdLine tag body => Sys2Proof.Machine.execHoldLine tag body s
  | .freeLine tag body => Sys2Proof.Machine.execFreeLine tag body s
  | .ackPoint tag body => Sys2Proof.Machine.execAckPoint tag body s
  | .setBands tag body => Sys2Proof.Machine.execSetBands tag body s
  | .editSegment tag body => Sys2Proof.Machine.execEditSegment tag body s
  | .editValve tag body => Sys2Proof.Machine.execEditValve tag body s
  | .editFeed tag body => Sys2Proof.Machine.execEditFeed tag body s
  | .valveReport tag body => Sys2Proof.Machine.execValveReport tag body s
  | .plan tag body => Sys2Proof.Machine.execPlan tag body s
  | .execute tag body => Sys2Proof.Machine.execExecute tag body s
  | .reissue tag body => Sys2Proof.Machine.execReissue tag body s
  | .abort tag body => Sys2Proof.Machine.execAbort tag body s
  | .release tag body => Sys2Proof.Machine.execRelease tag body s
  | .dropPlan tag body => Sys2Proof.Machine.execDropPlan tag body s
  | .operate tag body => Sys2Proof.Machine.execOperate tag body s
  | .call tag body => Sys2Proof.Machine.execCall tag body s
  | .incidentUpdate tag body => Sys2Proof.Machine.execIncidentUpdate tag body s
  | .crewState tag body => Sys2Proof.Machine.execCrewState tag body s
  | .answerOffer tag body => Sys2Proof.Machine.execAnswerOffer tag body s
  | .assign tag body => Sys2Proof.Machine.execAssign tag body s
  | .crewReport tag body => Sys2Proof.Machine.execCrewReport tag body s
  | .purge tag body => Sys2Proof.Machine.execPurge tag body s
  | .relightReport tag body => Sys2Proof.Machine.execRelightReport tag body s
  | .dismiss tag body => Sys2Proof.Machine.execDismiss tag body s
  | .clearSuspect tag body => Sys2Proof.Machine.execClearSuspect tag body s
  | .lampForce tag body => Sys2Proof.Machine.execLampForce tag body s
  | .lampTest tag body => Sys2Proof.Machine.execLampTest tag body s
  | .silence tag body => Sys2Proof.Machine.execSilence tag body s
  | .setSupervision tag body => Sys2Proof.Machine.execSetSupervision tag body s
  | .keepalive tag body => Sys2Proof.Machine.execKeepalive tag body s
  | .quietTimeEnd line => Sys2Proof.Machine.execQuietTimeEnd line s
  | .fieldFrameSent line => Sys2Proof.Machine.execFieldFrameSent line s
  | .replyWindowExpiry line => Sys2Proof.Machine.execReplyWindowExpiry line s
  | .replyGapTimeout line => Sys2Proof.Machine.execReplyGapTimeout line s
  | .fieldReplyReceived line b stopLow => Sys2Proof.Machine.execFieldReplyReceived line b stopLow s
  | .cyclePeriodExpiry line => Sys2Proof.Machine.execCyclePeriodExpiry line s
  | .rideThroughExpiry point => Sys2Proof.Machine.execRideThroughExpiry point s
  | .jobStart => Sys2Proof.Machine.execJobStart s
  | .supplyTraceComplete => Sys2Proof.Machine.execSupplyTraceComplete s
  | .planJobComplete => Sys2Proof.Machine.execPlanJobComplete s
  | .travelExpiry valve => Sys2Proof.Machine.execTravelExpiry valve s
  | .escalation incident => Sys2Proof.Machine.execEscalation incident s
  | .offerExpiry crew => Sys2Proof.Machine.execOfferExpiry crew s
  | .packAcknowledge => Sys2Proof.Machine.execPackAcknowledge s
  | .lampTestExpiry => Sys2Proof.Machine.execLampTestExpiry s
  | .keepaliveExpiry => Sys2Proof.Machine.execKeepaliveExpiry s
  | .receivedByte b stopLow => Sys2Proof.Machine.execReceivedByte b stopLow s
  | .fieldReplyByte line b stopLow => Sys2Proof.Machine.execFieldReplyByte line b stopLow s
  | .packLowLevel => Sys2Proof.Machine.execPackLowLevel s
  | .packReturnHigh => Sys2Proof.Machine.execPackReturnHigh s

end Sys2Proof.Machine
end

