-- ==== Sys2Proof/Machine/Tick.lean ====
section
/-!
DEFINITION. The passing of time (notes/assumptions/1.md).
-/

namespace Sys2Proof.Machine

/-- One unit of time passes: nothing but the clock moves, and what falls due at it comes as a command of its own. -/
def tick (s : State) : State := { s with part := { s.part with clock := s.part.clock + 1 } }

end Sys2Proof.Machine
end

