-- ==== Sys2Proof/Safety.lean ====
section
/-!
DEFINITION. What statements about the part are said in: the legal states, the reply of a request, and the answer that an
execution comes to.
-/

namespace Sys2Proof.Machine

/-! ## Legal states -/

/-- The link's queues, numbers and counts stay in their ranges: 64 notices (R11), three LINK_FULL replies (R6), a number
below 256 (R12), counts up to 65,535 (R4, R11); a request waits only behind another (R6). -/
def Link.inRange (l : Link) : Prop :=
  l.notices.length ≤ noticeRoom ∧ l.linkFulls ≤ linkFullRoom ∧ l.seq < 256 ∧ l.errorCount ≤ maxCount ∧
    l.lostCount ≤ maxCount ∧ (l.executing = none → l.waiting = none)

/-- Between events the request in the executing slot has had its reply made (R7), and nothing waits to be sent while the
transmitter is idle (R10). -/
def Link.settled (l : Link) : Prop :=
  (∀ e, l.executing = some e → e.replied = true) ∧ (l.tx = none → l.replies = [] ∧ l.notices = [])

/-- A line's command queue, command run and cycle number stay in their ranges (02, section 2.5; R28, R30). -/
def Line.inRange (l : Line) : Prop := l.queue.length ≤ commandRoom ∧ l.run ≤ maxRun ∧ l.cycle < 8

/-- Every line in its ranges. -/
def Lines.inRange (ls : Lines) : Prop := ls.fl0.inRange ∧ ls.fl1.inRange ∧ ls.fl2.inRange ∧ ls.fl3.inRange

/-- Every table in its canonical form: ids strictly rising, each below the size of the table (00, Identifiers; 04,
section 4.1; R16; lamps 0–35, R177). -/
def Part.tablesOk (p : Part) : Prop :=
  p.outstations.wf 64 = true ∧ p.points.wf 256 = true ∧ p.segments.wf 512 = true ∧ p.valves.wf 768 = true ∧
    p.feeds.wf 64 = true ∧ p.districts.wf 32 = true ∧ p.plans.wf 16 = true ∧ p.register.calls.wf 256 = true ∧
    p.register.incidents.wf 128 = true ∧ p.dispatch.crews.wf 48 = true ∧ p.outages.wf 64 = true ∧
    p.panel.forces.wf 36 = true

/-- The legal states of the part, as the spec's ranges give them. -/
structure Part.Legal (p : Part) : Prop where
  link : p.link.inRange
  settled : p.link.settled
  lines : p.lines.inRange
  tables : p.tablesOk

/-- No OPEN is under way on a held valve, and the valves that a RELEASING plan still reopens have no holder (R110,
R118, R121). -/
structure Part.HoldsKept (p : Part) : Prop where
  noOpen : ∀ v valve, p.valves.get? v = some valve → valve.holders ≠ [] →
    ∀ o, valve.operation = some o → o.action = .toOpen → o.live = false
  released : ∀ id q, p.plans.get? id = some q → q.state = .releasing →
    ∀ v ∈ q.releaseList, ∀ valve, p.valves.get? v = some valve → valve.holders = []

/-! ## Records that agree with one another -/

/-- The members of an outage (R160). -/
def Part.membersOf (p : Part) (outage : Nat) : List Segment :=
  (p.segments.entries.map (·.2)).filter fun x => x.outage = some outage

/-- A segment has an outage exactly when it is not SUPPLIED, and that outage is ACTIVE; an outage's counts are the sums
over its members, and it is ACTIVE while it has some; only premises of PURGED and RELIGHTING segments are relit (R160,
R164, R169). -/
structure Part.OutagesAgree (p : Part) : Prop where
  member : ∀ id x, p.segments.get? id = some x → (x.outage.isSome = true ↔ x.supply ≠ .supplied)
  active : ∀ id x o, p.segments.get? id = some x → x.outage = some o → ∃ r, p.outages.get? o = some r ∧ r.ended = none
  relit : ∀ id x, p.segments.get? id = some x →
    x.relit ≤ x.customers ∧ (x.relit ≠ 0 → x.supply = .purged ∨ x.supply = .relighting)
  sums : ∀ o r, p.outages.get? o = some r → r.members = (p.membersOf o).length ∧
    r.customersOff = ((p.membersOf o).map (·.customers)).sum ∧ r.priorityOff = ((p.membersOf o).map (·.priority)).sum ∧
    r.customersRelit = ((p.membersOf o).map (·.relit)).sum
  ended : ∀ o r, p.outages.get? o = some r → (r.ended = none ↔ r.members ≠ 0)

/-- A district's counts: its incidents that are not CLOSED, the ACTIVE outages with a member in it, and its SUSPECT
segments (R78). -/
def Part.DistrictsAgree (p : Part) : Prop :=
  ∀ d r, p.districts.get? d = some r →
    r.openIncidents = p.register.incidents.count (fun _ i => decide (i.district = d ∧ i.state ≠ .closed)) ∧
    r.activeOutages = p.outages.count (fun o x => x.ended.isNone && p.memberIn o d) ∧
    r.suspects = p.segments.count (fun _ x => decide (x.district = d) && x.suspect)

/-- A plan is a holder of exactly the valves of its lists, while it is EXECUTING, BLOCKED or ISOLATED; the job queue holds
each REQUESTED plan once, and the engine's plan is COMPUTING (R87, R97, R109). -/
structure Part.PlansAgree (p : Part) : Prop where
  holders : ∀ v valve id, p.valves.get? v = some valve → (id ∈ valve.holders ↔
    ∃ q, p.plans.get? id = some q ∧ (q.state = .executing ∨ q.state = .blocked ∨ q.state = .isolated) ∧
      (v ∈ q.closeList ∨ v ∈ q.holdList))
  queued : p.trace.planQueue.Nodup
  requested : ∀ id, id ∈ p.trace.planQueue ↔ ∃ q, p.plans.get? id = some q ∧ q.state = .requested
  computing : ∀ id, p.trace.engine = .planJob id ↔ ∃ q, p.plans.get? id = some q ∧ q.state = .computing

/-- At most one incident that is not CLOSED names any one segment, or without one any one district; an occupied call slot
stands in the call list of the incident that it names, which is not CLOSED, and in no other (R128, R130, R142). -/
structure Part.IncidentsAgree (p : Part) : Prop where
  one : ∀ a b i j, p.register.incidents.get? a = some i → p.register.incidents.get? b = some j → i.state ≠ .closed →
    j.state ≠ .closed → i.segment = j.segment → (i.segment = none → i.district = j.district) → a = b
  listed : ∀ n c, p.register.calls.get? n = some c →
    ∃ i, p.register.incidents.get? c.incident = some i ∧ n ∈ i.calls ∧ i.state ≠ .closed
  named : ∀ id i, p.register.incidents.get? id = some i → i.calls.Nodup ∧ i.calls.length ≤ 16 ∧
    ∀ n ∈ i.calls, ∃ c, p.register.calls.get? n = some c ∧ c.incident = id

/-- Each item is offered to or held by at most one crew, a crew has a job exactly while it is OFFERED, ASSIGNED or ON_SITE,
and an incident or a relight under offer waits for a crew (R145, R147). -/
structure Part.CrewsAgree (p : Part) : Prop where
  one : ∀ a b c d j, p.dispatch.crews.get? a = some c → p.dispatch.crews.get? b = some d → c.job = some j →
    d.job = some j → a = b
  busy : ∀ a c, p.dispatch.crews.get? a = some c →
    (c.job.isSome = true ↔ c.state = .offered ∨ c.state = .assigned ∨ c.state = .onSite)
  leaks : ∀ a c i, p.dispatch.crews.get? a = some c → c.state = .offered → c.job = some ⟨.leak, i⟩ →
    ∃ x, p.register.incidents.get? i = some x ∧ x.state = .opened
  relights : ∀ a c i, p.dispatch.crews.get? a = some c → c.state = .offered → c.job = some ⟨.relight, i⟩ →
    ∃ x, p.segments.get? i = some x ∧ x.supply = .purged

/-- Outside RUNNING the part has no plan, incident, call or outage and nobody at work, every line is STOPPED, and nothing
is owed or timed (R14, R22, R42, R45, R70, R82, R100, R125, R144, R159, R174). -/
structure Part.AtRest (p : Part) : Prop where
  plans : p.plans.entries = []
  incidents : p.register.incidents.entries = []
  calls : p.register.calls.entries = []
  outages : p.outages.entries = []
  crews : ∀ a c, p.dispatch.crews.get? a = some c → c.job = none
  segments : ∀ id x, p.segments.get? id = some x → x.supply = .supplied ∧ x.suspect = false
  engine : p.trace.engine = .idle ∧ p.trace.pendingCause = none
  points : ∀ id pt, p.points.get? id = some pt → ∀ seg c st, pt.body = .pressure seg c st → st.candidate = none
  lines : ∀ n, (p.line n).cond = .stopped ∧ (p.line n).txn? = none

/-- The records of the part agree with one another. -/
structure Part.RecordsAgree (p : Part) : Prop where
  tables : p.tablesOk
  outages : p.OutagesAgree
  districts : p.DistrictsAgree
  plans : p.PlansAgree
  incidents : p.IncidentsAgree
  crews : p.CrewsAgree
  rest : p.link.partState ≠ .running → p.AtRest

/-! ## Requests -/

/-- A reply has been made: it waits in the reply queue or is being sent (R9, R10). -/
def Link.made (l : Link) (r : Reply) : Prop := r ∈ l.replies ∨ l.tx = some (.reply r)

/-- The part as a request's execution begins on it: the request stands in the executing slot (R6). -/
def State.begun (s : State) (kind : Nat) (tag : Byte) (body : List Byte) : Part :=
  { s.part with link := s.part.link.begin ⟨kind, tag, body⟩ }

/-- The state after a request's execution that leaves a part and makes a reply (R7, R9). -/
def State.answered (s : State) (p : Part) (status : Status) (result : List Byte) : State :=
  { s with part := { p with link := p.link.answer status result } }

/-- The state with another part, its queue as it was. -/
def State.withPart (s : State) (p : Part) : State := { s with part := p }

/-- The part with another link. -/
def Part.withLink (p : Part) (l : Link) : Part := { p with link := l }

/-- The state with another link, the rest of it as it was. -/
def State.withLink (s : State) (l : Link) : State := s.withPart (s.part.withLink l)

/-- A request may begin at once: the executing slot is empty (R6). -/
def State.slotFree (s : State) : Prop := s.part.link.executing = none

/-- The part is RUNNING and a request may begin at once. -/
def State.ready (s : State) : Prop := s.slotFree ∧ s.part.link.partState = .running

/-- The part is LOADING and a request may begin at once. -/
def State.loading (s : State) : Prop := s.slotFree ∧ s.part.link.partState = .loading

/-- A status is a refusal: its code lies from 0x10 up (R9). -/
def Status.refusal (st : Status) : Bool := decide (0x10 ≤ st.code)

/-- The states that admit a request kind (R14); none for a kind that is not in the table of request kinds. -/
def admission (kind : Nat) (st : PartState) : Option Bool :=
  if kind = 0 || 0x2F < kind then none
  else if [0x01, 0x02, 0x04, 0x05].contains kind then some true
  else if kind = 0x06 then some (st == .unloaded)
  else if kind = 0x07 || (0x09 ≤ kind && kind ≤ 0x0F) then some (st == .loading)
  else if kind = 0x08 || kind = 0x10 || kind = 0x11 then some (st != .unloaded)
  else some (st == .running)

/-- Bytes received on RXD one after another, none with a framing error. -/
def Part.receives (p : Part) (bs : List Byte) : Part := bs.foldl (fun p b => receiveByte ⟨b, false⟩ p) p

/-- No received byte of a list can start a candidate frame (R3). -/
def noStart (rx : List RxByte) : Prop := ∀ x ∈ rx, x.byte ≠ linkStart ∨ x.stopLow = true

/-- The link with the receiver HUNTING after a byte or an abandonment: an empty buffer, a time and an error count. -/
def Link.hunting (l : Link) (lastRx errors : Nat) : Link := { l with rxBuffer := [], lastRx := lastRx, errorCount := errors }

/-- The segment part of a body: the presence byte and the id, any two bytes standing in place of an absent one
(00, Values on the links). -/
def segmentBytes (seg : Option Nat) (spare : Byte × Byte) : List Byte :=
  match seg with
  | none => [0, spare.1, spare.2]
  | some n => 1 :: be16 n

/-! ## The network -/

/-- Gas reaches a segment over a view: a live feed supplies it, or an open valve of a reached segment leads to it (R91,
R92). -/
inductive Reaches (p : Part) (w : View) : Nat → Prop where
  | feed (f : Nat) (fd : Feed) (hf : f ∈ w.liveFeeds) (hg : p.feeds.get? f = some fd) : Reaches p w fd.segment
  | valve (a v : Nat) (valve : Valve) (ha : Reaches p w a) (hv : v ∈ p.valveList a)
      (hg : p.valves.get? v = some valve) (ho : w.isOpen v = true) : Reaches p w (valve.otherEnd a)

/-- Gas reaches a segment over a view with some valves taken as CLOSED and some segments kept out: the impact trace of a
plan, with its close list and its area (R105). -/
inductive ReachesPast (p : Part) (w : View) (shut kept : List Nat) : Nat → Prop where
  | feed (f : Nat) (fd : Feed) (hf : f ∈ w.liveFeeds) (hg : p.feeds.get? f = some fd) (hk : fd.segment ∉ kept) :
      ReachesPast p w shut kept fd.segment
  | valve (a v : Nat) (valve : Valve) (ha : ReachesPast p w shut kept a) (hv : v ∈ p.valveList a)
      (hg : p.valves.get? v = some valve) (ho : w.isOpen v = true) (hs : v ∉ shut) (hk : valve.otherEnd a ∉ kept) :
      ReachesPast p w shut kept (valve.otherEnd a)

/-- Every valve's ends and every feed's segment are defined, as END_LOAD tests (R69). -/
def Part.endsDefined (p : Part) : Prop :=
  (∀ v valve, p.valves.get? v = some valve → p.segments.has valve.endA = true ∧ p.segments.has valve.endB = true) ∧
    ∀ f fd, p.feeds.get? f = some fd → p.segments.has fd.segment = true

/-- The settings of a pressure point are ordered, in whole numbers (R44). -/
def PressureSettings.Ordered (c : PressureSettings) : Prop :=
  c.z < c.f ∧ c.p0 < c.p1 ∧ c.l2 < c.l1 ∧ c.l1 < c.h1 ∧ c.h1 < c.h2 ∧ (c.hyst : Int) < c.l1 - c.l2 ∧
    (c.hyst : Int) < c.h2 - c.h1 ∧ (c.l1 : Int) + c.hyst < c.h1 - c.hyst

/-- The description that END_LOAD asks for: everything named is defined and of the right kind, a valve stands in the
lists of its two ends and a list holds valves of its segment alone, and nothing is shared or too many (R44, R69). -/
structure Part.Described (p : Part) : Prop where
  points : ∀ id pt, p.points.get? id = some pt →
    p.outstations.has pt.outstation = true ∧ p.districts.has pt.district = true ∧
      ∀ seg c st, pt.body = .pressure seg c st → (∃ o, p.outstations.get? pt.outstation = some o ∧ o.kind = .station) ∧
        (∀ x, seg = some x → p.segments.has x = true) ∧ c.Ordered
  watched : ∀ x, (p.points.count fun _ pt => pt.names x) ≤ 4
  segments : ∀ id x, p.segments.get? id = some x → p.districts.has x.district = true ∧
    ∀ v ∈ x.valves, ∃ valve, p.valves.get? v = some valve ∧ (valve.endA = id ∨ valve.endB = id)
  valves : ∀ v valve, p.valves.get? v = some valve →
    (∃ a b, p.segments.get? valve.endA = some a ∧ p.segments.get? valve.endB = some b ∧ v ∈ a.valves ∧ v ∈ b.valves) ∧
      (valve.actuated = true → ∃ o, p.outstations.get? valve.outstation = some o ∧ o.kind = .actuator)
  slots : ∀ v w a b, p.valves.get? v = some a → p.valves.get? w = some b → a.actuated = true → b.actuated = true →
    a.outstation = b.outstation → a.slot = b.slot → v = w
  feeds : ∀ f fd, p.feeds.get? f = some fd → p.segments.has fd.segment = true ∧
    ∀ id, fd.outlet = some id → ∃ pt seg c st, p.points.get? id = some pt ∧ pt.body = .pressure seg c st
  fed : ∀ x, (p.feeds.count fun _ fd => decide (fd.segment = x)) ≤ 4
  lamps : ∀ d e a b, p.districts.get? d = some a → p.districts.get? e = some b → a.lamp = b.lamp → d = e
  homes : ∀ id c, p.dispatch.crews.get? id = some c → p.districts.has c.home = true

/-! ## Points and field replies -/

/-- A point after its sample of a good DATA reply (R46, R48, R57). -/
def Point.sampled (d : ReplyData) (now : Nat) (pt : Point) : Point :=
  match pt.body with
  | .pressure seg c st => match d.counts[pt.input]? with
    | none => pt
    | some count =>
      let r := pressureSample c now pt.quality st count
      { pt with quality := r.1, body := .pressure seg c r.2 }
  | .discrete x => { pt with quality := .good, body := .discrete (discreteSample x (d.word.getLsbD pt.input)).1 }

/-- A frame is a well-formed reply to a transaction with an outstation of a kind, and what it says (02, section 2.3;
R26). -/
inductive Txn.Answers (t : Txn) (kind : OsKind) : List Byte → Outcome → Prop where
  | station (counts : List Nat) (word : BitVec 16) : t.isCommand = false → kind = .station → counts.length = 8 →
      (∀ c ∈ counts, c ≤ 4095) → Answers t kind
        (fieldFrame (byte (t.outstation % 16 + 1)) 0x81 (counts.flatMap be16 ++ be16 word.toNat))
        (.data (.station counts word))
  | actuator (slots : List Byte) (word : BitVec 16) : t.isCommand = false → kind = .actuator → slots.length = 4 →
      Answers t kind (fieldFrame (byte (t.outstation % 16 + 1)) 0x81 (slots ++ be16 word.toNat))
        (.data (.actuator (slots.map slotStatus) word))
  | accept : t.isCommand = true → Answers t kind (fieldFrame (byte (t.outstation % 16 + 1)) 0x82 [flag t.bit]) .accept
  | busy : Answers t kind (fieldFrame (byte (t.outstation % 16 + 1)) 0x8E []) .busy
  | reject : t.isCommand = true → Answers t kind (fieldFrame (byte (t.outstation % 16 + 1)) 0x8F []) .reject

/-! ## Plans that look on, and plans under way -/

/-- A plan after some valves have changed: READY and using one of them, it is STALE (R107). -/
def Plan.snooped (x : Plan) (vs : List Nat) (now : Nat) : Plan :=
  if x.state = .ready ∧ ∃ v ∈ vs, v ∈ x.closeList ∨ v ∈ x.holdList then { x with state := .stale, stateTime := now } else x

/-- A plan after some valves have left its release list: RELEASING, it goes FREE with the last of them (R121). -/
def Plan.without (x : Plan) (vs : List Nat) : Option Plan :=
  let rest := x.releaseList.filter fun v => !vs.contains v
  if x.state = .releasing ∧ rest ≠ x.releaseList then (if rest = [] then none else some { x with releaseList := rest })
  else some x

/-- The trace engine after an event that has changed some valves: while a plan job runs they are in the change set
(R89). -/
def Trace.Entered (t u : Trace) (vs : List Nat) : Prop :=
  u = { t with changeSet := u.changeSet } ∧
    ∀ v, v ∈ u.changeSet ↔ v ∈ t.changeSet ∨ (v ∈ vs ∧ ∃ id, t.engine = .planJob id)

/-- Every valve of a list has last end position CLOSED (R117). -/
abbrev Part.shut (p : Part) (vs : List Nat) : Prop := ∀ v ∈ vs, p.lastEnd? v = some .closed

/-- An incident that the isolation of its plan makes safe (R117). -/
abbrev Incident.exposed (i : Incident) : Prop := i.state = .opened ∨ i.state = .assigned ∨ i.state = .onSite

/-- The incident of a plan that has gone ISOLATED is MADE_SAFE, if it was exposed (R117, R134). -/
def Part.MadeSafe (p q : Part) (x : Plan) : Prop :=
  ∀ i inc, x.incident = some i → p.register.incidents.get? i = some inc → inc.exposed →
    ∃ link, q.register.incidents.get? i = some { inc with
      state := .madeSafe, stateTime := p.time, nextEscalation := none, planLink := link }

/-- A PENDING CLOSE, which entry to ISOLATED cancels (R117). -/
abbrev Operation.closePending (o : Operation) : Prop := o.action = .toClose ∧ o.state = .pending

/-! ## Commands of operations, and deadlines brought forward -/

/-- The part after a plan has ordered an action on some valves, one after another (R109, R118, R120). -/
def Part.ordered (p : Part) (id : Nat) (a : Action) (vs : List Nat) : Part :=
  vs.foldl (fun r v => orderOp v a (.plan id) r) p

/-- The part after the operations of a plan on some valves that pass a test have been cancelled, one after another
(R117, R119). -/
def Part.cancelled (p : Part) (id : Nat) (vs : List Nat) (f : Operation → Bool) : Part :=
  (vs.filter fun v => (p.op? v).any fun o => decide (o.origin = .plan id) && f o).foldl (fun r v => cancelOp v r) p

/-- Two parts have the same lines, with their command queues, the same outstations and the same operations. -/
def Part.operatesAs (q r : Part) : Prop :=
  q.lines = r.lines ∧ q.outstations = r.outstations ∧ ∀ v, q.op? v = r.op? v

/-- An incident's level and next escalation after an event that may have brought its deadline forward (R140; of a
deadline left as it was notes/assumptions/33.md). -/
def Part.Followed (p : Part) (old now : Incident) : Prop :=
  let follows := now.deadline < old.deadline ∧ old.level = 0 ∧ (old.state = .opened ∨ old.state = .assigned)
  (¬ follows → now.level = old.level ∧ now.nextEscalation = old.nextEscalation) ∧
  (follows → p.time < now.deadline → now.level = 0 ∧ now.nextEscalation = some now.deadline) ∧
  (follows → now.deadline ≤ p.time → now.level = 1 ∧ now.nextEscalation = some (p.time + 60 * p.register.interval))

/-- A confirmation for a segment raises an incident: a LEAK of the segment, OPEN, ASSIGNED or ON_SITE, below grade A
(R137). -/
def Incident.RaisedFor (i : Incident) (segment : Nat) : Prop :=
  i.kind = .leak ∧ i.segment = some segment ∧ (i.state = .opened ∨ i.state = .assigned ∨ i.state = .onSite) ∧ i.grade ≠ .a

/-- The segment that a point begins confirming for as it changes (R51). -/
def Point.beginsFor (before after : Point) : Option Nat :=
  let confirms := fun (st : PressureState) => st.falling && decide (st.band = .low ∨ st.band = .lowTrip)
  match before.body, after.body with
  | .pressure seg _ st, .pressure _ _ st' => if !confirms st && confirms st' then seg else none
  | _, _ => none

/-- The incidents after pressure confirmations for some segments: the one raised for such a segment is of grade A, with
the earlier deadline and what follows it, and every other is as before (R137, R140). -/
def Part.Confirmed (p q : Part) (segments : Nat → Prop) : Prop :=
  q.register = { p.register with incidents := q.register.incidents } ∧
  (∀ id, p.register.incidents.get? id = none → q.register.incidents.get? id = none) ∧
  ∀ id i, p.register.incidents.get? id = some i →
    ((∀ n, segments n → ¬ i.RaisedFor n) → q.register.incidents.get? id = some i) ∧
    ∀ n, segments n → i.RaisedFor n → (∀ k j, p.register.incidents.get? k = some j → j.RaisedFor n → k = id) →
      ∃ now, q.register.incidents.get? id = some now ∧ p.Followed i now ∧ now = { i with
        grade := .a, deadline := min i.deadline (i.openedTime + p.response .a)
        level := now.level, nextEscalation := now.nextEscalation }

/-! ## Crews and their jobs -/

/-- An item stands no later than another in the order of their class (R147). -/
def Part.noLater (p : Part) : JobClass → Nat → Nat → Prop
  | .leak, i, j => ∀ a b, p.register.incidents.get? i = some a → p.register.incidents.get? j = some b →
    a.grade.code < b.grade.code ∨
      (a.grade = b.grade ∧ (a.deadline < b.deadline ∨ (a.deadline = b.deadline ∧ i ≤ j)))
  | .valve, i, j => ∀ a b, p.op? i = some a → p.op? j = some b →
    match a.origin, b.origin with
    | .plan _, .host => True
    | .host, .plan _ => False
    | .plan q, .plan r => q < r ∨
      (q = r ∧ (p.closeIndex q i < p.closeIndex q j ∨ (p.closeIndex q i = p.closeIndex q j ∧ i ≤ j)))
    | .host, .host => a.ordered < b.ordered ∨ (a.ordered = b.ordered ∧ i ≤ j)
  | .relight, i, j => ∀ a b, p.segments.get? i = some a → p.segments.get? j = some b →
    (0 < a.priority ∧ b.priority = 0) ∨
      ((0 < a.priority ↔ 0 < b.priority) ∧
        (a.outage.getD 0 < b.outage.getD 0 ∨ (a.outage.getD 0 = b.outage.getD 0 ∧ i ≤ j)))

/-- The link after one segment's changed mark is set: SUPPLY_CHANGED is placed when no segment was marked (R79). -/
def Part.linkMarked (p : Part) (segment : Nat) : Link :=
  if p.segments.any fun _ x => x.changed then p.link else p.link.place p.time (.supplyChanged segment)

/-- A job is handed to the block that owns it as a crew takes it: what becomes of the incident, the operation or the
segment, and nothing else (R133, R151, R153). -/
structure Part.Handed (p q : Part) (crew : Nat) (j : Job) (cause : IncidentCause) : Prop where
  rest : q = { p with register := q.register, valves := q.valves, segments := q.segments, panel := q.panel, link := q.link }
  leak : ∀ i, j.cls = .leak → p.register.incidents.get? j.item = some i →
    q.register = { p.register with
      incidents := p.register.incidents.set j.item
        { i with state := .assigned, stateTime := p.time, crew := some crew } } ∧
    q.valves = p.valves ∧ q.segments = p.segments ∧
    q.link = p.link.place p.time (.incidentState j.item i.state .assigned cause (some crew))
  valve : ∀ v o, j.cls = .valve → p.valves.get? j.item = some v → v.operation = some o → o.mode = .crew →
    o.state = .pending →
    q.valves = p.valves.set j.item
      { v with operation := some { o with state := .acting, stateTime := p.time, travelExpiry := none } } ∧
    q.register = p.register ∧ q.segments = p.segments ∧ q.panel = p.panel ∧ q.link = p.link
  relight : ∀ x, j.cls = .relight → p.segments.get? j.item = some x →
    q.segments = p.segments.set j.item { x with supply := .relighting, changed := true } ∧
    q.register = p.register ∧ q.valves = p.valves ∧ q.panel = p.panel ∧ q.link = p.linkMarked j.item

/-- A job is handed back to the block that owns it as its crew leaves it, with the job that is demand again, if any: what
becomes of the incident, the operation or the segment, and nothing else (R133, R155). -/
structure Part.HandedBack (p q : Part) (j : Job) (returned : Option Job) : Prop where
  rest : q = { p with register := q.register, valves := q.valves, segments := q.segments, panel := q.panel, link := q.link }
  leak : ∀ i, j.cls = .leak → p.register.incidents.get? j.item = some i → q.valves = p.valves ∧ q.segments = p.segments ∧
    (i.state = .assigned → returned = some j ∧
      q.register = { p.register with
        incidents := p.register.incidents.set j.item
          { i with state := .opened, stateTime := p.time, crew := none } } ∧
      q.link = p.link.place p.time (.incidentState j.item .assigned .opened .crew none)) ∧
    (i.state ≠ .assigned → returned = none ∧ q.link = p.link ∧
      q.register = { p.register with
        incidents := p.register.incidents.set j.item { i with crew := none } })
  valve : ∀ v, j.cls = .valve → p.valves.get? j.item = some v →
    q.register = p.register ∧ q.segments = p.segments ∧ q.panel = p.panel ∧ q.link = p.link ∧
    (∀ o, v.operation = some o → o.state = .acting → returned = some j ∧ q.valves = p.valves.set j.item
      { v with operation := some { o with state := .pending, stateTime := p.time, travelExpiry := none } }) ∧
    ((∀ o, v.operation = some o → o.state ≠ .acting) → returned = none ∧ q.valves = p.valves)
  relight : ∀ x, j.cls = .relight → p.segments.get? j.item = some x →
    q.register = p.register ∧ q.valves = p.valves ∧ q.panel = p.panel ∧
    (x.supply = .relighting → returned = some j ∧ q.link = p.linkMarked j.item ∧
      q.segments = p.segments.set j.item { x with supply := .purged, changed := true }) ∧
    (x.supply ≠ .relighting → returned = none ∧ q.link = p.link ∧ q.segments = p.segments)

/-- The crews after some jobs have ended in their owning blocks: a crew with one of them is AVAILABLE without it, an
offer leaving its declined job as it was (R152, R156). -/
def Part.Released (p q : Part) (jobs : List Job) : Prop :=
  q.dispatch = { p.dispatch with crews := q.dispatch.crews } ∧
  (p.dispatch.crews.wf 48 = true →
    (∀ a b c d j, p.dispatch.crews.get? a = some c → p.dispatch.crews.get? b = some d → c.job = some j →
      d.job = some j → a = b) →
    ∀ k, q.dispatch.crews.get? k = (p.dispatch.crews.get? k).map fun c =>
      if (c.job.any fun j => decide (j ∈ jobs)) = true then
        if c.state = .offered then { c with state := .available, job := none, expiry := none }
        else { c with state := .available, job := none, declined := none }
      else c)

/-- A valve's record but for its operation. -/
def Part.bare (p : Part) (v : Nat) : Option Valve := (p.valves.get? v).map fun valve => { valve with operation := none }

/-! ## Commands -/

/-- A command completes: exec answers a next state. -/
def Completes (c : Instr) (s : State) : Prop := ∃ t, exec c s = .next t

end Sys2Proof.Machine
end

