-- ==== Sys2Proof/Certificates/Slice0/Obligations.lean ====
section
/-!
DEFINITION. The statements about the part for the provers, in the order of the spec's chapters: the machine as a whole,
the control link, the field lines, the points, the network and its traces, plans and operations, incidents, crews,
outages, and the panel.
-/

open Sys2Proof Sys2Proof.Machine

/-- For every command c, every rest of the queue and every part, step on a queue with c in front is exec of c with the
rest of the queue. (95, What each step holds) -/
def Obligations.StepRunsTheFrontCommand : Prop :=
  ∀ (c : Instr) (rest : List Instr) (p : Part), step ⟨c :: rest, p⟩ = exec c ⟨rest, p⟩

/-- With no command waiting, a step answers a next state in which the clock is one unit of 1/96,000 s later and
nothing else has changed. This is the model's choice (log entry 1). (00, Quantities; 95, What each step holds) -/
def Obligations.AnEmptyQueueLetsTimePass : Prop :=
  ∀ p : Part, step ⟨[], p⟩ = .next ⟨[], { p with clock := p.clock + 1 }⟩

/-- State.reset has an empty queue, is a legal state of the part, keeps the rule on holders, has records that agree
with one another, and its lamp conditions are those of its records. (01, section 1.7; 02, section 2.5; 10, section
10.1; 10, section 10.5) -/
def Obligations.ResetIsLegal : Prop :=
  State.reset.pending = [] ∧ State.reset.part.Legal ∧ State.reset.part.HoldsKept ∧ State.reset.part.RecordsAgree ∧
    State.reset.part.panel.conditions = State.reset.part.lampConditions

/-- From every legal state, a step that answers a next state gives a legal state: at most 64 notices and three
LINK_FULL replies queued, numbers and counts in range, no request waiting behind an empty slot, the reply of every
executed request made, nothing waiting behind an idle transmitter, every line's queue, run and cycle number in range,
and every table with its ids rising and below its size. (01, section 1.2; 01, section 1.3; 01, section 1.4; 02,
section 2.5; 00, Identifiers) -/
def Obligations.EveryStepKeepsTheLegalStates : Prop :=
  ∀ s t : State, s.part.Legal → step s = .next t → t.part.Legal

/-- If no valve with holders has an OPEN operation PENDING or ACTING, and no valve on the release list of a RELEASING
plan has a holder, then both are so after every step. (06, section 6.4; 06, section 6.5) -/
def Obligations.EveryStepKeepsHeldValvesShut : Prop :=
  ∀ s t : State, s.part.HoldsKept → step s = .next t → t.part.HoldsKept

/-- Every command in every state answers a next state: no command ends in a fault or a refusal of the model. That an
event before its moment, and one of a number the part does not have, completes and changes nothing is the model's
choice (log entries 5 and 27). (01, section 1.3) -/
def Obligations.EveryCommandCompletes : Prop :=
  ∀ (c : Instr) (s : State), Completes c s

/-- Whatever command runs, the clock afterwards is what it was, or the command was POWER_ON_RESET or TRANSMIT_END and
the clock is 0. Whatever command runs, the queue of commands that wait is the same after exec as before. That a
command takes no time, and that the queue is kept, also across a reset, are the model's choices (log entries 1 and
22). (00, Quantities; 01, section 1.7; 95, What each step holds) -/
def Obligations.CommandsLeaveTheClockAndTheQueue : Prop :=
  (∀ (c : Instr) (s t : State), exec c s = .next t →
      t.part.clock = s.part.clock ∨
        (t.part.clock = 0 ∧ ((∃ a b d, c = .powerOnReset a b d) ∨ c = .transmitEnd))) ∧
  (∀ (c : Instr) (s t : State), exec c s = .next t → t.pending = s.pending)

/-- From every state and for every supply indication and strap levels, POWER_ON_RESET completes with the strapped
rate, the cause, HELLO with number 0 on its way, the receiver hunting, the slots and queues empty, the number after
HELLO 1, all classes off, both counts 0, UNLOADED, part time 0, every table empty, every line stopped at its reset
settings, the engine idle, and the panel and supervision at rest. The times and line fields that the spec gives no
reset value, and the kept queue, are the model's choices (log entries 3 and 22). (01, section 1.7; 01, section 1.1;
02, section 2.9) -/
def Obligations.PowerOnResetState : Prop :=
  ∀ (supply lr1 lr0 : Bool) (s : State), ∃ t, exec (.powerOnReset supply lr1 lr0) s = .next t ∧
    t.pending = s.pending ∧
    t.part.link.rate = (if lr1 then (if lr0 then 460800 else 115200) else if lr0 then 57600 else 19200) ∧
    t.part.link.resetCause = (if supply then .power else .pin) ∧
    t.part.link.tx = some (.notice ⟨0, 0, .hello t.part.link.resetCause t.part.link.rate⟩) ∧
    t.part.link.rxBuffer = [] ∧ t.part.link.executing = none ∧ t.part.link.waiting = none ∧
    t.part.link.replies = [] ∧ t.part.link.notices = [] ∧ t.part.link.seq = 1 ∧ t.part.link.enables = 0 ∧
    t.part.link.errorCount = 0 ∧ t.part.link.lostCount = 0 ∧ t.part.link.partState = .unloaded ∧
    t.part.time = 0 ∧ t.part.outstations.ids = [] ∧ t.part.points.ids = [] ∧ t.part.segments.ids = [] ∧
    t.part.valves.ids = [] ∧ t.part.feeds.ids = [] ∧ t.part.districts.ids = [] ∧ t.part.plans.ids = [] ∧
    t.part.register = {} ∧ t.part.dispatch = {} ∧ t.part.outages.ids = [] ∧ t.part.trace = {} ∧
    (∀ n, t.part.line n = {}) ∧ t.part.panel = {}

/-- For every request and every part, if the execution comes to a refusal status, the part it leaves is the part it
found: only the reply is made. (01, section 1.3) -/
def Obligations.RefusedRequestsChangeNothing : Prop :=
  ∀ (r : Request) (p : Part), (runRequest r p).status.refusal = true → (runRequest r p).part = p

/-- The execution of a request of an unknown kind comes to UNKNOWN_KIND; of a known kind with a length it does not
allow, to BAD_LENGTH; with an allowed length in a part state that does not admit it, to REFUSED_STATE; otherwise to
the rule of its kind. A refusal carries nothing after the status and leaves the part. For each kind below 0x40 and
each part state, the part knows the kind and admits it exactly as the table of request kinds gives. (01, section 1.3;
01, section 1.5) -/
def Obligations.RequestsAreTestedInOrder : Prop :=
  (∀ (r : Request) (p : Part),
      (handlerOf r.kind = none → runRequest r p = ⟨.unknownKind, [], p⟩) ∧
      ∀ h, handlerOf r.kind = some h →
        (h.lengthOk r.body = false → runRequest r p = ⟨.badLength, [], p⟩) ∧
        (h.lengthOk r.body = true → h.admitted p.link.partState = false → runRequest r p = ⟨.refusedState, [], p⟩) ∧
        (h.lengthOk r.body = true → h.admitted p.link.partState = true → runRequest r p = h.act r.body p)) ∧
  (∀ kind, kind < 0x40 → ∀ st : PartState, ((handlerOf kind).map fun h => h.admitted st) = admission kind st)

/-- A request that arrives while another is in the executing slot waits if the waiting slot is empty. With both slots
occupied it leaves a LINK_FULL reply, or, with three of them waiting, no trace but one more link error. When the
execution of the request in the executing slot comes to a status and a result, its one reply is made, with the
request's kind and tag: it joins the tail of the replies behind a busy transmitter, and an idle transmitter with no
reply before it begins it at once. The slot stays occupied, its reply made, and nothing outside the link changes, nor
any notice, count, enable or the part state. (01, section 1.3; 01, section 1.4) -/
def Obligations.RequestsWaitAndAreAnswered : Prop :=
  (∀ (kind : Nat) (tag : Byte) (body : List Byte) (s : State) (e : ExecSlot), s.part.link.executing = some e →
      (s.part.link.waiting = none →
        request kind tag body s =
          .next (s.withLink { s.part.link with waiting := some ⟨kind, tag, body⟩ })) ∧
      ∀ w, s.part.link.waiting = some w →
        (s.part.link.linkFulls < 3 →
          request kind tag body s =
            .next (s.withLink (Link.startNext { s.part.link with
              replies := s.part.link.replies ++ [⟨kind, tag, .linkFull, []⟩] }))) ∧
        (3 ≤ s.part.link.linkFulls →
          request kind tag body s =
            .next (s.withLink { s.part.link with errorCount := min 65535 (s.part.link.errorCount + 1) }))) ∧
  (∀ (r : Request) (s : State) (p : Part) (status : Status) (result : List Byte), p.link.executing = some ⟨r, false⟩ →
      let t := s.answered p status result
      t.pending = s.pending ∧ t.part = { p with link := t.part.link } ∧
      t.part.link.executing = some ⟨r, true⟩ ∧ t.part.link.made ⟨r.kind, r.tag, status, result⟩ ∧
      t.part.link = { p.link with executing := t.part.link.executing, replies := t.part.link.replies, tx := t.part.link.tx } ∧
      (p.link.tx.isSome = true →
        t.part.link.replies = p.link.replies ++ [⟨r.kind, r.tag, status, result⟩] ∧ t.part.link.tx = p.link.tx) ∧
      (p.link.tx = none → p.link.replies = [] →
        t.part.link.replies = [] ∧ t.part.link.tx = some (.reply ⟨r.kind, r.tag, status, result⟩)))

/-- For every request kind, tag and body of up to 1,020 bytes: a hunting receiver that takes the bytes of its frame
one after another, the last as FRAME_RECEIVED, hands exactly that request to the slots and hunts again, with nothing
else changed but the time of the last byte. (01, section 1.2; 01, section 1.3) -/
def Obligations.AFrameIsReceivedWhole : Prop :=
  ∀ (kind : Nat) (tag : Byte) (body : List Byte) (s : State), 1 ≤ kind → kind ≤ 0x3F → body.length ≤ 1020 →
    s.part.link.rxBuffer = [] →
    exec (.frameReceived ((linkFrame (byte kind) tag body).getLastD 0))
        (s.withPart (s.part.receives (linkFrame (byte kind) tag body).dropLast)) =
      .next (s.withPart (requestArrives ⟨kind, tag, body⟩
        { s.part with link := { s.part.link with rxBuffer := [], lastRx := s.part.clock } }))

/-- A hunting receiver discards a byte other than 0xC3 or with a framing error, and starts a candidate with a good
0xC3. A collecting receiver, with no gap over, appends a byte that leaves the candidate open. The rest of the part is
unchanged. (01, section 1.2) -/
def Obligations.ReceivedBytesHuntAndCollect : Prop :=
  ∀ (b : Byte) (stopLow : Bool) (s : State),
    (s.part.link.rxBuffer = [] → (b ≠ 0xC3 ∨ stopLow = true) →
      exec (.receivedByte b stopLow) s =
        .next (s.withLink { s.part.link with lastRx := s.part.clock })) ∧
    (s.part.link.rxBuffer = [] → b = 0xC3 → stopLow = false →
      exec (.receivedByte b stopLow) s =
        .next (s.withLink { s.part.link with rxBuffer := [⟨0xC3, false⟩], lastRx := s.part.clock })) ∧
    (s.part.link.rxBuffer ≠ [] → s.part.link.gapOver s.part.clock = false →
      verdict (s.part.link.rxBuffer ++ [⟨b, stopLow⟩]) = .open_ →
      exec (.receivedByte b stopLow) s =
        .next (s.withLink { s.part.link with rxBuffer := s.part.link.rxBuffer ++ [⟨b, stopLow⟩], lastRx := s.part.clock }))

/-- A candidate whose newest byte fails it, or one that waits more than 20 ms for its next byte, is abandoned. When no
byte after its start can start another candidate, the link error count rises by one, saturating, the buffer is empty,
and nothing else changes. Without such a gap RECEIVE_GAP_TIMEOUT changes nothing. FRAME_RECEIVED of a byte that
completes a candidate whose kind lies outside 0x01-0x3F empties the buffer and counts one link error, and changes
nothing else. When a 0xC3 stands among the bytes after the start, the bytes from it on are examined again: a candidate
that is still open is kept, one that is complete is handed on, and one that fails, or that has already waited too
long, is abandoned and counted in its turn. That RECEIVE_GAP_TIMEOUT without a gap does nothing is the model's choice
(log entry 5); that a byte with a framing error is among those examined again is its reading (log entry 7). (01,
section 1.2) -/
def Obligations.FramesThatAreNoRequestsAreCounted : Prop :=
  ((∀ (b : Byte) (stopLow : Bool) (s : State), s.part.link.rxBuffer ≠ [] →
        (s.part.link.gapOver s.part.clock = false → verdict (s.part.link.rxBuffer ++ [⟨b, stopLow⟩]) = .bad →
          noStart ((s.part.link.rxBuffer ++ [RxByte.mk b stopLow]).drop 1) →
          exec (.frameAbandoned b stopLow) s =
            .next (s.withLink (s.part.link.hunting s.part.clock (min 65535 (s.part.link.errorCount + 1))))) ∧
        (s.part.link.gapOver s.part.clock = true → noStart (s.part.link.rxBuffer.drop 1) →
          exec .receiveGapTimeout s =
            .next (s.withLink (s.part.link.hunting s.part.link.lastRx (min 65535 (s.part.link.errorCount + 1))))) ∧
        (s.part.link.gapOver s.part.clock = false → exec .receiveGapTimeout s = .next s)) ∧
    (∀ (b : Byte) (s : State), s.part.link.rxBuffer ≠ [] → s.part.link.gapOver s.part.clock = false →
        verdict (s.part.link.rxBuffer ++ [⟨b, false⟩]) = .complete →
        ((requestOf (s.part.link.rxBuffer ++ [⟨b, false⟩])).kind = 0 ∨
          0x3F < (requestOf (s.part.link.rxBuffer ++ [⟨b, false⟩])).kind) →
        exec (.frameReceived b) s =
          .next (s.withLink (s.part.link.hunting s.part.clock (min 65535 (s.part.link.errorCount + 1)))))) ∧
  (∀ (b : Byte) (stopLow : Bool) (mid tail : List RxByte) (s : State), s.part.link.rxBuffer ≠ [] → noStart mid →
      let start : RxByte := ⟨0xC3, false⟩
      let cand := start :: tail
      let link := s.part.link
      let errors := min 65535 (link.errorCount + 1)
      (∀ k, k < tail.length → verdict (start :: tail.take k) = .open_) →
      (link.gapOver s.part.clock = false → verdict (link.rxBuffer ++ [⟨b, stopLow⟩]) = .bad →
        (link.rxBuffer ++ [RxByte.mk b stopLow]).drop 1 = mid ++ cand →
        (verdict cand = .open_ → exec (.frameAbandoned b stopLow) s =
          .next (s.withLink { link with rxBuffer := cand, lastRx := s.part.clock, errorCount := errors })) ∧
        (verdict cand = .complete → 1 ≤ (requestOf cand).kind → (requestOf cand).kind ≤ 0x3F →
          exec (.frameAbandoned b stopLow) s = .next (s.withPart (setBuffer [] (requestArrives (requestOf cand)
            (s.part.withLink { link with lastRx := s.part.clock, errorCount := errors }))))) ∧
        (verdict cand = .bad → noStart tail → exec (.frameAbandoned b stopLow) s =
          .next (s.withLink (link.hunting s.part.clock (min 65535 (errors + 1)))))) ∧
      (link.gapOver s.part.clock = true → link.rxBuffer.drop 1 = mid ++ cand → verdict cand ≠ .complete → noStart tail →
        exec .receiveGapTimeout s = .next (s.withLink (link.hunting link.lastRx (min 65535 (errors + 1))))))

/-- A notice of a disabled class changes nothing. One of an enabled class, or HELLO or HOST_RESUMED, takes the next
number of 256: behind a busy transmitter, or inside a request's execution, it joins the tail while fewer than 64 wait;
with the transmitter idle and nothing before it, it is begun at once; with 64 waiting it is discarded and the lost-
notice count rises by one, saturating. That a notice inside a request's execution waits for the reply is the model's
reading (log entry 8). (01, section 1.4) -/
def Obligations.NoticesAreNumberedQueuedOrLost : Prop :=
  ∀ (now : Nat) (n : Notice) (l : Link),
    (∀ c, n.cls = some c → l.enables.getLsbD c.bit = false → l.place now n = l) ∧
    ((∀ c, n.cls = some c → l.enables.getLsbD c.bit = true) →
      let taken : QueuedNotice := ⟨l.seq, now, n⟩
      (l.notices.length < 64 → (l.tx.isSome = true ∨ ∃ e, l.executing = some e ∧ e.replied = false) →
        l.place now n = { l with notices := l.notices ++ [taken], seq := (l.seq + 1) % 256 }) ∧
      (l.notices = [] → l.replies = [] → l.tx = none → (∀ e, l.executing = some e → e.replied = true) →
        l.place now n = { l with tx := some (.notice taken), seq := (l.seq + 1) % 256 }) ∧
      (64 ≤ l.notices.length →
        l.place now n = { l with seq := (l.seq + 1) % 256, lostCount := min 65535 (l.lostCount + 1) }))

/-- With an idle transmitter nothing happens. When a notice or a LINK_FULL reply ends, the first waiting reply is
begun, else the head notice, else the transmitter is idle. When the reply of an executed request ends, the slot
empties and a waiting request executes on the idle transmitter, with its reply made, before the next frame is begun;
after an OK to RESTART the part is reset with its rate and counts kept. That a TRANSMIT_END with nothing being sent
does nothing, and that the queue is kept over a RESTART, are the model's choices (log entries 5 and 22). (01, section
1.3; 01, section 1.4; 01, section 1.7) -/
def Obligations.TransmitEndSendsTheNextFrame : Prop :=
  ∀ s : State,
    (s.part.link.tx = none → exec .transmitEnd s = .next s) ∧
    (∀ f, s.part.link.tx = some f → (∀ r, f = .reply r → r.status = .linkFull) → s.part.link.settled →
      exec .transmitEnd s = .next (s.withLink (match s.part.link.replies, s.part.link.notices with
        | r :: rest, _ => { s.part.link with replies := rest, tx := some (.reply r) }
        | [], n :: rest => { s.part.link with notices := rest, tx := some (.notice n) }
        | [], [] => { s.part.link with tx := none }))) ∧
    (∀ r, s.part.link.tx = some (.reply r) → r.status ≠ .linkFull → ¬ (r.kind = 0x05 ∧ r.status = .ok) →
      (s.part.link.waiting = none →
        exec .transmitEnd s =
          .next (s.withLink (Link.startNext { s.part.link with tx := none, executing := none, waiting := none }))) ∧
      (∀ w, s.part.link.waiting = some w →
        let r := executeRequest w (s.part.withLink { s.part.link with tx := none, executing := none, waiting := none })
        exec .transmitEnd s = .next (s.withPart (r.withLink (Link.startNext r.link))) ∧
        (Link.startNext r.link).executing = some ⟨w, true⟩ ∧ (Link.startNext r.link).waiting = none)) ∧
    (∀ r, s.part.link.tx = some (.reply r) → r.kind = 0x05 → r.status = .ok →
      exec .transmitEnd s =
        .next (s.withPart (Part.released .restart s.part.link.rate s.part.link.errorCount s.part.link.lostCount)))

/-- With the executing slot empty: a request of kind 0x30-0x3F is answered UNKNOWN_KIND with nothing after the status;
STATUS is answered OK with its fields; RESTART is answered OK, in every part state; BEGIN_LOAD in UNLOADED takes the
part to LOADING and is answered OK. Nothing else of the part changes. In RUNNING, READ_CHANGES is answered OK with the
number of records, whether marks are left, and one record for each of the first 32 marked segments in ascending id;
their marks are cleared, every other segment and the rest of the part is unchanged. (01, section 1.3; 01, section 1.5;
01, section 1.6; 01, section 1.7; 04, section 4.7) -/
def Obligations.GeneralRequestsAndReadChanges : Prop :=
  (∀ (tag : Byte) (s : State), s.slotFree →
      (∀ (low : Fin 16) (body : List Byte), exec (.unknownKind low tag body) s =
        .next (s.answered (s.begun (0x30 + low.val) tag body) .unknownKind [])) ∧
      exec (.status tag []) s = .next (s.answered (s.begun 0x01 tag []) .ok (s.begun 0x01 tag []).statusFields) ∧
      exec (.restart tag []) s = .next (s.answered (s.begun 0x05 tag []) .ok []) ∧
      (s.part.link.partState = .unloaded → exec (.beginLoad tag []) s =
        .next (s.answered { s.begun 0x06 tag [] with link := { (s.begun 0x06 tag []).link with partState := .loading } } .ok []))) ∧
  (∀ (tag : Byte) (s : State), s.ready → s.part.segments.wf 512 = true →
      let p := s.begun 0x03 tag []
      let marked := p.segments.idsWhere fun _ x => x.changed
      let ids := marked.take 32
      ∃ segments, exec (.readChanges tag []) s = .next (s.answered { p with segments := segments } .ok
          ([byte ids.length, flag (decide (32 < marked.length))] ++
            ids.flatMap fun id => ((p.segments.get? id).map (changeRecord id)).getD [])) ∧
        ∀ id, segments.get? id =
          (p.segments.get? id).map fun x => { x with changed := x.changed && !ids.contains id })

/-- SET_NOTICES, in every part state, with a body of one byte sets the enables to it and is answered OK with the
enables in force before; another length is refused with BAD_LENGTH. A class is enabled just when its bit is 1, with
POINT on bit 0 to OUTAGE on bit 7. After either kind of reset all eight are off. (R13) -/
def Obligations.SetNoticesSetsTheEnables : Prop :=
  (∀ (tag : Byte) (body : List Byte) (s : State), s.slotFree →
    (body.length ≠ 1 → exec (.setNotices tag body) s = .next (s.answered (s.begun 0x04 tag body) .badLength [])) ∧
    (∀ m, body = [m] → exec (.setNotices tag body) s = .next (s.answered
      { s.begun 0x04 tag body with link := { (s.begun 0x04 tag body).link with enables := m } } .ok
      [s.part.link.enables]))) ∧
  (∀ (l : Link) (n : Notice) (c : NoticeClass), n.cls = some c → l.enabled n = l.enables.getLsbD c.bit) ∧
  [NoticeClass.point, .field, .valve, .supply, .plan, .incident, .crew, .outage].map NoticeClass.bit =
    [0, 1, 2, 3, 4, 5, 6, 7] ∧
  (∀ cause rate errors lost, (Part.released cause rate errors lost).link.enables = 0)

/-- For every part whose queues, counts and tables are in range and whose rate fits four bytes, the STATUS fields are
42 bytes, and each reads back as the count or value that the table of section 1.6 gives: part state, attendance, part
time, error count, lost count, queue depth, the five counts of each of the four lines, engine busy, supply-pending,
incidents not CLOSED, ACTIVE outages, plans in execution, enables, rate and reset cause. (01, section 1.6) -/
def Obligations.StatusFieldsAsLaidOut : Prop :=
  ∀ p : Part, p.link.inRange → p.tablesOk → p.link.rate < 4294967296 →
    let f := p.statusFields
    f.length = 42 ∧ u8 f 0 = p.link.partState.code ∧ u8 f 1 = (if p.unattended then 1 else 0) ∧ u32 f 2 = p.time ∧
    u16 f 6 = p.link.errorCount ∧ u16 f 8 = p.link.lostCount ∧ u8 f 10 = p.link.notices.length ∧
    (∀ line, line < 4 → ∀ c : CommState, u8 f (11 + 5 * line + c.code) =
      p.outstations.count fun id o => decide (id / 16 = line) && decide (o.comm = c)) ∧
    u8 f 31 = (if p.trace.engine = .idle then 0 else 1) ∧ u8 f 32 = (if p.trace.pendingCause.isSome then 1 else 0) ∧
    u8 f 33 = (p.register.incidents.count fun _ i => decide (i.state ≠ .closed)) ∧
    u8 f 34 = (p.outages.count fun _ o => o.ended.isNone) ∧
    u8 f 35 = (p.plans.count fun _ q => [PlanState.executing, .blocked, .isolated, .releasing].contains q.state) ∧
    u8 f 36 = p.link.enables.toNat ∧ u32 f 37 = p.link.rate ∧ u8 f 41 = p.link.resetCause.code

/-- For a table code up to 10, a count of 1 to 16 and a run inside the table, READ_TABLE is answered OK with the code,
the first index, a returned count n from 1 to the count asked, and the n records from the first index; n is the count
asked, or one record more would pass the body limit of 1,020 bytes. The part is unchanged but for the reply. (01,
section 1.6) -/
def Obligations.ReadTableReturnsTheRecords : Prop :=
  ∀ (tag : Byte) (code first count room : Nat) (s : State), s.slotFree → tableRoom code = some room →
    1 ≤ count → count ≤ 16 → first + count ≤ room →
    let body := [byte code] ++ be16 first ++ [byte count]
    let p := s.begun 0x02 tag body
    let records := fun n => ((List.range n).map fun i => p.recordOf code (first + i)).flatten
    ∃ n, 1 ≤ n ∧ n ≤ count ∧ (records n).length ≤ 1015 ∧ (n < count → 1015 < (records (n + 1)).length) ∧
      exec (.readTable tag body) s = .next (s.answered p .ok ([byte code] ++ be16 first ++ [byte n] ++ records n))

/-- An outstation record is 12 bytes, a DISCRETE point 14, a PRESSURE point 68, a segment 51, a valve 32, a feed 6, a
district 5, a plan 481, a call 15, an incident 50, a crew 16, an outage 163, and a change record 11, whatever the
records hold. (02, section 2.2; 03, section 3.10; 04, section 4.8; 04, section 4.7; 06, section 6.8; 07, section 7.6;
08, section 8.8; 09, section 9.8) -/
def Obligations.RecordLengths : Prop :=
  (∀ i o, (outstationRecord i o).length = 12) ∧
  (∀ pt : Point, (pointRecord pt).length = match pt.body with
    | .discrete _ => 14
    | .pressure _ _ _ => 68) ∧
  (∀ x, (segmentRecord x).length = 51) ∧ (∀ x, (valveRecord x).length = 32) ∧ (∀ x, (feedRecord x).length = 6) ∧
  (∀ x, (districtRecord x).length = 5) ∧ (∀ x, (planRecord x).length = 481) ∧ (∀ x, (callRecord x).length = 15) ∧
  (∀ x, (incidentRecord x).length = 50) ∧ (∀ x, (crewRecord x).length = 16) ∧ (∀ x, (outageRecord x).length = 163) ∧
  (∀ i x, (changeRecord i x).length = 11)

/-- In LOADING and RUNNING, SET_LINE with a line, a rate of the six, a window of 20-500 ms, a period of 1-60 s and a
limit of 2-8 replaces the four settings of that line and nothing else, and is answered OK. In LOADING, with every
operand in its range, each of the four requests puts one record at the entry named, with the fields as requested and
the others as a definition leaves them, and is answered OK; nothing else changes. (02, section 2.1; 02, section 2.2;
04, section 4.2; 08, section 8.1) -/
def Obligations.SettingsAndUnitsFillTheirEntries : Prop :=
  (∀ (tag : Byte) (n rate window period limit : Nat) (s : State), s.slotFree → s.part.link.partState ≠ .unloaded →
      n < 4 → [1200, 2400, 4800, 9600, 19200, 38400].contains rate = true → 20 ≤ window → window ≤ 500 →
      1 ≤ period → period ≤ 60 → 2 ≤ limit → limit ≤ 8 →
      let body := byte n :: be32 rate ++ be16 window ++ [byte period, byte limit]
      exec (.setLine tag body) s = .next (s.answered ((s.begun 0x08 tag body).onLine n fun l =>
        { l with rate := rate, window := window, period := period, limit := limit }) .ok [])) ∧
  (∀ (tag : Byte) (s : State), s.loading →
      (∀ line drop kind, line < 4 → 1 ≤ drop → drop ≤ 16 → kind ≤ 1 →
        let body := [byte line, byte drop, byte kind]
        let p := s.begun 0x09 tag body
        exec (.defineOutstation tag body) s = .next (s.answered { p with
          outstations := p.outstations.set (line * 16 + (drop - 1))
            { kind := if kind = 0 then .station else .actuator, comm := .unknown, failures := 0, busy := 0, seqBit := true
              lastGood := none } } .ok [])) ∧
      (∀ d lamp, d < 32 → lamp < 32 →
        let body := [byte d, byte lamp]
        let p := s.begun 0x0B tag body
        exec (.defineDistrict tag body) s = .next (s.answered { p with
          districts := p.districts.set d { lamp := lamp, openIncidents := 0, activeOutages := 0, suspects := 0 } } .ok [])) ∧
      (∀ f segment outlet service, f < 64 → segment < 512 → (∀ pt, outlet = some pt → pt < 256) → service ≤ 1 →
        let body := byte f :: be16 segment ++ [if outlet.isSome then 1 else 0, byte (outlet.getD 0), byte service]
        let p := s.begun 0x0E tag body
        exec (.defineFeed tag body) s = .next (s.answered { p with
          feeds := p.feeds.set f { segment := segment, outlet := outlet, inService := service = 0, live := false } } .ok [])) ∧
      (∀ c kind home shift, c < 48 → kind ≤ 1 → home < 32 → shift ≤ 1 →
        let body := [byte c, byte kind, byte home, byte shift]
        let p := s.begun 0x0F tag body
        exec (.defineCrew tag body) s = .next (s.answered { p with dispatch := { p.dispatch with
          crews := p.dispatch.crews.set c
            { kind := if kind = 0 then .emergency else .fitter, home := home
              state := if shift = 0 then .offShift else .available, job := none, declined := none, expiry := none } } } .ok [])))

/-- In LOADING, with every operand in its range, no valve listed twice and priority premises not above customers,
DEFINE_SEGMENT puts the segment with its valve list in the order given, SUPPLIED, its pressure state UNKNOWN, in no
outage; DEFINE_VALVE puts the valve with its position and last end at the normal position, no holder and no operation.
Nothing else changes. In LOADING, with every operand in its range, DEFINE_POINT of a PRESSURE point puts the point
with its settings as the body carries them, STALE, with no value, filter state 0 and band NORMAL; of a DISCRETE point
with its edge mode and debounce count, STALE, its level UNKNOWN. Nothing else changes. (04, section 4.1; 04, section
4.2; 03, section 3.1; 03, section 3.2) -/
def Obligations.DefinitionsOfTheModelFillTheirEntries : Prop :=
  (∀ (tag : Byte) (s : State), s.loading →
      (∀ id district tier customers priority (valves : List Nat), id < 512 → district < 32 → tier ≤ 2 → customers ≤ 65535 →
        priority ≤ customers → valves ≠ [] → valves.length ≤ 8 → valves.Nodup → (∀ v ∈ valves, v < 768) →
        let body := be16 id ++ [byte district, byte tier] ++ be16 customers ++ be16 priority ++ byte valves.length ::
          valves.flatMap be16
        let p := s.begun 0x0C tag body
        exec (.defineSegment tag body) s = .next (s.answered { p with
          segments := p.segments.set id
            { district := district, tier := tierOf tier, customers := customers, priority := priority, valves := valves
              feeds := [], pressure := none, supply := .supplied, reaching := none, outage := none, relit := 0
              suspect := false, noGas := [], changed := false } } .ok [])) ∧
      (∀ id a b actuated os slot normal limit, id < 768 → a < 512 → b < 512 → a ≠ b → actuated ≤ 1 → os < 64 → slot < 4 →
        normal ≤ 1 → 10 ≤ limit → limit ≤ 900 →
        let body := be16 id ++ be16 a ++ be16 b ++ [byte actuated, byte os, byte slot, byte normal] ++ be16 limit
        let p := s.begun 0x0D tag body
        exec (.defineValve tag body) s = .next (s.answered { p with
          valves := p.valves.set id
            { endA := a, endB := b, actuated := actuated = 1, outstation := os, slot := slot, normal := endOf normal
              position := if normal = 0 then .opened else .closed, lastEnd := endOf normal, inoperable := false
              travelLimit := limit, holders := [], operation := none } } .ok []))) ∧
  (∀ (tag : Byte) (id os district group : Nat) (s : State), s.loading → id < 256 → os < 64 → district < 32 → group < 8 →
      (∀ input segment (c : PressureSettings), input < 8 → (∀ x, segment = some x → x < 512) → c.inRange = true →
        c.p0 ≤ 65535 → c.p1 ≤ 65535 → c.l2 ≤ 65535 → c.l1 ≤ 65535 → c.h1 ≤ 65535 → c.h2 ≤ 65535 → c.hyst ≤ 65535 →
        let body := [byte id, 0, byte os, byte input, byte district] ++ segmentBytes segment (0, 0) ++ byte group ::
          settingsRecord c
        let p := s.begun 0x0A tag body
        exec (.definePoint tag body) s = .next (s.answered { p with
          points := p.points.set id
            { outstation := os, input := input, district := district, group := group, quality := .stale
              body := .pressure segment c
                { value := none, filter := 0, filtered := none, history := [], falling := false, band := .normal
                  candidate := none, lowSeen := false } } } .ok [])) ∧
      (∀ input mode debounce, input < 16 → mode < 4 → 1 ≤ debounce → debounce ≤ 8 →
        let body := [byte id, 1, byte os, byte input, byte district] ++ segmentBytes none (0, 0) ++
          [byte group, byte mode, byte debounce]
        let p := s.begun 0x0A tag body
        exec (.definePoint tag body) s = .next (s.answered { p with
          points := p.points.set id
            { outstation := os, input := input, district := district, group := group, quality := .stale
              body := .discrete
                { mode := edgeModeOf mode, debounce := debounce, level := none, stable := 0, pending := false } } } .ok [])))

/-- In LOADING: an END_LOAD whose description fails is refused with REFUSED_RANGE, the table code, the index and the
reason of the first failing item, and changes nothing. No item fails just when the description is as R44 and R69 ask.
One that passes is answered OK, and the part is RUNNING with every segment SUPPLIED, in no outage and listing its
feeds, every feed live as its service state and outlet give, every valve at its normal position, and supply-pending
raised with a cause. Every line is IDLE when it has no outstation and otherwise CYCLING in cycle 0 from now, with the
POLL of its lowest outstation being sent. (04, section 4.3; 03, section 3.1; 03, section 3.2; 02, section 2.1; 02,
section 2.4; 05, section 5.8) -/
def Obligations.EndLoadValidatesOrEntersRunning : Prop :=
  ∀ (tag : Byte) (s : State), s.loading →
    let p := s.begun 0x07 tag []
    (∀ code id why, p.loadFault = some (code, id, why) →
      exec (.endLoad tag []) s = .next (s.answered p .refusedRange ([byte code] ++ be16 id ++ [byte why.code]))) ∧
    (p.tablesOk → (p.loadFault = none ↔ p.Described)) ∧
    (p.loadFault = none → ∃ q, exec (.endLoad tag []) s = .next (s.answered q .ok []) ∧
      q.link.partState = .running ∧ q.clock = p.clock ∧ q.points = p.points ∧ q.districts = p.districts ∧
      q.plans = p.plans ∧ q.register = p.register ∧ q.outages = p.outages ∧
      (∀ id x, q.segments.get? id = some x ↔ ∃ y, p.segments.get? id = some y ∧
        x = { y with feeds := p.feeds.idsWhere (fun _ f => decide (f.segment = id)), pressure := none, supply := .supplied,
                     reaching := none, outage := none, relit := 0, suspect := false }) ∧
      (∀ id x, q.feeds.get? id = some x ↔ ∃ y, p.feeds.get? id = some y ∧ x = { y with live := deriveLive p.points y }) ∧
      (∀ id x, q.valves.get? id = some x ↔ ∃ y, p.valves.get? id = some y ∧
        x = { y with position := y.normal.position, lastEnd := y.normal }) ∧
      q.trace.pendingCause.isSome = true ∧ (p.trace.pendingCause = none → q.trace.pendingCause = some .load) ∧
      ∀ n, n < 4 → ((q.line n).cond = .idle ↔ p.outstationsOf n = []) ∧ (q.line n).cond ≠ .stopped ∧
        (q.line n).cond ≠ .held ∧
        ∀ os rest, p.outstationsOf n = os :: rest → (∀ i o, p.outstations.get? i = some o → o.comm ≠ .held) →
          p.outstations.wf 64 = true →
          (q.line n).cond = .cycling ∧ (q.line n).cycle = 0 ∧ (q.line n).cycleStart = p.clock ∧
          ((p.line n).queue = [] → (p.line n).phase = .idle → q.line n = { p.line n with
            cond := .cycling, cycle := 0, cycleStart := p.clock, cyclePeriod := (p.line n).period, nextDrop := os % 16 + 2
            run := 0
            phase := .sending
              { outstation := os, isCommand := false, bit := false, frame := fieldFrame (byte (os % 16 + 1)) 0x01 []
                rate := (p.line n).rate, window := (p.line n).window } }))

/-- In RUNNING, HOLD_LINE of a line that is not HELD is answered OK. After it the line is HELD with its hold flag set,
no transaction, an empty queue and a command run of 0, its settings kept; every outstation of the line is HELD with
its other fields kept, every point on them is STALE, and every actuated valve on them has position UNKNOWN and its
last end kept. The notices placed are first those of the operations whose commands left the queue, then every
OUTSTATION_STATE, one for each outstation in ascending drop order, then those of the losses. The arbiter may then make
offers. In RUNNING, FREE_LINE of a HELD line is answered OK. After it the hold flag is clear, every outstation of the
line is UNKNOWN with no failures and no BUSY count, and the line is IDLE if it has none and otherwise CYCLING in cycle
0 from now: with the POLL of its lowest outstation being sent, or, while a quiet time still runs, waiting for its end.
Points, segments, valves, plans, incidents, crews and outages are unchanged. That a transaction abandoned by HOLD_LINE
ends at the hold, and that its quiet time runs on through FREE_LINE, is the model's reading (log entry 29), as is the
place of the notices of the emptied queue (14). (02, section 2.8; 02, section 2.7; 02, section 2.1; 02, section 2.4;
04, section 4.4) -/
def Obligations.HoldingAndFreeingALine : Prop :=
  (∀ (tag : Byte) (n : Nat) (s : State), s.ready → n < 4 → (s.part.line n).cond ≠ .held →
      let p := s.begun 0x12 tag [byte n]
      let q := holdLine n p
      exec (.holdLine tag [byte n]) s = .next (s.answered (dispatchDecide q) .ok []) ∧
      q.line n = { p.line n with
        holdFlag := true, cond := .held, queue := [], run := 0
        phase := match (p.line n).txn? with
          | some t => .quiet p.clock t.rate
          | none => (p.line n).phase } ∧
      (p.outstations.wf 64 = true → ∃ failed rest : List Notice,
        let told := (p.outstationsOf n).filterMap fun os => (p.outstations.get? os).bind fun o =>
          if o.comm = .held then none else some (Notice.outstationState os o.comm .held o.failures .hold)
        q.link = (failed ++ (told ++ rest)).foldl (fun l x => l.place p.time x) p.link ∧
        (∀ x ∈ failed, ∃ v a origin, x = .valveFailed v a origin .field .comms) ∧ ((p.line n).queue = [] → failed = []) ∧
        ∀ x ∈ rest, ∀ os a b f c, x ≠ .outstationState os a b f c) ∧
      ∀ os o, p.outstations.get? os = some o → os / 16 = n →
        q.outstations.get? os = some { o with comm := .held } ∧
        (∀ id pt, p.points.get? id = some pt → pt.outstation = os →
          ∃ pt', q.points.get? id = some pt' ∧ pt'.quality = .stale) ∧
        (∀ v valve, p.valves.get? v = some valve → valve.actuated = true → valve.outstation = os →
          ∃ valve', q.valves.get? v = some valve' ∧ valve'.position = .unknown ∧ valve'.lastEnd = valve.lastEnd)) ∧
  (∀ (tag : Byte) (n : Nat) (s : State), s.ready → n < 4 → (s.part.line n).cond = .held →
      let p := s.begun 0x13 tag [byte n]
      let q := freeLine n p
      exec (.freeLine tag [byte n]) s = .next (s.answered q .ok []) ∧
      (q.line n).holdFlag = false ∧ (p.outstationsOf n = [] → (q.line n).cond = .idle) ∧
      (∀ os rest, p.outstationsOf n = os :: rest → p.outstations.wf 64 = true →
        let l : Line := { p.line n with
          holdFlag := false, cond := .cycling, cycle := 0, cycleStart := p.clock, cyclePeriod := (p.line n).period
          nextDrop := 1 }
        (q.line n).cond = .cycling ∧ (q.line n).cycle = 0 ∧ (q.line n).cycleStart = p.clock ∧
        ((p.line n).queue = [] → ((p.line n).phase = .idle ∨
            ∃ since rate, (p.line n).phase = .quiet since rate ∧ since + 2 * charTicks rate ≤ p.clock) →
          q.line n = { l with
            run := 0, nextDrop := os % 16 + 2
            phase := .sending
              { outstation := os, isCommand := false, bit := false, frame := fieldFrame (byte (os % 16 + 1)) 0x01 []
                rate := l.rate, window := l.window } }) ∧
        (∀ since rate, (p.line n).phase = .quiet since rate → p.clock < since + 2 * charTicks rate → q.line n = l)) ∧
      (∀ os o, p.outstations.get? os = some o → os / 16 = n → ∃ o', q.outstations.get? os = some o' ∧
        o'.comm = .unknown ∧ o'.failures = 0 ∧ o'.busy = 0 ∧ o'.kind = o.kind ∧ o'.lastGood = o.lastGood) ∧
      q.points = p.points ∧ q.segments = p.segments ∧ q.valves = p.valves ∧ q.plans = p.plans ∧ q.register = p.register ∧
      q.dispatch = p.dispatch ∧ q.outages = p.outages)

/-- When two character times have passed since a transaction, the line's next transaction follows: the head command
while the command run is below 4, at its first sending with the opposite of the outstation's sequence bit, which is
recorded, and at a retry or resend with the bit it has; else, CYCLING, a POLL of the lowest outstation whose turn has
not come. When a transaction has ended and no turn is to come, the line is WAITING, or, when the cycle period has run,
the next cycle starts at once, WAITING again if it passes over every outstation. A turn comes to each outstation of
the line that is UNKNOWN, ONLINE or SUSPECT, and in cycle 0 to an OFFLINE one. The rest of the part is unchanged, but
for offers of the arbiter. That the polls are done at the end of the transaction after which no turn is to come, be it
a command's, is the model's reading (log entry 23), and so is that the arbiter may decide here (26). That an event
before its moment does nothing is the model's choice (log entry 5). (02, section 2.1; 02, section 2.4; 02, section
2.5) -/
def Obligations.QuietTimeEndChoosesTheNextTransaction : Prop :=
  ∀ (n : Nat) (s : State), n < 4 →
    let p := s.part
    let l := p.line n
    let next : Line := { l with
      cond := .cycling, cycle := (l.cycle + 1) % 8, cycleStart := p.clock, cyclePeriod := l.period, nextDrop := 1 }
    let poll := fun (os : Nat) (l : Line) => { l with
      run := 0, nextDrop := os % 16 + 2
      phase := .sending
        { outstation := os, isCommand := false, bit := false, frame := fieldFrame (byte (os % 16 + 1)) 0x01 []
          rate := l.rate, window := l.window } }
    let at_ := fun (l' : Line) => p.onLine n fun _ => l'
    let quiet := fun (q : Part) => exec (.quietTimeEnd n) s = .next (s.withPart (dispatchDecide q))
    (∀ since rate, l.phase = .quiet since rate →
      (p.clock < since + 2 * charTicks rate → quiet p) ∧
      (since + 2 * charTicks rate ≤ p.clock →
        (∀ c rest bit, l.cond = .cycling ∨ l.cond = .waiting → l.queue = c :: rest → l.run < 4 →
          let sent := at_ { l with
            queue := { c with bit := some bit } :: rest, run := l.run + 1
            phase := .sending
              { outstation := c.outstation, isCommand := true, bit := bit
                frame := fieldFrame (byte (c.outstation % 16 + 1)) 0x02 [byte c.slot, byte c.action.code, flag bit]
                rate := l.rate, window := l.window } }
          (∀ o, c.bit = none → p.outstations.get? c.outstation = some o → bit = !o.seqBit →
            quiet { sent with outstations := p.outstations.set c.outstation { o with seqBit := bit } }) ∧
          (c.bit = some bit → quiet sent)) ∧
        (∀ os, l.cond = .cycling → l.commandDue = false → nextTurn n p = some os → quiet (at_ (poll os l))) ∧
        (l.cond = .cycling → l.commandDue = false → nextTurn n p = none →
          (p.periodOver n = false → quiet (at_ { l with cond := .waiting, phase := .idle })) ∧
          (p.periodOver n = true →
            (∀ os, nextTurn n (at_ next) = some os → quiet (at_ (poll os next))) ∧
            (nextTurn n (at_ next) = none → quiet (at_ { next with cond := .waiting, phase := .idle })))) ∧
        (l.cond = .waiting → l.commandDue = false → quiet (at_ { l with phase := .idle })))) ∧
    (l.commandDue = true ↔ l.queue ≠ [] ∧ l.run < 4) ∧
    (p.periodOver n = true ↔ l.cycleStart + l.cyclePeriod * 96000 ≤ p.clock) ∧
    (pollsEnd n p = if l.cond = .cycling ∧ nextTurn n p = none then
        if l.cycleStart + l.cyclePeriod * 96000 ≤ p.clock then
          at_ (if nextTurn n (at_ next) = none then { next with cond := .waiting } else next)
        else at_ { l with cond := .waiting }
      else p) ∧
    (nextTurn n p = none → ∀ os o, p.outstations.get? os = some o → os / 16 = n → l.nextDrop ≤ os % 16 + 1 →
      o.polledIn l.cycle = false) ∧
    (p.outstations.wf 64 = true → ∀ os, nextTurn n p = some os →
      (∃ o, p.outstations.get? os = some o ∧ o.polledIn l.cycle = true) ∧ os / 16 = n ∧ l.nextDrop ≤ os % 16 + 1 ∧
      ∀ os' o', p.outstations.get? os' = some o' → os' / 16 = n → l.nextDrop ≤ os' % 16 + 1 →
        o'.polledIn l.cycle = true → os ≤ os') ∧
    (∀ (o : Outstation) (cycle : Nat), o.polledIn cycle = true ↔
      o.comm = .unknown ∨ o.comm = .online ∨ o.comm = .suspect ∨ (o.comm = .offline ∧ cycle = 0))

/-- On a line that is WAITING when its cycle period has run, the next cycle starts, numbered one more of 8, with the
period in force: at once with a POLL of the first outstation that the cycle polls when nothing is in transaction and
no command is due; behind the transaction in flight, or the quiet time, otherwise. A cycle that passes over every
outstation leaves the line WAITING. Before the period has run, or on a line that is not WAITING, nothing happens but
offers of the arbiter: that is the model's choice (log entry 5) and its reading (26), and so is the moment at which
the polls are done (23). (02, section 2.4; 02, section 2.1) -/
def Obligations.CyclePeriodExpiryStartsTheNextCycle : Prop :=
  ∀ (n : Nat) (s : State), n < 4 →
    let p := s.part
    let l := p.line n
    let next : Line := { l with
      cond := .cycling, cycle := (l.cycle + 1) % 8, cycleStart := p.clock, cyclePeriod := l.period, nextDrop := 1 }
    let poll := fun (os : Nat) (l : Line) => { l with
      run := 0, nextDrop := os % 16 + 2
      phase := .sending
        { outstation := os, isCommand := false, bit := false, frame := fieldFrame (byte (os % 16 + 1)) 0x01 []
          rate := l.rate, window := l.window } }
    let at_ := fun (l' : Line) => p.onLine n fun _ => l'
    let expiry := fun (q : Part) => exec (.cyclePeriodExpiry n) s = .next (s.withPart (dispatchDecide q))
    ((l.cond ≠ .waiting ∨ p.clock < l.cycleStart + l.cyclePeriod * 96000) → expiry p) ∧
    (l.cond = .waiting → l.cycleStart + l.cyclePeriod * 96000 ≤ p.clock →
      (l.phase ≠ .idle →
        (nextTurn n (at_ next) ≠ none → expiry (at_ next)) ∧
        (nextTurn n (at_ next) = none → expiry (at_ { next with cond := .waiting }))) ∧
      (l.phase = .idle → l.commandDue = false →
        (∀ os, nextTurn n (at_ next) = some os → expiry (at_ (poll os next))) ∧
        (nextTurn n (at_ next) = none → expiry (at_ { next with cond := .waiting }))))

/-- When a request frame has been sent, the reply window opens. A window that has run with no reply, or a gap of more
than three character times in a reply, ends the transaction with NO_ANSWER: the quiet time begins and the failure is
counted. A command below its third NO_ANSWER stays at the head with it counted; at the third it leaves the queue and
its live FIELD operation fails with COMMS; a withdrawn one leaves it at once. A counted NO_ANSWER makes the BUSY count
0; in UNKNOWN, ONLINE and SUSPECT it raises the failures by one: at the limit the outstation is OFFLINE, with its
notice and its losses, and an ONLINE one below it is SUSPECT with its notice. An outstation lost by going OFFLINE has
none of its commands queued, its points are STALE, the positions of its valves UNKNOWN with the last ends kept, and
the live FIELD operations on them FAILED with COMMS. That an event before its moment does nothing but offers of the
arbiter is the model's choice (log entry 5). That the count and its notice come before the command's outcome is its
reading (12). The end of the polls, at the end of a command's transaction as well (23), and the arbiter's moment, at
the end of every event of a line (26), are its readings too. (02, section 2.1; 02, section 2.3; 02, section 2.4; 02,
section 2.6; 02, section 2.7; 03, section 3.3; 04, section 4.4; 06, section 6.4) -/
def Obligations.FieldFramesAreTimed : Prop :=
  (∀ (n : Nat) (s : State), n < 4 →
    let p := s.part
    (∀ t, (p.line n).phase = .sending t → exec (.fieldFrameSent n) s =
      .next (s.withPart (dispatchDecide (p.onLine n fun l => { l with phase := .awaiting t p.clock })))) ∧
    (∀ t opened, (p.line n).phase = .awaiting t opened →
      (p.clock < opened + t.window * 96 → exec (.replyWindowExpiry n) s = .next (s.withPart (dispatchDecide p))) ∧
      (opened + t.window * 96 ≤ p.clock →
        exec (.replyWindowExpiry n) s = .next (s.withPart (dispatchDecide (endTransaction n .noAnswer p))))) ∧
    (∀ t bytes last, (p.line n).phase = .collecting t bytes last →
      (p.clock ≤ last + 3 * charTicks t.rate → exec (.replyGapTimeout n) s = .next (s.withPart (dispatchDecide p))) ∧
      (last + 3 * charTicks t.rate < p.clock →
        exec (.replyGapTimeout n) s = .next (s.withPart (dispatchDecide (endTransaction n .noAnswer p)))))) ∧
  (∀ (n : Nat) (t : Txn) (p : Part), n < 4 → (p.line n).txn? = some t →
    let quiet := p.onLine n fun l => { l with phase := .quiet p.clock t.rate }
    let ends := fun (q : Part) => endTransaction n .noAnswer p = pollsEnd n q
    (t.isCommand = false → ends (countNoAnswer t.outstation quiet)) ∧
    ∀ c rest, t.isCommand = true → (p.line n).queue = c :: rest →
      let kept := countNoAnswer t.outstation
        (quiet.onLine n fun l => { l with queue := { c with noAnswers := c.noAnswers + 1 } :: rest })
      let popped := kept.onLine n fun l => { l with queue := l.queue.tail }
      (c.withdrawn = true → ends (countNoAnswer t.outstation (quiet.onLine n fun l => { l with queue := rest }))) ∧
      (c.withdrawn = false → (c.noAnswers + 1 < 3 ∨ ∃ o, kept.outstations.get? t.outstation = some o ∧ o.comm = .offline) →
        ends kept) ∧
      (c.withdrawn = false → 3 ≤ c.noAnswers + 1 →
        (∀ o, kept.outstations.get? t.outstation = some o → o.comm ≠ .offline) →
        (c.action = .stop → ends popped) ∧
        (∀ valve op, c.action ≠ .stop → p.valves.get? c.valve = some valve → valve.operation = some op →
          op.mode = .field → (op.state = .pending ∨ op.state = .acting) →
          ends (planCourse [⟨c.valve, true⟩] (place (.valveFailed c.valve op.action op.origin .field .comms)
            { popped with valves := p.valves.set c.valve { valve with operation := some { op with
                state := .failed .comms, stateTime := p.time, travelExpiry := none } } }))))) ∧
  (∀ (os : Nat) (o : Outstation) (p : Part), p.outstations.get? os = some o →
    let limit := (p.line (os / 16)).limit
    let put := fun (o' : Outstation) => { p with outstations := p.outstations.set os { o' with busy := 0 } }
    let told := fun (o' : Outstation) => place (.outstationState os o.comm o'.comm o'.failures .failure) (put o')
    ((o.comm = .offline ∨ o.comm = .held) → countNoAnswer os p = put o) ∧
    (o.comm ≠ .offline → o.comm ≠ .held →
      (limit ≤ o.failures + 1 →
        countNoAnswer os p = outstationOffline os (told { o with comm := .offline, failures := o.failures + 1 })) ∧
      (o.failures + 1 < limit →
        (o.comm = .online → countNoAnswer os p = told { o with comm := .suspect, failures := o.failures + 1 }) ∧
        (o.comm ≠ .online → countNoAnswer os p = put { o with failures := o.failures + 1 })))) ∧
  (∀ (os : Nat) (o : Outstation) (p : Part), p.tablesOk → p.outstations.get? os = some o → o.comm = .offline →
    let q := outstationOffline os p
    q.clock = p.clock ∧ (∀ c ∈ (q.line (os / 16)).queue, c.outstation ≠ os) ∧
    (∀ id pt, p.points.get? id = some pt → ∃ pt', q.points.get? id = some pt' ∧
      (pt.outstation ≠ os → pt' = pt) ∧ (pt.outstation = os → pt'.quality = .stale) ∧
      (∀ seg c st, pt.outstation = os → pt.body = .pressure seg c st → pt.quality = .good →
        pt'.body = .pressure seg c { st with history := [], falling := false, candidate := none })) ∧
    ∀ v valve, p.valves.get? v = some valve → ∃ valve', q.valves.get? v = some valve' ∧ valve'.lastEnd = valve.lastEnd ∧
      valve'.position = (if valve.actuated = true ∧ valve.outstation = os then .unknown else valve.position) ∧
      (∀ op, valve.actuated = true → valve.outstation = os → valve.operation = some op → op.mode = .field →
        (op.state = .pending ∨ op.state = .acting) → valve'.operation =
          some { op with state := .failed .comms, stateTime := p.time, travelExpiry := none }))

/-- While a reply is awaited in its window, a good 0x96 starts the reply and any other byte is discarded. A byte that
leaves the reply open joins it. A byte on a line with no reply awaited is discarded. The byte that completes a well-
formed reply ends the transaction with what it says; one that completes another frame, has a framing error or is a
length above 64 ends it with NO_ANSWER. The quiet time begins. A good reply makes the BUSY count 0 and its time the
last good reply time, and an outstation not ONLINE goes ONLINE with its notice. DATA goes to the points and valves.
ACCEPT takes the command off the queue and its PENDING FIELD operation to ACTING with its travel expiry; of a
withdrawn OPEN or CLOSE it brings the offer of a STOP. REJECT takes the command off and fails the operation with
REJECTED. BUSY leaves the command and raises the BUSY count; the fourth in a row counts as a failure and makes it 0.
Then the cycle proceeds. Nothing else changes, but for offers of the arbiter. The arbiter's moment (log entry 26), the
order of count and outcome (12), the polls' end (23) and bytes that come too late (18) are the model's readings. A
DATA reply counts first, with its notice before all others and nothing else of an outstation changed, and each valve
on a slot of an ACTUATOR's then has what the slot report makes of its operation, unless an isolation cancels it; every
other operation is as before, unless an isolation cancels it. That all positions are written before the operations are
brought up to date, slot by slot, is the model's choice (34), and that the plans are tested after all the operations
is its reading (13). (02, section 2.1; 02, section 2.3; 02, section 2.4; 02, section 2.5; 02, section 2.6; 02, section
2.7; 06, section 6.4; 06, section 6.5) -/
def Obligations.FieldRepliesAreCollectedAndTaken : Prop :=
  ((∀ (n : Nat) (b : Byte) (stopLow : Bool) (t : Txn) (s : State), n < 4 →
        (∀ opened, (s.part.line n).phase = .awaiting t opened → s.part.clock ≤ opened + t.window * 96 →
          (b = 0x96 → stopLow = false → exec (.fieldReplyByte n b stopLow) s = .next (s.withPart (dispatchDecide
            (s.part.onLine n fun l => { l with phase := .collecting t [0x96] s.part.clock })))) ∧
          ((b ≠ 0x96 ∨ stopLow = true) →
            exec (.fieldReplyByte n b stopLow) s = .next (s.withPart (dispatchDecide s.part)))) ∧
        (∀ bytes last, (s.part.line n).phase = .collecting t bytes last → s.part.clock ≤ last + 3 * charTicks t.rate →
          stopLow = false → (bytes.length + 1 < 4 ∨ (u8 (bytes ++ [b]) 3 ≤ 64 ∧ bytes.length + 1 < 6 + u8 (bytes ++ [b]) 3)) →
          exec (.fieldReplyByte n b stopLow) s = .next (s.withPart (dispatchDecide
            (s.part.onLine n fun l => { l with phase := .collecting t (bytes ++ [b]) s.part.clock })))) ∧
        ((s.part.line n).txn? = none → exec (.fieldReplyByte n b stopLow) s =
          .next (s.withPart (dispatchDecide s.part)))) ∧
    (∀ (n last : Nat) (t : Txn) (bytes : List Byte) (b : Byte) (stopLow : Bool) (o : Outstation) (s : State), n < 4 →
        (s.part.line n).phase = .collecting t bytes last → s.part.clock ≤ last + 3 * charTicks t.rate →
        s.part.outstations.get? t.outstation = some o →
        let frame := bytes ++ [b]
        let ends := fun (out : Outcome) => exec (.fieldReplyReceived n b stopLow) s =
          .next (s.withPart (dispatchDecide (endTransaction n out s.part)))
        (stopLow = true → ends .noAnswer) ∧ (4 ≤ frame.length → 64 < u8 frame 3 → ends .noAnswer) ∧
        (∀ out, stopLow = false → t.Answers o.kind frame out → ends out) ∧
        (stopLow = false → frame.head? = some 0x96 → u8 frame 3 ≤ 64 → frame.length = 6 + u8 frame 3 →
          (∀ out, ¬ t.Answers o.kind frame out) → ends .noAnswer)) ∧
    (∀ (n : Nat) (t : Txn) (o : Outstation) (p : Part), n < 4 → (p.line n).txn? = some t →
        p.outstations.get? t.outstation = some o →
        let quiet := p.onLine n fun l => { l with phase := .quiet p.clock t.rate }
        let ends := fun (out : Outcome) (q : Part) => endTransaction n out p = pollsEnd n q
        let busy := fun (q : Part) =>
          if o.busy + 1 < 4 then { q with outstations := p.outstations.set t.outstation { o with busy := o.busy + 1 } }
          else countNoAnswer t.outstation q
        (∀ d, t.isCommand = false → ends (.data d) (dataReply t.outstation d quiet)) ∧
        (t.isCommand = false → ends .busy (busy quiet)) ∧
        ∀ c rest, t.isCommand = true → (p.line n).queue = c :: rest →
          let taken := quiet.onLine n fun l => { l with queue := rest }
          let good := countGood t.outstation taken
          ends .busy (busy (if c.withdrawn then taken else quiet)) ∧
          (c.action = .stop → ends .accept good ∧ ends .reject good) ∧
          (c.action ≠ .stop → c.withdrawn = true → ends .accept (offerStop c.valve good) ∧ ends .reject good) ∧
          (c.action ≠ .stop → c.withdrawn = false → ∀ valve op, p.valves.get? c.valve = some valve →
            valve.operation = some op → op.mode = .field → op.state = .pending →
            ends .accept { good with valves := p.valves.set c.valve { valve with operation := some { op with
              state := .acting, stateTime := p.time, travelExpiry := some (p.time + valve.travelLimit) } } } ∧
            ends .reject (planCourse [⟨c.valve, true⟩] (place (.valveFailed c.valve op.action op.origin .field .rejected)
              { good with valves := p.valves.set c.valve { valve with operation := some { op with
                  state := .failed .rejected, stateTime := p.time, travelExpiry := none } } })))) ∧
    (∀ (os : Nat) (o : Outstation) (p : Part), p.outstations.get? os = some o →
        let put := fun (o' : Outstation) =>
          { p with outstations := p.outstations.set os { o' with busy := 0, lastGood := some p.time } }
        ((o.comm = .online ∨ o.comm = .held) → countGood os p = put o) ∧
        (o.comm ≠ .online → o.comm ≠ .held → countGood os p =
          place (.outstationState os o.comm .online 0 .reply) (put { o with comm := .online, failures := 0 })))) ∧
  (∀ (os : Nat) (d : ReplyData) (p : Part), p.outstations.has os = true →
      ((∃ counts w, d = .station counts w) ∨ (p.line (os / 16)).phase ≠ .idle) →
      (dataReply os d p).outstations = (countGood os p).outstations ∧
      ∃ rest : List Notice,
        (dataReply os d p).link = rest.foldl (fun l x => l.place p.time x) (countGood os p).link ∧
        ∀ x ∈ rest, ∀ os a b f c, x ≠ .outstationState os a b f c) ∧
  (∀ (os : Nat) (slots : List SlotStatus) (w : BitVec 16) (p : Part),
      let q := dataReply os (.actuator slots w) p
      let reports := slots.zipIdx.filterMap fun e => ((p.valves.idsWhere fun _ x =>
        x.actuated && decide (x.outstation = os) && decide (x.slot = e.2)).head?).map fun v => (v, e.1)
      (∃ h : Part, h.lines = p.lines ∧ h.outstations = (countGood os p).outstations ∧ h.dispatch = p.dispatch ∧
        h.clock = p.clock ∧ (∀ v, h.op? v = p.op? v) ∧
        let r := reports.foldl (fun (r : Part × List Touched) e =>
          ((opSlotReport e.1 e.2 r.1).1, r.2 ++ [(opSlotReport e.1 e.2 r.1).2])) (h, [])
        q = dispatchDecide (planCourse r.2 r.1)) ∧
      (p.tablesOk → ∀ v,
        let ends := fun (o : Operation) =>
          let cut := o.closePending ∧ ∃ id x, o.origin = .plan id ∧ p.plans.get? id = some x ∧
            (x.state = .executing ∨ x.state = .blocked) ∧ v ∈ x.closeList ∧ q.shut x.closeList ∧
            ∃ e ∈ reports, e.1 ∈ x.closeList
          (cut → q.op? v = some { o with state := .failed .cancelled, stateTime := p.time, travelExpiry := none }) ∧
          (¬ cut → q.op? v = some o)
        (p.op? v = none → q.op? v = none) ∧
        (∀ st o, (v, st) ∈ reports → (opSlotReport v st p).1.op? v = some o → ends o) ∧
        ∀ o, (∀ e ∈ reports, e.1 ≠ v) → p.op? v = some o → ends o))

/-- For Z < F, P0 < P1 and a count up to 4,095: inside the span the value is P0 plus the scaled difference, rounded to
nearest with halves up; within span div 32 outside an end it is that end's value; beyond, the value is held and the
quality is FAULT_UNDER or FAULT_OVER. A GOOD value lies between P0 and P1. (R49) -/
def Obligations.CountsAreConverted : Prop :=
  ∀ (c : PressureSettings) (now : Nat) (q : Quality) (st : PressureState) (count : Nat), c.z < c.f → c.p0 < c.p1 →
    count ≤ 4095 →
    let span : Int := c.f - c.z
    let margin : Int := span / 32
    let r := pressureSample c now q st count
    ((c.z : Int) ≤ count → count ≤ c.f →
      r.1 = .good ∧ r.2.value.map Int.ofNat = some (c.p0 + (((count : Int) - c.z) * (c.p1 - c.p0) + span / 2) / span)) ∧
    ((c.z : Int) - margin ≤ count → count < c.z → r.1 = .good ∧ r.2.value = some c.p0) ∧
    (c.f < count → (count : Int) ≤ c.f + margin → r.1 = .good ∧ r.2.value = some c.p1) ∧
    ((count : Int) < c.z - margin → r.1 = .faultUnder ∧ r.2.value = st.value) ∧
    ((c.f : Int) + margin < count → r.1 = .faultOver ∧ r.2.value = st.value) ∧
    ((c.z : Int) - margin < 0 → r.1 ≠ .faultUnder) ∧ (4095 < (c.f : Int) + margin → r.1 ≠ .faultOver) ∧
    (r.1 = .good → ∃ v, r.2.value = some v ∧ c.p0 ≤ v ∧ v ≤ c.p1)

/-- At a GOOD sample of value v: after a quality that was not GOOD the filter state is 16v; otherwise it moves by the
difference times k over 16, truncated toward zero, so it does not pass 16v, and with k = 16 it is 16v. The filtered
value is the state rounded to the nearest daPa. A state within 16 P0 to 16 P1 stays there, and the filtered value lies
within P0 to P1. A sample that is not GOOD leaves both. (R50) -/
def Obligations.TheFilterMovesTowardTheValue : Prop :=
  ∀ (c : PressureSettings) (now : Nat) (q : Quality) (st : PressureState) (count : Nat), c.z < c.f → c.p0 < c.p1 →
    1 ≤ c.k → c.k ≤ 16 →
    let r := pressureSample c now q st count
    (r.1 ≠ .good → r.2.filter = st.filter ∧ r.2.filtered = st.filtered) ∧
    (r.1 = .good → ∃ v, r.2.value = some v ∧ r.2.filtered = some ((r.2.filter + 8) / 16) ∧
      (q ≠ .good → r.2.filter = v * 16) ∧
      (q = .good →
        let d : Int := (v : Int) * 16 - st.filter
        (r.2.filter : Int) = st.filter + Int.tdiv (d * c.k) 16 ∧
        (0 ≤ d → st.filter ≤ r.2.filter ∧ r.2.filter ≤ v * 16) ∧
        (d ≤ 0 → v * 16 ≤ r.2.filter ∧ r.2.filter ≤ st.filter)) ∧
      (c.k = 16 → r.2.filter = v * 16 ∧ r.2.filtered = some v) ∧
      ((q = .good → c.p0 * 16 ≤ st.filter ∧ st.filter ≤ c.p1 * 16) →
        c.p0 * 16 ≤ r.2.filter ∧ r.2.filter ≤ c.p1 * 16 ∧
        c.p0 ≤ (r.2.filter + 8) / 16 ∧ (r.2.filter + 8) / 16 ≤ c.p1))

/-- With ordered settings, a filtered value indicates LOW_TRIP up to L2, LOW above it up to L1, HIGH_TRIP from H2,
HIGH below it from H1, and NORMAL between. A worsening sample re-bands the candidate, or makes one, or with no ride-
through enters at once; a holding sample drops the candidate; an easing sample drops it and eases when the value has
passed the band's threshold by the hysteresis. FALLING is kept with fewer than eight entries or a fall limit of 0;
else it is set by a fall of the limit, and once set it stays while the fall is half the limit or more (that this holds
for a limit of 1 too is the model's reading, log entry 28). A sample that is not GOOD after one that was empties the
history and drops FALLING and the candidate; a GOOD one appends to the history, tests FALLING and then the bands. A
discrete level changes when the debounce count of samples differ from it, and an edge that matches the mode sets
pending. A delivery writes the sampled point and places its notice. (03, section 3.5; 03, section 3.2; 03, section
3.4; 03, section 3.7) -/
def Obligations.BandsWorsenHoldAndEase : Prop :=
  (∀ (c : PressureSettings) (now f : Nat) (b : Band) (cand : Option Candidate), ordered c = true →
      let i := indicated c f
      let r := bandStep c now b cand f
      (i = .lowTrip ↔ f ≤ c.l2) ∧ (i = .low ↔ c.l2 < f ∧ f ≤ c.l1) ∧ (i = .normal ↔ c.l1 < f ∧ f < c.h1) ∧
      (i = .high ↔ c.h1 ≤ f ∧ f < c.h2) ∧ (i = .highTrip ↔ c.h2 ≤ f) ∧
      (i.worse b = true →
        (∀ k, cand = some k → r = (b, some { k with band := i })) ∧
        (cand = none → c.rideThrough = 0 → r = (i, none)) ∧
        (cand = none → 0 < c.rideThrough → r = (b, some ⟨i, now, now + c.rideThrough⟩))) ∧
      (i = b → r = (b, none)) ∧
      (i.worse b = false → i ≠ b → r.2 = none ∧
        (b = .low → r.1 = if c.l1 + c.hyst ≤ f then .normal else .low) ∧
        (b = .lowTrip → r.1 = if c.l1 + c.hyst ≤ f then .normal else if c.l2 + c.hyst ≤ f then .low else .lowTrip) ∧
        (b = .high → r.1 = if f + c.hyst ≤ c.h1 then .normal else .high) ∧
        (b = .highTrip → r.1 = if f + c.hyst ≤ c.h1 then .normal else if f + c.hyst ≤ c.h2 then .high else .highTrip) ∧
        b ≠ .normal)) ∧
  (∀ (limit : Nat) (h : List Nat) (before : Bool),
      ((h.length ≠ 8 ∨ limit = 0) → fallingAfter limit h before = before) ∧
      (h.length = 8 → 0 < limit →
        let fall : Int := (h.headD 0 : Int) - h.getLastD 0
        (fallingAfter limit h false = true ↔ (limit : Int) ≤ fall) ∧
        (fallingAfter limit h true = true ↔ ((limit / 2 : Nat) : Int) ≤ fall))) ∧
  (∀ (c : PressureSettings) (now : Nat) (q : Quality) (st : PressureState) (count : Nat), st.history.length ≤ 8 →
      let r := pressureSample c now q st count
      (r.1 ≠ .good → r.2 = if q = .good then { st with history := [], falling := false, candidate := none } else st) ∧
      (r.1 = .good → ∃ f, r.2.filtered = some f ∧ r.2.history = (st.history ++ [f]).drop (st.history.length + 1 - 8) ∧
        r.2.falling = fallingAfter c.fallLimit r.2.history st.falling ∧
        (r.2.band, r.2.candidate) = bandStep c now st.band st.candidate f ∧
        r.2.lowSeen = (st.lowSeen || decide (r.2.band ≠ st.band ∧ r.2.band = .lowTrip)))) ∧
  (∀ (d : Discrete) (raw : Bool),
      (d.level = none → discreteSample d raw = ({ d with level := some raw, stable := 0 }, none)) ∧
      ∀ level, d.level = some level →
        (raw = level → discreteSample d raw = ({ d with stable := 0 }, none)) ∧
        (raw ≠ level → d.stable + 1 < d.debounce → discreteSample d raw = ({ d with stable := d.stable + 1 }, none)) ∧
        (raw ≠ level → d.debounce ≤ d.stable + 1 →
          let edge := d.mode = .both ∨ (d.mode = .rise ∧ raw = true) ∨ (d.mode = .fall ∧ raw = false)
          (edge → discreteSample d raw =
            ({ d with level := some raw, stable := 0, pending := true }, some d.pending)) ∧
          (¬ edge → discreteSample d raw = ({ d with level := some raw, stable := 0 }, none)))) ∧
  (∀ (data : ReplyData) (id : Nat) (pt : Point) (p : Part) (h : HandOn), p.points.get? id = some pt →
      let q := (deliverPoint data id (p, h)).1
      let written := { p with points := p.points.set id (pt.sampled data p.time) }
      (∀ seg c st count, pt.body = .pressure seg c st → data.counts[pt.input]? = some count →
        let r := (pressureSample c p.time pt.quality st count).2
        (r.band = st.band → q = written) ∧
        (r.band ≠ st.band → q = refreshLamps
          (place (.pointBand id st.band r.band (r.filtered.getD 0) r.falling .sample) written))) ∧
      (∀ d, pt.body = .discrete d → q = match (discreteSample d (data.word.getLsbD pt.input)).2 with
        | none => written
        | some again => place (.discreteEdge id pt.district pt.group (data.word.getLsbD pt.input) again) written))

/-- When part time has reached a candidate's expiry, the point is in the candidate's band with no candidate, LOW_SEEN
set if the band is LOW_TRIP, and all else of it as before; other points, valves, lines, outstations, plans, districts
and outages are unchanged. Before the expiry nothing happens but offers of the arbiter: that is the model's choice
(log entry 5) and its reading (26). A point that names no segment and is no feed's outlet causes its notice and the
lamps' refresh and nothing else. A segment's pressure state is the band of one of its GOOD points, none more severe
and, of equal severity, the low side before the high; it is UNKNOWN with no such point. After an expiry, or a DATA
reply, it is derived again for the segments of the points concerned, a change of it sets the changed mark, and every
feed is live as its service state and outlet give. A DATA reply samples every point of its outstation and no other;
from an ACTUATOR it writes the position of each valve on its slots, and the last end position of one at an end; a
change of a last end, or of a feed's liveness, leaves supply-pending set. Its changed last ends reach the snoop and
the change set, a plan whose close list is all CLOSED goes ISOLATED, one broken BLOCKED, and a DONE reopening leaves
its list. That all the positions of one reply are written first is the model's choice (log entry 34). A point that
names a segment and begins confirming at the expiry, or at a sample of a DATA reply, then takes the LEAK incident of
its segment that is OPEN, ASSIGNED or ON_SITE and below grade A to grade A, with INCIDENT_UPGRADED naming the point,
the earlier deadline, and the next escalation or the escalation at once that follows it; other incidents are as
before. That a deadline left as it was escalates nothing is the model's choice (33). (03, section 3.2; 03, section
3.5; 03, section 3.9; 02, section 2.6; 04, section 4.4; 04, section 4.7; 05, section 5.2; 07, section 7.3; 07, section
7.4; 03, section 3.4; 06, section 6.2; 06, section 6.5) -/
def Obligations.RideThroughExpiryEntersTheBand : Prop :=
  ((∀ (id : Nat) (pt : Point) (seg : Option Nat) (c : PressureSettings) (st : PressureState) (k : Candidate) (s : State),
      s.part.points.get? id = some pt → pt.body = .pressure seg c st → st.candidate = some k →
      let p := s.part
      let st' := { st with candidate := none, band := k.band, lowSeen := st.lowSeen || decide (k.band = .lowTrip) }
      let points := p.points.set id { pt with body := .pressure seg c st' }
      (p.time < k.expiry → exec (.rideThroughExpiry id) s = .next (s.withPart (dispatchDecide p))) ∧
      (k.expiry ≤ p.time →
        (∃ q, exec (.rideThroughExpiry id) s = .next (s.withPart q) ∧ q.points = points ∧ q.clock = p.clock ∧
          q.valves = p.valves ∧ q.lines = p.lines ∧ q.outstations = p.outstations ∧ q.plans = p.plans ∧
          q.districts = p.districts ∧ q.outages = p.outages ∧
          (∀ n x, p.segments.get? n = some x → ∃ b, (seg = some n → b = derivePressure points n) ∧
            (seg ≠ some n → b = x.pressure) ∧ q.segments.get? n = some { x with
              pressure := b, changed := x.changed || decide (b ≠ x.pressure) }) ∧
          (p.feeds.wf 64 = true → (∀ f fd, p.feeds.get? f = some fd → fd.live = deriveLive p.points fd) →
            ∀ f fd, p.feeds.get? f = some fd → q.feeds.get? f = some { fd with live := deriveLive points fd }) ∧
          let begins := pt.beginsFor { pt with body := .pressure seg c st' }
          (p.register.incidents.wf 128 = true → p.Confirmed q fun n => begins = some n) ∧
          ∃ r : Part, r.register = p.register ∧ q = dispatchDecide (match begins with
            | none => r
            | some n => pressureConfirm n id r)) ∧
        (seg = none → (∀ f fd, p.feeds.get? f = some fd → fd.outlet ≠ some id) → p.feeds.wf 64 = true →
          exec (.rideThroughExpiry id) s = .next (s.withPart (dispatchDecide (refreshLamps
            (place (.pointBand id st.band k.band (st.filtered.getD 0) st.falling .rideThrough)
              { p with points := points }))))))) ∧
    (∀ (points : Table Point) (segment : Nat), points.wf 256 = true →
      let gives := fun (b : Band) => ∃ id pt c st, points.get? id = some pt ∧ pt.quality = .good ∧
        pt.body = .pressure (some segment) c st ∧ st.band = b
      (derivePressure points segment = none ↔ ∀ b, ¬ gives b) ∧
      (∀ b, derivePressure points segment = some b → gives b ∧ ∀ b', gives b' →
        b'.severity < b.severity ∨ (b'.severity = b.severity ∧ (b'.isLow = true → b.isLow = true)))) ∧
    (∀ (os : Nat) (o : Outstation) (d : ReplyData) (p : Part), p.tablesOk → p.outstations.get? os = some o →
      let q := dataReply os d p
      q.clock = p.clock ∧
      (∀ id pt, p.points.get? id = some pt →
        q.points.get? id = some (if pt.outstation = os then pt.sampled d p.time else pt)) ∧
      (∀ n x, p.segments.get? n = some x → ∃ b,
        ((∃ id pt c st, p.points.get? id = some pt ∧ pt.outstation = os ∧ pt.body = .pressure (some n) c st) →
          b = derivePressure q.points n) ∧
        ((¬ ∃ id pt c st, p.points.get? id = some pt ∧ pt.outstation = os ∧ pt.body = .pressure (some n) c st) →
          b = x.pressure) ∧
        q.segments.get? n = some { x with pressure := b, changed := x.changed || decide (b ≠ x.pressure) }) ∧
      ((∀ f fd, p.feeds.get? f = some fd → fd.live = deriveLive p.points fd) → ∀ f fd, p.feeds.get? f = some fd →
        q.feeds.get? f = some { fd with live := deriveLive q.points fd } ∧
        (deriveLive q.points fd ≠ fd.live → q.trace.pendingCause.isSome = true)) ∧
      (∀ cs w, d = .station cs w → q.valves = p.valves ∧ q.plans = p.plans ∧
        let begun := p.points.entries.filterMap fun e =>
          if e.2.outstation = os then (e.2.beginsFor (e.2.sampled d p.time)).map fun n => (e.1, n) else none
        p.Confirmed q (fun n => ∃ id, (id, n) ∈ begun) ∧ ∃ r : Part, r.register = p.register ∧
          q = dispatchDecide (begun.foldl (fun r e => pressureConfirm e.2 e.1 r) r)) ∧
      (∀ slots w, d = .actuator slots w →
        let reported := fun v => ∃ valve, p.valves.get? v = some valve ∧ valve.actuated = true ∧ valve.outstation = os ∧
          valve.slot < slots.length ∧ ∀ u x, p.valves.get? u = some x → x.actuated = true → x.outstation = os →
            x.slot = valve.slot → u = v
        let vs := p.valves.idsWhere fun v _ => decide (p.lastEnd? v ≠ q.lastEnd? v)
        (∀ v, v ∈ q.trace.changeSet ↔ v ∈ p.trace.changeSet ∨ (v ∈ vs ∧ ∃ id, p.trace.engine = .planJob id)) ∧
        ∀ id x, p.plans.get? id = some x →
          (x.state = .ready → q.plans.get? id = some (x.snooped vs p.time)) ∧
          ((x.state = .executing ∨ x.state = .blocked) → (∃ v ∈ x.closeList, reported v) → q.shut x.closeList →
            ∃ y, q.plans.get? id = some y ∧ y.state = .isolated ∧ y.stateTime = p.time) ∧
          (x.state = .isolated → (∃ v ∈ x.closeList, reported v ∧ q.lastEnd? v = some .opened) →
            ∃ v ∈ x.closeList, q.lastEnd? v = some .opened ∧
              q.plans.get? id = some { x with state := .blocked, stateTime := p.time, blocking := some v }) ∧
          (x.state = .releasing → ∀ v ∈ x.releaseList, reported v → (∃ o, q.op? v = some o ∧ o.origin = .plan id ∧
            o.action = .toOpen ∧ o.state = .done) → ∀ y, q.plans.get? id = some y → v ∉ y.releaseList)) ∧
      (∀ slots w v valve b, d = .actuator slots w → p.valves.get? v = some valve → valve.actuated = true →
        valve.outstation = os → slots[valve.slot]? = some (slotStatus b) →
        (∀ u x, p.valves.get? u = some x → x.actuated = true → x.outstation = os → x.slot = valve.slot → u = v) →
        ∃ valve', q.valves.get? v = some valve' ∧
          valve'.position = (match b.getLsbD 0, b.getLsbD 1 with
            | true, false => .opened
            | false, true => .closed
            | false, false => .moving
            | true, true => .unknown) ∧
          valve'.lastEnd = (match b.getLsbD 0, b.getLsbD 1 with
            | true, false => .opened
            | false, true => .closed
            | _, _ => valve.lastEnd) ∧
          (valve'.lastEnd ≠ valve.lastEnd → q.trace.pendingCause.isSome = true)))) ∧
  (∀ (n point id : Nat) (i : Incident) (p : Part), p.register.incidents.get? id = some i → i.RaisedFor n →
    (∀ k j, p.register.incidents.get? k = some j → j.RaisedFor n → k = id) →
    p.register.incidents.wf 128 = true →
    let put := fun (i : Incident) (q : Part) => refreshLamps { q with register := { q.register with
      incidents := q.register.incidents.set id i } }
    let deadline := min i.deadline (i.openedTime + p.response .a)
    let raised := { i with grade := .a, deadline := deadline }
    let told := place (.incidentUpgraded id i.grade .a .pressure (some point) deadline) (put raised p)
    let next := p.time + 60 * p.register.interval
    let follows := deadline < i.deadline ∧ i.level = 0 ∧ (i.state = .opened ∨ i.state = .assigned)
    (¬ follows → pressureConfirm n point p = told) ∧
    (follows → p.time < deadline → pressureConfirm n point p = put { raised with nextEscalation := some deadline } told) ∧
    (follows → deadline ≤ p.time → pressureConfirm n point p = place (.incidentEscalated id 1 i.state deadline (some next))
      (put { raised with level := 1, nextEscalation := some next } told))) ∧
  (∀ (n point : Nat) (p : Part), p.register.incidents.wf 128 = true →
    (∀ k j, p.register.incidents.get? k = some j → ¬ j.RaisedFor n) → pressureConfirm n point p = p)

/-- In RUNNING, with 1 to 16 points named, all defined, each named point has its LOW_SEEN or pending flag clear and
everything else as before, every other point is unchanged, and the OK reply carries how many points were cleared.
Nothing else changes but the lamps, which follow, and the horn. In RUNNING, SET_BANDS of a PRESSURE point with a T_rt
up to 600 and settings that stay ordered replaces L2, L1, H1, H2, h and T_rt, drops a candidate, leaves the band and
all else, and is answered OK. (03, section 3.8) -/
def Obligations.PointsAreAcknowledgedAndEdited : Prop :=
  (∀ (tag : Byte) (ids : List Nat) (s : State), s.ready → s.part.points.wf 256 = true → 1 ≤ ids.length → ids.length ≤ 16 →
      (∀ id ∈ ids, id < 256 ∧ s.part.points.has id = true) →
      let body := byte ids.length :: ids.map byte
      let p := s.begun 0x14 tag body
      ∃ points, exec (.ackPoint tag body) s = .next (s.answered (refreshLamps { p with points := points }) .ok
          [byte (p.points.count fun id pt => decide (id ∈ ids) && pt.flagged)]) ∧
        ∀ id, points.get? id = (p.points.get? id).map fun pt => if id ∈ ids then pt.acked else pt) ∧
  (∀ (tag : Byte) (id l2 l1 h1 h2 h rt : Nat) (pt : Point) (seg : Option Nat) (c : PressureSettings) (st : PressureState)
      (s : State), s.ready → id < 256 → l2 ≤ 65535 → l1 ≤ 65535 → h1 ≤ 65535 → h2 ≤ 65535 → h ≤ 65535 → rt ≤ 600 →
      s.part.points.get? id = some pt → pt.body = .pressure seg c st →
      let c' := { c with l2 := l2, l1 := l1, h1 := h1, h2 := h2, hyst := h, rideThrough := rt }
      ordered c' = true →
      let body := byte id :: be16 l2 ++ be16 l1 ++ be16 h1 ++ be16 h2 ++ be16 h ++ be16 rt
      let p := s.begun 0x15 tag body
      exec (.setBands tag body) s = .next (s.answered { p with
        points := p.points.set id { pt with body := .pressure seg c' { st with candidate := none } } } .ok []))

/-- In RUNNING, EDIT_SEGMENT with a body that is not 6 bytes is refused with BAD_LENGTH, with a segment above 511 with
REFUSED_RANGE, of an undefined segment with NOT_FOUND, with more priority premises than customers with REFUSED_RANGE,
of a segment that is not SUPPLIED with REFUSED_STATE; otherwise both counts are replaced, nothing else changes (no
mark, no raise, no plan's impact), and the reply is OK. In RUNNING, EDIT_FEED of a defined feed writes its service
state; the feed is live if it is IN_SERVICE and its outlet point, if any, is not in LOW_TRIP; a change of liveness
raises supply-pending with cause FEED unless it was pending already. Nothing else changes, and the reply is OK. (04,
section 4.5; 03, section 3.9; 05, section 5.2) -/
def Obligations.SegmentsAndFeedsAreEdited : Prop :=
  (∀ (tag : Byte) (body : List Byte) (s : State), s.ready →
      let p := s.begun 0x16 tag body
      let id := u16 body 0
      let customers := u16 body 2
      let priority := u16 body 4
      let refused := fun (st : Status) => exec (.editSegment tag body) s = .next (s.answered p st [])
      (body.length ≠ 6 → refused .badLength) ∧
      (body.length = 6 →
        (511 < id → refused .refusedRange) ∧
        (id ≤ 511 → p.segments.get? id = none → refused .notFound) ∧
        (∀ x, id ≤ 511 → p.segments.get? id = some x →
          (customers < priority → refused .refusedRange) ∧
          (priority ≤ customers → x.supply ≠ .supplied → refused .refusedState) ∧
          (priority ≤ customers → x.supply = .supplied → exec (.editSegment tag body) s = .next (s.answered
            { p with segments := p.segments.set id { x with customers := customers, priority := priority } } .ok []))))) ∧
  (∀ (tag : Byte) (f service : Nat) (fd : Feed) (s : State), s.ready → f < 64 → service ≤ 1 →
      s.part.feeds.get? f = some fd →
      let body := [byte f, byte service]
      let p := s.begun 0x18 tag body
      let live := decide (service = 0) && (match fd.outlet with
        | none => true
        | some id => decide (((p.points.get? id).bind Point.band?) ≠ some .lowTrip))
      exec (.editFeed tag body) s = .next (s.answered { p with
        feeds := p.feeds.set f { fd with inService := service = 0, live := live }
        trace := { p.trace with pendingCause :=
          if live = fd.live then p.trace.pendingCause else some (p.trace.pendingCause.getD (.feed f)) } } .ok []))

/-- In RUNNING, EDIT_VALVE with the flag's present value changes nothing. With the other value: the flag is written
and nothing else of any valve, both end segments are marked changed, supply-pending is raised with cause EDIT unless
it was pending already, each READY plan that uses the valve goes STALE at this time, and the valve enters the change
set while a plan job runs. Lines, points, feeds, districts, incidents, crews and outages are unchanged. (04, section
4.5; 04, section 4.4; 05, section 5.2; 06, section 6.2) -/
def Obligations.EditValveWritesTheFlag : Prop :=
  ∀ (tag : Byte) (v : Nat) (flag_ : Bool) (valve : Valve) (s : State), s.ready → v < 768 → s.part.tablesOk →
    s.part.valves.get? v = some valve →
    let body := be16 v ++ [flag flag_]
    let p := s.begun 0x17 tag body
    (valve.inoperable = flag_ → exec (.editValve tag body) s = .next (s.answered p .ok [])) ∧
    (valve.inoperable ≠ flag_ → ∃ q, exec (.editValve tag body) s = .next (s.answered q .ok []) ∧
      q.valves = p.valves.set v { valve with inoperable := flag_ } ∧
      (∀ id x, p.segments.get? id = some x → q.segments.get? id =
        some { x with changed := x.changed || decide (id = valve.endA ∨ id = valve.endB) }) ∧
      Trace.Entered { p.trace with pendingCause := some (p.trace.pendingCause.getD .edit) } q.trace [v] ∧
      (∀ id, q.plans.get? id = (p.plans.get? id).map fun x => x.snooped [v] p.time) ∧
      q.clock = p.clock ∧ q.lines = p.lines ∧ q.outstations = p.outstations ∧ q.points = p.points ∧ q.feeds = p.feeds ∧
      q.districts = p.districts ∧ q.register = p.register ∧ q.dispatch = p.dispatch ∧ q.outages = p.outages ∧
      q.panel = p.panel)

/-- In RUNNING: a report of an end, for a valve whose outstation does not answer for it, writes the position and the
last end position and nothing else of any valve but operations; a CREW operation toward that end, PENDING or ACTING,
is DONE. A report of CANNOT_OPERATE sets the inoperable flag and nothing else of any valve but operations, and a CREW
operation, PENDING or ACTING, is FAILED with SEIZED. The reply is OK, points and feeds are unchanged, and a changed
last end position leaves supply-pending set. A changed last end, or a flag newly set, takes the READY plans that use
the valve to STALE, and the valve enters the change set while a plan job runs. An EXECUTING or BLOCKED plan whose
close list is all last CLOSED goes ISOLATED: its PENDING CLOSE operations are cancelled, and its OPEN, ASSIGNED or
ON_SITE incident is MADE_SAFE. An ISOLATED plan goes BLOCKED by a close-list valve that is OPEN again, an EXECUTING
one by a CLOSE of its own that is SEIZED. A DONE reopening leaves its plan's release list, and the plan goes FREE with
its last. A report of an end leaves every other plan and operation as it was. The tests after any outcome are made
valve by valve, on the plans with the valve on the close list, in ascending id: whether the isolation is broken; if it
is complete, the cancellations, their notices before any of the plan's; whether it failed; whether it is complete. The
order of the plans (log entry 30) and the place of the notice of an ended offer (35) are the model's choices. (04,
section 4.4; 06, section 6.4; 04, section 4.5; 05, section 5.2; 06, section 6.2; 06, section 6.5; 06, section 6.7; 07,
section 7.2) -/
def Obligations.ValveReportWritesThePosition : Prop :=
  (∀ (tag : Byte) (v code : Nat) (valve : Valve) (s : State), s.ready → v < 768 → code ≤ 2 →
      s.part.valves.get? v = some valve → (code = 2 ∨ valve.actuated = false ∨ s.part.answers valve.outstation = false) →
      let body := be16 v ++ [byte code]
      let p := s.begun 0x19 tag body
      let e := endOf code
      ∃ q, exec (.valveReport tag body) s = .next (s.answered q .ok []) ∧
        q.clock = p.clock ∧ q.points = p.points ∧ q.feeds = p.feeds ∧ (∀ v', v' ≠ v → q.bare v' = p.bare v') ∧
        (code < 2 →
          q.bare v = some { valve with position := e.position, lastEnd := e, operation := none } ∧
          let changed := if e = valve.lastEnd then [] else [v]
          let written := { p with valves := p.valves.set v { valve with position := e.position, lastEnd := e } }
          let snooped := snoop changed none (if changed = [] then written else raise (.valve v (p.originPlan v)) written)
          q = dispatchDecide (planCourse [⟨v, false⟩] (opEndReport v e snooped)) ∧
          Trace.Entered { p.trace with
            pendingCause := if e = valve.lastEnd then p.trace.pendingCause
              else some (p.trace.pendingCause.getD (.valve v (p.originPlan v))) } q.trace changed ∧
          (p.plans.wf 16 = true → ∀ id, q.plans.get? id = (p.plans.get? id).bind fun x =>
            if x.state = .releasing ∧
                ((q.op? v).any fun o => decide (o.origin = .plan id ∧ o.action = .toOpen ∧ o.state = .done)) = true then
              x.without [v]
            else if v ∈ x.closeList ∧ x.state = .isolated ∧ e = .opened then
              some { x with state := .blocked, stateTime := p.time, blocking := some v }
            else if v ∈ x.closeList ∧ (x.state = .executing ∨ x.state = .blocked) ∧ written.shut x.closeList then
              some { x with state := .isolated, stateTime := p.time }
            else some (x.snooped changed p.time)) ∧
          (p.plans.wf 16 = true → ∀ id x, p.plans.get? id = some x → v ∈ x.closeList →
            (x.state = .executing ∨ x.state = .blocked) → written.shut x.closeList →
            p.MadeSafe q x ∧ ∀ u ∈ x.closeList, ∀ o, p.op? u = some o → o.origin = .plan id → o.closePending →
              (u = v → o.mode = .field) →
              q.op? u = some { o with state := .failed .cancelled, stateTime := p.time, travelExpiry := none }) ∧
          (p.plans.wf 16 = true → ∀ u, u ≠ v → (∀ id x o, p.plans.get? id = some x → p.op? u = some o →
              ¬ (v ∈ x.closeList ∧ u ∈ x.closeList ∧ o.origin = .plan id ∧ o.closePending ∧ written.shut x.closeList)) →
            q.op? u = p.op? u) ∧
          (∀ o, valve.operation = some o → o.mode = .crew → o.live = true → o.action.target = e →
            q.op? v = some { o with state := .done, stateTime := p.time, travelExpiry := none })) ∧
        (code = 2 →
          q = dispatchDecide (planCourse [(opSeizedReport v (changeInoperable v true (.valve v (p.originPlan v)) p)).2]
            (opSeizedReport v (changeInoperable v true (.valve v (p.originPlan v)) p)).1) ∧
          (s.part.tablesOk → valve.inoperable = false →
            Trace.Entered { p.trace with
              pendingCause := some (p.trace.pendingCause.getD (.valve v (p.originPlan v))) } q.trace [v] ∧
            ∀ id x, p.plans.get? id = some x →
              (x.state = .ready → q.plans.get? id = some (x.snooped [v] p.time)) ∧
              (x.state = .executing → ¬ p.shut x.closeList → v ∈ x.closeList →
                (∀ o, p.op? v = some o → o.origin = .plan id → o.mode = .crew → o.live = true → o.action = .toClose →
                  q.plans.get? id = some { x with state := .blocked, stateTime := p.time, blocking := some v }))) ∧
          q.bare v = some { valve with inoperable := true, operation := none } ∧
          (∀ o, valve.operation = some o → o.mode = .crew → o.live = true →
            q.op? v = some { o with state := .failed .seized, stateTime := p.time, travelExpiry := none }))) ∧
  (∀ (id : Nat) (x : Plan) (p : Part), p.plans.get? id = some x →
    (∀ new valve, setPlanState id new valve p = place (.planState id x.state new x.target x.incident x.failure valve)
      { p with plans := p.plans.set id { x with
        state := new, stateTime := p.time, blocking := if valve.isSome then valve else x.blocking } }) ∧
    let isolates := (x.state = .executing ∨ x.state = .blocked) ∧ p.shut x.closeList
    let gone := setPlanState id .isolated none p
    (isolates → cancelPending id p = p.cancelled id x.closeList fun o => decide o.closePending) ∧
    (¬ isolates → cancelPending id p = p) ∧
    (¬ isolates → isolationTest id p = p) ∧
    (isolates → (∀ i inc, x.incident = some i → p.register.incidents.get? i = some inc → ¬ inc.exposed) →
      isolationTest id p = gone) ∧
    (isolates → ∀ i inc, x.incident = some i → p.register.incidents.get? i = some inc → inc.exposed →
      let safe := place (.incidentState i inc.state .madeSafe .plan inc.crew) (refreshLamps { gone with
        register := { gone.register with incidents := gone.register.incidents.set i { inc with
          state := .madeSafe, stateTime := p.time, nextEscalation := none } } })
      isolationTest id p = if inc.state = .opened then endJob ⟨.leak, i⟩ safe else safe) ∧
    ∀ v,
      let breaks := x.state = .isolated ∧ p.lastEnd? v = some .opened
      let fails := x.state = .executing ∧
        ∃ o, p.op? v = some o ∧ o.origin = .plan id ∧ o.action = .toClose ∧ o.state ≠ .failed .cancelled
      let leaves := x.state = .releasing ∧ v ∈ x.releaseList
      let left := { p with plans := p.plans.set id { x with releaseList := x.releaseList.filter (· != v) } }
      (breaks → breakTest id v p = setPlanState id .blocked (some v) p) ∧ (¬ breaks → breakTest id v p = p) ∧
      (fails → failureTest id ⟨v, true⟩ p = setPlanState id .blocked (some v) p) ∧
      (¬ fails → failureTest id ⟨v, true⟩ p = p) ∧ failureTest id ⟨v, false⟩ p = p ∧ (¬ leaves → leaveReleaseOf id v p = p) ∧
      (leaves → x.releaseList.filter (· != v) ≠ [] → leaveReleaseOf id v p = left) ∧
      (leaves → x.releaseList.filter (· != v) = [] → leaveReleaseOf id v p = freePlan id left)) ∧
  (∀ (t : Touched) (ts : List Touched) (p : Part),
    let tested := fun (r : Part) => (r.plans.idsWhere fun _ x => x.closeList.contains t.valve).foldl
      (fun r id => isolationTest id (failureTest id t (cancelPending id (breakTest id t.valve r)))) r
    let reopened := fun (id : Nat) =>
      ∃ o, p.op? t.valve = some o ∧ o.origin = .plan id ∧ o.action = .toOpen ∧ o.state = .done
    (∀ id, reopened id → courseOf t p = tested (leaveReleaseOf id t.valve p)) ∧
    ((∀ id, ¬ reopened id) → courseOf t p = tested p) ∧
    planCourse [] p = p ∧ planCourse (t :: ts) p = planCourse ts (courseOf t p)) ∧
  (∀ (v : Nat) (valve : Valve) (o : Operation) (e : End) (p : Part), p.valves.get? v = some valve →
    valve.operation = some o →
    let put := fun (state : OpState) => { p with valves := p.valves.set v { valve with operation := some { o with
      state := state, stateTime := p.time, travelExpiry := none } } }
    let crew := o.mode = .crew ∧ (o.state = .pending ∨ o.state = .acting)
    (crew → o.action.target = e →
      opEndReport v e p = endJob ⟨.valve, v⟩ (place (.valveDone v o.action o.origin .crew) (put .done))) ∧
    (¬ (crew ∧ o.action.target = e) → opEndReport v e p = p) ∧
    (crew → opSeizedReport v p =
      (endJob ⟨.valve, v⟩ (place (.valveFailed v o.action o.origin .crew .seized) (put (.failed .seized))), ⟨v, true⟩)) ∧
    (¬ crew → opSeizedReport v p = (p, ⟨v, false⟩)))

/-- From IDLE with supply-pending set, a supply trace starts with its cause and a view of the last end positions and
live feeds, and the flag clears. With no trace owed, the plan job at the head of the queue starts with a view that has
the inoperable valves too and an empty change set, and its plan is COMPUTING. A busy engine, or one with no work, does
nothing. When a plan job completes, its plan takes the area, the close and hold lists, the impact and the failure
reason of the computation over the job's view, and goes FAILED if the computation failed, STALE if a valve of its
lists changed while it ran, and otherwise READY; its notice is placed and the engine is IDLE. Nothing else changes.
That JOB_START does nothing in those two cases is the model's choice (log entry 5). (05, section 5.1; 05, section 5.4;
05, section 5.7; 06, section 6.2) -/
def Obligations.JobsStartAndPlansSettle : Prop :=
  (∀ s : State,
      let p := s.part
      let ends := p.valves.entries.map fun e => (e.1, e.2.lastEnd)
      let live := p.feeds.idsWhere fun _ f => f.live
      (p.trace.engine ≠ .idle → exec .jobStart s = .next s) ∧
      (p.trace.engine = .idle → p.trace.pendingCause = none → p.trace.planQueue = [] → exec .jobStart s = .next s) ∧
      (∀ c, p.trace.engine = .idle → p.trace.pendingCause = some c → exec .jobStart s =
        .next (s.withPart { p with trace := { p.trace with
            engine := .supplyJob c, pendingCause := none, view := some ⟨ends, [], live⟩, changeSet := [] } })) ∧
      (∀ id rest q, p.trace.engine = .idle → p.trace.pendingCause = none → p.trace.planQueue = id :: rest →
        p.plans.get? id = some q → exec .jobStart s =
          .next (s.withPart (place (.planState id q.state .computing q.target q.incident q.failure none)
            { p with
              trace := { p.trace with
                engine := .planJob id, planQueue := rest, changeSet := []
                view := some ⟨ends, p.valves.idsWhere fun _ v => v.inoperable, live⟩ }
              plans := p.plans.set id { q with state := .computing, stateTime := p.time } })))) ∧
  (∀ (id : Nat) (w : View) (x : Plan) (s : State), s.part.trace.engine = .planJob id → s.part.trace.view = some w →
      s.part.plans.get? id = some x →
      let p := s.part
      let r := computePlan p w x.target
      let new := if r.failure.isSome then PlanState.failed
        else if p.trace.changeSet.any (fun v => decide (v ∈ r.close ∨ v ∈ r.hold)) then .stale else .ready
      exec .planJobComplete s = .next (s.withPart (place (.planState id x.state new x.target x.incident r.failure none)
          { p with
            trace := { p.trace with engine := .idle, view := none, changeSet := [] }
            plans := p.plans.set id { x with
              state := new, stateTime := p.time, area := r.area, closeList := r.close.take 64, holdList := r.hold.take 64
              impact := r.impact, failure := r.failure } })))

/-- Over a network whose valves and feeds name defined segments, a segment is in the reached set of the supply trace
over a view if and only if a live feed supplies it or a path of valves that stand open in the view leads to it from
one that does; and the feed it was reached from is live in the view. (05, section 5.5) -/
def Obligations.TraceFindsWhatGasReaches : Prop :=
  ∀ (p : Part) (w : View), p.endsDefined →
    (∀ segment, (∃ f, (segment, f) ∈ supplyTrace p w [] []) ↔ Reaches p w segment) ∧
    ∀ segment f, (segment, f) ∈ supplyTrace p w [] [] → f ∈ w.liveFeeds

/-- When a supply trace completes, each segment takes the feed it was reached from; a reached one that was OFF is
RECHARGED, any other reached one keeps its state, and one not reached is OFF, with relit count 0 if it was not OFF
before; exactly the segments whose feed or state changed gain a mark; all else of a segment stays but for the joiners.
The newly OFF in no outage all join one record and are SUSPECT no longer: the lowest FREE one; with none FREE the
ENDED one of earliest ended time and then lowest id, replaced whole; with none ENDED the ACTIVE one of latest opened
time and then highest id, whose cause becomes MIXED. It counts them, their customers and priority premises, and lists
them up to 64, the rest as overflow. Each outage loses the relit counts of its members that are lost again. A district
loses its SUSPECT joiners and counts the outage if it had no member there. The engine is IDLE. The relight jobs of the
PURGED and RELIGHTING segments that go OFF end: each crew offered or holding one is AVAILABLE without it. Then the
arbiter decides. That the notices of the offers so ended follow the outages' is the model's choice (log entry 35).
Valves, feeds, points, plans and incidents are unchanged. (05, section 5.6; 09, section 9.1; 09, section 9.2; 09,
section 9.3; 04, section 4.6; 04, section 4.7; 08, section 8.4; 08, section 8.6) -/
def Obligations.SupplyTraceIsApplied : Prop :=
  ∀ (c : Cause) (w : View) (s : State), s.part.tablesOk → s.part.trace.engine = .supplyJob c →
    s.part.trace.view = some w →
    let p := s.part
    let reached := fun id => findEntry id (supplyTrace p w [] [])
    let after := fun id (x : Segment) =>
      if (reached id).isSome then (if x.supply = .off then SupplyState.recharged else x.supply) else .off
    let lost := p.segments.entries.filter fun e => (reached e.1).isNone && decide (e.2.supply ≠ .off)
    let joining := lost.filter fun e => e.2.outage.isNone
    let joiners := joining.map (·.1)
    let again := fun o => ((lost.filter fun e => decide (e.2.outage = some o)).map (·.2.relit)).sum
    let fresh : Outage := match c with
      | .load => { cause := .load, item := none, plan := none, opened := p.time }
      | .edit => { cause := .edit, item := none, plan := none, opened := p.time }
      | .feed f => { cause := .feed, item := some f, plan := none, opened := p.time }
      | .valve v plan => { cause := .valve, item := some v, plan := plan, opened := p.time }
    ∃ q, exec .supplyTraceComplete s = .next (s.withPart q) ∧
      q.trace = { p.trace with engine := .idle, view := none, changeSet := [] } ∧
      q.clock = p.clock ∧ q.valves = p.valves ∧ q.feeds = p.feeds ∧ q.points = p.points ∧ q.plans = p.plans ∧
      q.register = p.register ∧ q.lines = p.lines ∧
      (let jobs := (lost.filter fun e => decide (e.2.supply = .purged ∨ e.2.supply = .relighting)).map fun e =>
          (⟨.relight, e.1⟩ : Job)
        ∃ h : Part, h.dispatch = p.dispatch ∧ h.clock = p.clock ∧
          q = dispatchDecide (jobs.foldl (fun r j => endJob j r) h) ∧
          p.Released (jobs.foldl (fun r j => endJob j r) h) jobs) ∧
      (∀ id x, p.segments.get? id = some x → ∃ y, q.segments.get? id = some y ∧
        y = { x with
          reaching := reached id, supply := after id x
          relit := if (reached id).isNone ∧ x.supply ≠ .off then 0 else x.relit
          changed := x.changed || decide (x.reaching ≠ reached id ∨ x.supply ≠ after id x)
          outage := y.outage, suspect := y.suspect, noGas := y.noGas } ∧
        (id ∉ joiners → y.outage = x.outage ∧ y.suspect = x.suspect ∧ y.noGas = x.noGas)) ∧
      (joiners = [] → q.districts = p.districts ∧ ∀ o r, p.outages.get? o = some r →
        q.outages.get? o = some { r with customersRelit := r.customersRelit - again o }) ∧
      (joiners ≠ [] → ∃ o base,
        ((p.outages.firstFree 64 = some o ∧ base = fresh) ∨
          (p.outages.firstFree 64 = none ∧ base = fresh ∧ ∃ r t, p.outages.get? o = some r ∧ r.ended = some t ∧
            ∀ o' r' t', p.outages.get? o' = some r' → r'.ended = some t' → t < t' ∨ (t = t' ∧ o ≤ o')) ∨
          (p.outages.firstFree 64 = none ∧ (∀ o' r', p.outages.get? o' = some r' → r'.ended = none) ∧
            ∃ r, p.outages.get? o = some r ∧ base = { r with cause := .mixed, item := none, plan := none } ∧
              ∀ o' r', p.outages.get? o' = some r' → r'.opened < r.opened ∨ (r'.opened = r.opened ∧ o' ≤ o))) ∧
        (∀ id ∈ joiners, ∃ y, q.segments.get? id = some y ∧ y.outage = some o ∧ y.suspect = false ∧ y.noGas = []) ∧
        let unlisted := joiners.filter fun id => !base.listing.contains id
        let room := 64 - base.listing.length
        q.outages.get? o = some { base with
          members := base.members + joiners.length
          customersOff := base.customersOff + (joining.map (·.2.customers)).sum
          priorityOff := base.priorityOff + (joining.map (·.2.priority)).sum
          customersRelit := base.customersRelit - again o
          listing := base.listing ++ unlisted.take room
          overflow := if unlisted.length ≤ room then base.overflow
            else min 65535 (base.overflow + (unlisted.length - room)) } ∧
        (∀ o' r, o' ≠ o → p.outages.get? o' = some r →
          q.outages.get? o' = some { r with customersRelit := r.customersRelit - again o' }) ∧
        ∀ d r, p.districts.get? d = some r → q.districts.get? d = some { r with
          suspects := r.suspects - (joining.filter fun e => e.2.suspect && decide (e.2.district = d)).length
          activeOutages := if (joining.any fun e => decide (e.2.district = d)) && !p.memberIn o d then r.activeOutages + 1
            else r.activeOutages })

/-- For a plan computed without failure, over any network and view: the target is in the area, the area has at most 32
segments and each list at most 64 valves, no live feed of the view supplies the area, and each valve that a segment of
the area lists, and that stands open with its other end outside the area, is on the close list and not inoperable; a
closed one is on the hold list. Every computation: the area holds the target and what open inoperable valves lead on
to from it, no segment twice, and at most 32; its lists hold valves of its segments, open and operable on the close
list and closed on the hold list, and, the search complete, none with both ends inside. It fails with TOO_LARGE just
when such a valve leads out of an area of 32, or, with no live feed of the view inside, a list has more than 64
valves; with FEED_INSIDE just when no such valve leads out and a live feed supplies the area; and it fails for no
other reason. A failed one has no impact. The impact of one that does not fail counts the defined segments that the
impact trace does not reach, past the close list and outside the area, their customers and their priority premises.
(06, section 6.2; 05, section 5.5) -/
def Obligations.ComputedPlansShutTheAreaOff : Prop :=
  (∀ (p : Part) (w : View) (target : Nat), (computePlan p w target).failure = none →
      let r := computePlan p w target
      target ∈ r.area ∧ r.area.length ≤ 32 ∧ r.close.length ≤ 64 ∧ r.hold.length ≤ 64 ∧
      (∀ f ∈ w.liveFeeds, ∀ fd, p.feeds.get? f = some fd → fd.segment ∉ r.area) ∧
      ∀ a ∈ r.area, ∀ v ∈ p.valveList a, ∀ valve, p.valves.get? v = some valve →
        (valve.endA = a ∨ valve.endB = a) → valve.otherEnd a ∉ r.area →
        (w.isOpen v = true → v ∈ r.close ∧ v ∉ w.inoperable) ∧ (w.isOpen v = false → v ∈ r.hold)) ∧
  (∀ (p : Part) (w : View) (target : Nat),
    let r := computePlan p w target
    let leads := ∃ a ∈ r.area, ∃ v ∈ p.valveList a, ∃ valve, p.valves.get? v = some valve ∧ w.isOpen v = true ∧
      v ∈ w.inoperable ∧ valve.otherEnd a ∉ r.area
    let fed := ∃ f ∈ w.liveFeeds, ∃ fd, p.feeds.get? f = some fd ∧ fd.segment ∈ r.area
    let long := 64 < r.close.length ∨ 64 < r.hold.length
    target ∈ r.area ∧ r.area.Nodup ∧ r.area.length ≤ 32 ∧
    (∀ pre b post, r.area = pre ++ b :: post → (pre = [] ∧ b = target) ∨ ∃ a ∈ pre, ∃ v ∈ p.valveList a, ∃ valve,
      p.valves.get? v = some valve ∧ w.isOpen v = true ∧ v ∈ w.inoperable ∧ valve.otherEnd a = b) ∧
    r.close.Nodup ∧ r.hold.Nodup ∧ (∀ v ∈ r.close, w.isOpen v = true ∧ v ∉ w.inoperable ∧ ∃ a ∈ r.area, v ∈ p.valveList a) ∧
    (∀ v ∈ r.hold, w.isOpen v = false ∧ ∃ a ∈ r.area, v ∈ p.valveList a) ∧
    (¬ leads → ∀ v ∈ r.close ++ r.hold, ∀ valve, p.valves.get? v = some valve →
      ¬ (valve.endA ∈ r.area ∧ valve.endB ∈ r.area)) ∧
    (leads → r.area.length = 32) ∧
    (r.failure = some .tooLarge ↔ leads ∨ (¬ fed ∧ long)) ∧ (r.failure = some .feedInside ↔ ¬ leads ∧ fed) ∧
    (r.failure = none ↔ ¬ leads ∧ ¬ fed ∧ ¬ long) ∧ (r.failure ≠ none → r.impact = none) ∧
    (r.failure = none → p.endsDefined → ∃ lost : List (Nat × Segment), lost.Sublist p.segments.entries ∧
      (∀ e ∈ p.segments.entries, e ∈ lost ↔ ¬ ReachesPast p w r.close r.area e.1) ∧
      r.impact = some ⟨lost.length, (lost.map (·.2.customers)).sum, (lost.map (·.2.priority)).sum⟩))

/-- In RUNNING, PLAN for a defined target that no plan stands in the way of, with a FREE plan entry and, if it names
one, an incident in use and not CLOSED, is answered ACCEPTED with the lowest FREE plan. That plan is REQUESTED now for
the target and the incident, with empty lists; its job is at the tail of the queue, the incident links to it, and its
notice is placed. Nothing else changes but the lamps. In RUNNING, DROP_PLAN of a plan in READY, STALE or FAILED is
answered OK; the plan is FREE, with its notice, other plans and every valve, segment, line, point and crew are
unchanged, and an incident that linked to the plan links to none. (06, section 6.1; 05, section 5.3; 06, section 6.2)
-/
def Obligations.PlansAreRequestedAndDropped : Prop :=
  (∀ (tag : Byte) (target id : Nat) (incident : Option Nat) (s : State), s.ready → target < 512 →
      s.part.segments.has target = true → s.part.plans.firstFree 16 = some id →
      (s.part.plans.any fun _ q => decide (q.target = target) && q.state.standsInTheWay) = false →
      let body := be16 target ++ [if incident.isSome then 1 else 0, byte (incident.getD 0)]
      let p := s.begun 0x1A tag body
      let p' := { p with
        plans := p.plans.set id
          { state := .requested, target := target, incident := incident, failure := none, requested := p.time
            stateTime := p.time, area := [], closeList := [], holdList := [], releaseList := [], impact := none
            blocking := none }
        trace := { p.trace with planQueue := p.trace.planQueue ++ [id] } }
      let notice := Notice.planState id .free .requested target incident none none
      (incident = none →
        exec (.plan tag body) s = .next (s.answered (place notice p') .accepted [byte id])) ∧
      (∀ i inc, incident = some i → i < 128 → s.part.register.incidents.get? i = some inc → inc.state ≠ .closed →
        exec (.plan tag body) s =
          .next (s.answered (place notice (putIncident i { inc with planLink := some id } p')) .accepted [byte id]))) ∧
  (∀ (tag : Byte) (id : Nat) (x : Plan) (s : State), s.ready → id < 16 → s.part.plans.get? id = some x →
      (x.state = .ready ∨ x.state = .stale ∨ x.state = .failed) →
      let p := s.begun 0x1F tag [byte id]
      let p' := place (.planState id x.state .free x.target x.incident x.failure none) { p with plans := p.plans.erase id }
      (x.incident = none → exec (.dropPlan tag [byte id]) s = .next (s.answered p' .ok [])) ∧
      (∀ i, x.incident = some i → s.part.register.incidents.get? i = none →
        exec (.dropPlan tag [byte id]) s = .next (s.answered p' .ok [])) ∧
      (∀ i inc, x.incident = some i → s.part.register.incidents.get? i = some inc →
        (inc.planLink ≠ some id → exec (.dropPlan tag [byte id]) s = .next (s.answered p' .ok [])) ∧
        (inc.planLink = some id → exec (.dropPlan tag [byte id]) s =
          .next (s.answered (putIncident i { inc with planLink := none } p') .ok []))))

/-- In RUNNING, EXECUTE of a READY plan with no live feed in its area, no operation in its way and room for a holder
on each valve is answered ACCEPTED. The plan becomes a holder of each valve of its lists, a CLOSE operation of its
own, ordered now, stands on each valve of the close list, every other valve is as before, and the plan is EXECUTING;
or, its close list all last CLOSED, on to ISOLATED, its incident made safe; or, a CLOSE having failed with COMMS as it
was ordered, on to BLOCKED with the first such valve, which is the model's reading (log entry 21). Of the other plans,
a READY one that uses a valve of the lists goes STALE, and a RELEASING one loses those valves from its release list
and goes FREE with the last, its incident's link with it; that the snoop comes before the release lists is the model's
choice (31), that the cancellations of an isolation come after EXECUTING and before any other state its reading (32).
The valves enter the change set while a plan job runs. Points, segments, feeds, districts and outages are unchanged.
That the plan itself, READY until then, leads on to EXECUTING and is not taken by the snoop is the model's reading
(log entry 9). Each operation is ordered on the part with the holds in place, in close-list order: a FIELD one offers
its command to its line, and the lines, the outstations and the operations are left as those orders leave them, or,
for ISOLATED, with its CLOSE operations still PENDING cancelled. (06, section 6.3; 06, section 6.4; 06, section 6.5;
05, section 5.2; 06, section 6.2; 06, section 6.7) -/
def Obligations.ExecuteHoldsAndCloses : Prop :=
  (∀ (tag : Byte) (id : Nat) (x : Plan) (s : State), s.ready → id < 16 → s.part.plans.get? id = some x → x.state = .ready →
      (x.closeList ++ x.holdList).Nodup → s.part.liveFeedIn x.area = none → s.part.busyValve x = none →
      s.part.fullValve x = none →
      let p := s.begun 0x1B tag [byte id]
      ∃ q, exec (.execute tag [byte id]) s = .next (s.answered q .accepted []) ∧
        q.clock = p.clock ∧ q.points = p.points ∧ q.segments = p.segments ∧ q.feeds = p.feeds ∧ q.districts = p.districts ∧
        q.outages = p.outages ∧
        (∀ v valve, p.valves.get? v = some valve →
          (v ∈ x.closeList → ∃ valve' o, q.valves.get? v = some valve' ∧ valve'.operation = some o ∧
            o.action = .toClose ∧ o.origin = .plan id ∧ o.ordered = p.time ∧ o.mode = p.modeFor valve ∧
            { valve' with operation := none } = { valve with operation := none, holders := valve.holders ++ [id] }) ∧
          (v ∈ x.holdList → q.valves.get? v = some { valve with holders := valve.holders ++ [id] }) ∧
          (v ∉ x.closeList → v ∉ x.holdList → q.valves.get? v = some valve)) ∧
        let held := x.closeList ++ x.holdList
        let after := fun (y : Plan) => (y.snooped held p.time).without held
        ∃ h : Part, h = { p with
            valves := h.valves, trace := h.trace, plans := h.plans, register := h.register, panel := h.panel
            link := h.link } ∧
          (∀ v, h.valves.get? v = (p.valves.get? v).map fun valve => { valve with
            holders := if v ∈ held then valve.holders ++ [id] else valve.holders }) ∧
          Trace.Entered p.trace h.trace held ∧ q.trace = h.trace ∧ h.plans.get? id = some x ∧
          (s.part.plans.wf 16 = true → ∀ k, k ≠ id → h.plans.get? k = (p.plans.get? k).bind after ∧
            q.plans.get? k = h.plans.get? k) ∧
          (s.part.plans.wf 16 = true → h.register = { p.register with incidents := h.register.incidents } ∧
            ∀ i, h.register.incidents.get? i = (p.register.incidents.get? i).map fun inc => { inc with
              planLink := inc.planLink.bind fun k =>
                if k ≠ id ∧ ((p.plans.get? k).any fun y => decide (y.incident = some i ∧ after y = none)) = true then none
                else some k }) ∧
          let r := h.ordered id .toClose x.closeList
          let failed := x.closeList.filter fun v => (r.op? v).any fun o => decide (o.state = .failed .comms)
          let shut := p.shut x.closeList
          q = dispatchDecide (afterCloses id x.closeList (setPlanState id .executing none r)) ∧
          q.plans.get? id = some { x with
            state := if shut then .isolated else if failed = [] then .executing else .blocked
            stateTime := p.time, blocking := failed.head?.or x.blocking } ∧
          (shut → h.MadeSafe q x) ∧ (¬ shut → q.register = h.register) ∧
          q.operatesAs (if shut then r.cancelled id x.closeList fun o => decide o.closePending else r)) ∧
  (∀ (id : Nat) (vs : List Nat) (p : Part),
    let failed := vs.filter fun v => (p.op? v).any fun o => decide (o.state = .failed .comms)
    afterCloses id vs p = isolationTest id (failed.foldl (fun r v => failureTest id ⟨v, true⟩ r) (cancelPending id p)))

/-- In RUNNING, REISSUE of a BLOCKED plan with a close-list valve whose last end is OPEN, with no operation under way
and operable, or of a RELEASING plan with a release-list valve whose operation FAILED and that is operable, is
answered ACCEPTED. Each such valve has a new operation of the plan, ordered now: a CLOSE or an OPEN. Nothing but its
operation changes on any valve, no other plan and no incident changes, and a BLOCKED plan goes EXECUTING without a
blocking valve; if a CLOSE failed with COMMS as it was ordered, the plan goes on to BLOCKED with the first such valve:
that it is tested so in this event is the model's reading (log entry 21). A FIELD operation offers its command to its
line, and the lines, the outstations and the operations are left as those orders leave them. (06, section 6.5) -/
def Obligations.ReissueOrdersAgain : Prop :=
  ∀ (tag : Byte) (id : Nat) (x : Plan) (s : State), s.ready → id < 16 → s.part.plans.get? id = some x →
    let p := s.begun 0x1C tag [byte id]
    let again := fun (a : Action) (vs : List Nat) (q : Part) =>
      exec (.reissue tag [byte id]) s = .next (s.answered q .accepted []) ∧ q.points = p.points ∧
      q.segments = p.segments ∧ (∀ v, q.bare v = p.bare v) ∧
      ∀ v ∈ vs, ∃ o, q.op? v = some o ∧ o.action = a ∧ o.origin = .plan id ∧ o.ordered = p.time
    (x.state = .blocked → x.closeList.filter p.closeQualifies ≠ [] →
      ∃ q, again .toClose (x.closeList.filter p.closeQualifies) q ∧
        let r := p.ordered id .toClose (x.closeList.filter p.closeQualifies)
        let failed := (x.closeList.filter p.closeQualifies).filter fun v =>
          (r.op? v).any fun o => decide (o.state = .failed .comms)
        q = dispatchDecide (afterCloses id (x.closeList.filter p.closeQualifies)
          (place (.planState id .blocked .executing x.target x.incident x.failure none) { r with
            plans := p.plans.set id { x with state := .executing, stateTime := p.time, blocking := none } })) ∧
        q.plans.get? id = some { x with
          state := if failed = [] then .executing else .blocked, stateTime := p.time, blocking := failed.head? } ∧
        (∀ k, k ≠ id → q.plans.get? k = p.plans.get? k) ∧ q.trace = p.trace ∧ q.register = p.register ∧ q.operatesAs r) ∧
    (x.state = .releasing → x.releaseList.filter p.openQualifies ≠ [] →
      ∃ q, again .toOpen (x.releaseList.filter p.openQualifies) q ∧ q.plans = p.plans ∧
        q = dispatchDecide (p.ordered id .toOpen (x.releaseList.filter p.openQualifies)) ∧
        q.operatesAs (p.ordered id .toOpen (x.releaseList.filter p.openQualifies)))

/-- In RUNNING, ABORT of an EXECUTING, BLOCKED or ISOLATED plan is answered OK. Each operation of the plan still
PENDING or ACTING on its close list is FAILED with CANCELLED, no valve of its lists has it as holder, nothing else of
any valve changes, the plan is FREE, and points, segments, feeds and outages are unchanged. Each other READY plan that
uses a valve of its lists goes STALE, other plans are as before, and the valves enter the change set while a plan job
runs. Each is cancelled in close-list order, with its notice: the command of a PENDING FIELD operation is withdrawn,
out of the queue, or, in transaction, marked to leave it; for an ACTING one a STOP is offered; a CREW one is ended for
the arbiter. The lines and outstations are left as that leaves them. The incident whose plan link names the plan has
none after it. That the notice of a CREW operation comes before the one of its ended offer is the model's choice (log
entry 35). (06, section 6.5; 06, section 6.4; 02, section 2.5; 06, section 6.7; 08, section 8.4; 05, section 5.2; 06,
section 6.2) -/
def Obligations.AbortFreesThePlan : Prop :=
  (∀ (tag : Byte) (id : Nat) (x : Plan) (s : State), s.ready → id < 16 → s.part.plans.get? id = some x →
      (x.state = .executing ∨ x.state = .blocked ∨ x.state = .isolated) →
      let p := s.begun 0x1D tag [byte id]
      ∃ q, exec (.abort tag [byte id]) s = .next (s.answered q .ok []) ∧ q.plans.get? id = none ∧
        q.clock = p.clock ∧ q.points = p.points ∧ q.segments = p.segments ∧ q.feeds = p.feeds ∧ q.outages = p.outages ∧
        (∀ v valve, p.valves.get? v = some valve → q.valves.get? v = some { valve with
          holders := if v ∈ x.closeList ++ x.holdList then valve.holders.filter (· != id) else valve.holders
          operation := valve.operation.map fun o =>
            if v ∈ x.closeList ∧ o.origin = .plan id ∧ (o.state = .pending ∨ o.state = .acting) then
              { o with state := .failed .cancelled, stateTime := p.time, travelExpiry := none }
            else o }) ∧
        (q.register = { p.register with incidents := q.register.incidents } ∧
          ∀ i, q.register.incidents.get? i = (p.register.incidents.get? i).map fun inc => { inc with
            planLink := if x.incident = some i ∧ inc.planLink = some id then none else inc.planLink }) ∧
        (s.part.plans.wf 16 = true → ∀ k, k ≠ id → q.plans.get? k =
          (p.plans.get? k).map fun y => y.snooped (x.closeList ++ x.holdList) p.time) ∧
        Trace.Entered p.trace q.trace (x.closeList ++ x.holdList) ∧
        q.operatesAs (p.cancelled id x.closeList fun o => decide (o.state = .pending ∨ o.state = .acting)) ∧
        ∃ h : Part, q = dispatchDecide (freePlan id h) ∧ h.plans.get? id = some x ∧
          let r := p.cancelled id x.closeList fun o => decide (o.state = .pending ∨ o.state = .acting)
          h = { r with valves := h.valves, trace := h.trace, plans := h.plans, link := h.link }) ∧
  (∀ (v : Nat) (valve : Valve) (o : Operation) (p : Part), p.valves.get? v = some valve → valve.operation = some o →
    let failed := place (.valveFailed v o.action o.origin o.mode .cancelled) { p with
      valves := p.valves.set v { valve with operation := some { o with
        state := .failed .cancelled, stateTime := p.time, travelExpiry := none } } }
    (o.mode = .field → o.state = .pending → cancelOp v p = withdrawCommand v failed) ∧
    (o.mode = .field → o.state = .acting → cancelOp v p = offerStop v failed) ∧
    (o.mode = .crew → (o.state = .pending ∨ o.state = .acting) → cancelOp v p = endJob ⟨.valve, v⟩ failed) ∧
    (o.state ≠ .pending → o.state ≠ .acting → cancelOp v p = p)) ∧
  (∀ (v : Nat) (valve : Valve) (p : Part), p.valves.get? v = some valve →
    let n := valve.outstation / 16
    let l := p.line n
    let mine := fun (c : Command) => decide (c.valve = v ∧ c.action ≠ .stop)
    let put := fun (queue : List Command) => p.onLine n fun l => { l with queue := queue }
    ((∀ t, l.txn? = some t → t.isCommand = false) → withdrawCommand v p = put (l.queue.filter fun c => !mine c)) ∧
    (∀ t c rest, l.txn? = some t → t.isCommand = true → l.queue = c :: rest → withdrawCommand v p =
      put ((if mine c then { c with withdrawn := true } else c) :: rest.filter fun c => !mine c)) ∧
    offerStop v p = (offerCommand
      { valve := v, outstation := valve.outstation, slot := valve.slot, action := .stop, origin := none } p).1) ∧
  (∀ (id : Nat) (x : Plan) (p : Part), p.plans.get? id = some x →
    let freed := place (.planState id x.state .free x.target x.incident x.failure none) { p with plans := p.plans.erase id }
    ((∀ i inc, x.incident = some i → p.register.incidents.get? i = some inc → inc.planLink ≠ some id) →
      freePlan id p = freed) ∧
    ∀ i inc, x.incident = some i → p.register.incidents.get? i = some inc → inc.planLink = some id →
      freePlan id p = refreshLamps { freed with register := { freed.register with
        incidents := freed.register.incidents.set i { inc with planLink := none } } })

/-- In RUNNING, RELEASE of an ISOLATED plan whose incident, if any, is REPAIRED, with no HOST operation under way on a
valve to be reopened, is answered ACCEPTED. No valve of its lists has the plan as holder; each close-list valve that
it alone held, normally open and operable, has an OPEN operation of the plan, ordered now; nothing else but operations
changes on any valve. The plan is RELEASING with those valves on its release list, or FREE if there are none. The
plan's ACTING operations are cancelled first, and on the valves to be reopened its PENDING ones as well; every other
operation is as before, a PENDING one on another valve among them; a FIELD OPEN then offers its command to its line.
The lines, the outstations and the operations are left as those cancellations and orders leave them. Each other READY
plan that uses a valve of its lists goes STALE, other plans are as before, and the valves enter the change set while a
plan job runs. A plan that goes FREE leaves no incident linked to it. That a PENDING operation on a valve to be
reopened is cancelled is the model's reading (log entry 11). (06, section 6.5; 06, section 6.4; 06, section 6.7; 05,
section 5.2; 06, section 6.2) -/
def Obligations.ReleaseReopens : Prop :=
  ∀ (tag : Byte) (id : Nat) (x : Plan) (s : State), s.ready → id < 16 → s.part.plans.get? id = some x →
    x.state = .isolated → s.part.incidentRepaired x = true →
    let p := s.begun 0x1E tag [byte id]
    let vs := p.reopened id x
    (∀ v ∈ vs, ∀ o, p.op? v = some o → o.live = true → o.origin ≠ .host) →
    ∃ q, exec (.release tag [byte id]) s = .next (s.answered q .accepted []) ∧
      q.clock = p.clock ∧ q.points = p.points ∧ q.segments = p.segments ∧ q.feeds = p.feeds ∧ q.outages = p.outages ∧
      (vs = [] → q.plans.get? id = none) ∧
      (vs ≠ [] → ∃ y, q.plans.get? id = some y ∧ y.state = .releasing ∧ y.releaseList = vs ∧ y.stateTime = p.time) ∧
      (∀ v ∈ vs, ∃ o, q.op? v = some o ∧ o.action = .toOpen ∧ o.origin = .plan id ∧ o.ordered = p.time) ∧
      (∀ v valve, p.valves.get? v = some valve → q.bare v = some { valve with
        operation := none
        holders := if v ∈ x.closeList ++ x.holdList then valve.holders.filter (· != id) else valve.holders }) ∧
      (q.register = { p.register with incidents := q.register.incidents } ∧
        ∀ i, q.register.incidents.get? i = (p.register.incidents.get? i).map fun inc => { inc with
          planLink := if vs = [] ∧ x.incident = some i ∧ inc.planLink = some id then none else inc.planLink }) ∧
      (s.part.plans.wf 16 = true → ∀ k, k ≠ id → q.plans.get? k =
        (p.plans.get? k).map fun y => y.snooped (x.closeList ++ x.holdList) p.time) ∧
      Trace.Entered p.trace q.trace (x.closeList ++ x.holdList) ∧
      (∀ v, v ∉ vs → q.op? v = (p.op? v).map fun o =>
        if v ∈ x.closeList ∧ o.origin = .plan id ∧ o.state = .acting then
          { o with state := .failed .cancelled, stateTime := p.time, travelExpiry := none }
        else o) ∧
      let ends := fun v (o : Operation) =>
        decide (o.origin = .plan id ∧ (o.state = .acting ∨ (o.state = .pending ∧ v ∈ vs)))
      let cut := (x.closeList.filter fun v => (p.op? v).any (ends v)).foldl (fun r v => cancelOp v r) p
      q.operatesAs (cut.ordered id .toOpen vs) ∧
      ∃ h : Part, h = { cut with valves := h.valves, trace := h.trace, plans := h.plans, link := h.link } ∧
        h.plans.get? id = some { x with releaseList := vs } ∧
        let r := setPlanState id .releasing none (h.ordered id .toOpen vs)
        q = dispatchDecide (if vs = [] then freePlan id r else r)

/-- In RUNNING, OPERATE of a valve that is operable, has no operation under way and, for an OPEN, no holder, is
answered OK: the valve has a HOST operation ordered now with the action asked; in CREW mode it is PENDING, and the
lines are as before; in FIELD mode its command, with the valve, its outstation and slot, the action and the origin, is
offered to the line, and it is PENDING, or, with the command not placed, FAILED with COMMS and its notice. The lines
and outstations are left as that offer leaves them. The valve leaves the release list of a RELEASING plan, which goes
FREE with its last one. A command offered takes the place of a queued STOP for its valve, or joins the tail of its
line's queue of 8, and is sent at once on a WAITING line at rest while the run is below 4; a STOP is not placed on a
held line, for an outstation that does not answer, or behind an OPEN or CLOSE for its valve. A slot report finishes an
ACTING FIELD operation at its end with VALVE_DONE, or fails it with TORQUE and offers a STOP; it finishes a live CREW
operation at its end and ends its job; it leaves any other. TRAVEL_EXPIRY fails an ACTING FIELD operation whose travel
expiry has come with TRAVEL and offers a STOP, and an EXECUTING plan that waits for a CLOSE of it goes BLOCKED by it,
but ISOLATED if its close list is all last CLOSED. Otherwise it does nothing: the model's choice (log entry 5). The
order in which several plans are tested (30) and the place of the notice of an ended offer (35) are its choices too.
(06, section 6.4; 06, section 6.5; 06, section 6.6; 02, section 2.5) -/
def Obligations.OperateAndTravelExpiry : Prop :=
  (∀ (tag : Byte) (v a : Nat) (valve : Valve) (s : State), s.ready → v < 768 → a ≤ 1 → s.part.valves.get? v = some valve →
    (a = 0 → valve.holders = []) → valve.inoperable = false → s.part.opLive v = false →
    let body := be16 v ++ [byte a]
    let p := s.begun 0x20 tag body
    ∃ q o, exec (.operate tag body) s = .next (s.answered q .ok []) ∧ q.op? v = some o ∧
      o.action = actionOf a ∧ o.origin = .host ∧ o.mode = p.modeFor valve ∧ o.ordered = p.time ∧ o.stateTime = p.time ∧
      o.travelExpiry = none ∧ (o.mode = .crew → o.state = .pending) ∧ (o.state = .pending ∨ o.state = .failed .comms) ∧
      q.points = p.points ∧ q.segments = p.segments ∧ q.feeds = p.feeds ∧ q.outages = p.outages ∧
      (∀ u, q.bare u = p.bare u) ∧ (∀ u, u ≠ v → q.valves.get? u = p.valves.get? u) ∧
      q = dispatchDecide (leaveReleases v none (orderOp v (actionOf a) .host p)) ∧
      q.operatesAs (orderOp v (actionOf a) .host p) ∧
      (s.part.plans.wf 16 = true → ∀ id, q.plans.get? id = (p.plans.get? id).bind fun x =>
        if x.state = .releasing ∧ v ∈ x.releaseList then
          if (x.releaseList.filter (· != v)) = [] then none else some { x with releaseList := x.releaseList.filter (· != v) }
        else some x)) ∧
  (∀ (v : Nat) (a : Action) (origin : Origin) (valve : Valve) (p : Part), p.valves.get? v = some valve →
    let field := valve.actuated = true ∧ p.answers valve.outstation = true
    let op : Operation :=
      { action := a, origin := origin, mode := if field then .field else .crew, state := .pending, ordered := p.time
        stateTime := p.time, travelExpiry := none }
    let stands := fun (o : Operation) => p.valves.set v { valve with operation := some o }
    let r := offerCommand
      { valve := v, outstation := valve.outstation, slot := valve.slot, origin := some origin
        action := match a with
          | .toOpen => .toOpen
          | .toClose => .toClose } { p with valves := stands op }
    (¬ field → orderOp v a origin p = { p with valves := stands op }) ∧
    (field → r.2 = false → orderOp v a origin p = r.1) ∧
    (field → r.2 = true → orderOp v a origin p = place (.valveFailed v a origin .field .comms)
      { r.1 with valves := stands { op with state := .failed .comms } })) ∧
  (∀ (c : Command) (p : Part),
    let n := c.outstation / 16
    let l := p.line n
    let put := fun (queue : List Command) => wakeLine n (p.onLine n fun l => { l with queue := queue })
    let stops := fun (q : Command) => q.action = .stop ∧ q.valve = c.valve
    let turned := c.action = .stop ∧ (l.holdFlag = true ∨ p.answers c.outstation = false)
    let needless := c.action = .stop ∧ ∃ q ∈ l.queue, q.action ≠ .stop ∧ q.valve = c.valve
    (turned → offerCommand c p = (p, false)) ∧
    (¬ turned →
      (∀ pre q post, l.queue.drop l.inTxn = pre ++ q :: post → stops q → (∀ r ∈ pre, ¬ stops r) →
        offerCommand c p = (put (l.queue.take l.inTxn ++ (pre ++ c :: post)), false)) ∧
      ((∀ q ∈ l.queue.drop l.inTxn, ¬ stops q) →
        (needless → offerCommand c p = (p, false)) ∧
        (¬ needless → 8 ≤ l.queue.length → offerCommand c p = (p, decide (c.action ≠ .stop))) ∧
        (¬ needless → l.queue.length < 8 → offerCommand c p = (put (l.queue ++ [c]), false))))) ∧
  (∀ (n : Nat) (p : Part),
    ((p.line n).cond = .waiting → (p.line n).phase = .idle → (p.line n).commandDue = true → wakeLine n p = sendCommand n p) ∧
    (¬ ((p.line n).cond = .waiting ∧ (p.line n).phase = .idle ∧ (p.line n).commandDue = true) → wakeLine n p = p) ∧
    ∀ c rest o, (p.line n).queue = c :: rest → p.outstations.get? c.outstation = some o →
      let bit := c.bit.getD (!o.seqBit)
      sendCommand n p = { (p.onLine n fun l => { l with
          queue := { c with bit := some bit } :: rest, run := l.run + 1
          phase := .sending
            { outstation := c.outstation, isCommand := true, bit := bit
              frame := fieldFrame (byte (c.outstation % 16 + 1)) 0x02 [byte c.slot, byte c.action.code, flag bit]
              rate := l.rate, window := l.window } }) with
        outstations := if c.bit = none then p.outstations.set c.outstation { o with seqBit := bit } else p.outstations }) ∧
  (∀ (v : Nat) (valve : Valve) (o : Operation) (st : SlotStatus) (p : Part), p.valves.get? v = some valve →
    valve.operation = some o →
    let put := fun (state : OpState) => { p with valves := p.valves.set v { valve with operation := some { o with
      state := state, stateTime := p.time, travelExpiry := none } } }
    let done := place (.valveDone v o.action o.origin o.mode) (put .done)
    let atEnd := st.position.2 = some o.action.target
    (o.mode = .field → o.state = .acting → atEnd → opSlotReport v st p = (done, ⟨v, false⟩)) ∧
    (o.mode = .field → o.state = .acting → ¬ atEnd → st.torque = true → opSlotReport v st p =
      (offerStop v (place (.valveFailed v o.action o.origin .field .torque) (put (.failed .torque))), ⟨v, true⟩)) ∧
    (o.mode = .field → o.state = .acting → ¬ atEnd → st.torque = false → opSlotReport v st p = (p, ⟨v, false⟩)) ∧
    (o.mode = .field → o.state ≠ .acting → opSlotReport v st p = (p, ⟨v, false⟩)) ∧
    (o.mode = .crew → (o.state = .pending ∨ o.state = .acting) → atEnd →
      opSlotReport v st p = (endJob ⟨.valve, v⟩ done, ⟨v, false⟩)) ∧
    (o.mode = .crew → (¬ (o.state = .pending ∨ o.state = .acting) ∨ ¬ atEnd) → opSlotReport v st p = (p, ⟨v, false⟩))) ∧
  (∀ (v : Nat) (s : State),
    (∀ valve o t, s.part.valves.get? v = some valve → valve.operation = some o → o.mode = .field → o.state = .acting →
      o.travelExpiry = some t → t ≤ s.part.time →
      let failed := { o with state := .failed .travel, stateTime := s.part.time, travelExpiry := none }
      ∃ q, exec (.travelExpiry v) s = .next (s.withPart q) ∧
        q = dispatchDecide (planCourse [⟨v, true⟩] (offerStop v
          (place (.valveFailed v o.action o.origin .field .travel)
            { s.part with valves := s.part.valves.set v { valve with operation := some failed } }))) ∧
        q.op? v = some failed ∧ q.points = s.part.points ∧ q.segments = s.part.segments ∧ q.feeds = s.part.feeds ∧
        q.outages = s.part.outages ∧ (∀ u, q.bare u = s.part.bare u) ∧
        (∀ id x, s.part.plans.get? id = some x → v ∈ x.closeList → (x.state = .executing ∨ x.state = .blocked) →
          s.part.shut x.closeList → s.part.MadeSafe q x ∧
            ∃ y, q.plans.get? id = some y ∧ y.state = .isolated ∧ y.stateTime = s.part.time) ∧
        ∀ id x, o.origin = .plan id → o.action = .toClose → valve.lastEnd = .opened → s.part.plans.get? id = some x →
          x.state = .executing → v ∈ x.closeList →
          q.plans.get? id = some { x with state := .blocked, stateTime := s.part.time, blocking := some v }) ∧
    ((∀ o, s.part.op? v = some o → o.mode = .crew ∨ o.state ≠ .acting ∨ ∀ t, o.travelExpiry = some t → s.part.time < t) →
      exec (.travelExpiry v) s = .next s))

/-- In RUNNING, CALL with operands in range, a defined district and, if it names one, a defined segment of that
district: a NO_GAS call with a segment is handed to the outage register and answered OK with the segment's outage and
SUSPECT flag. A SMELL or DAMAGE call merges into the lowest incident not CLOSED with the same segment (or, without
one, the same district); else it opens the lowest FREE incident, or with none FREE the CLOSED one of earliest state
time and then lowest id; with neither it is refused with FULL. Each takes a call slot if one is free and the incident
lists fewer than 16, and is answered OK, else OK_UNLISTED, with the outcome, the incident, the slot and the grade. An
opened incident has level 0, the deadline of its grade and its next escalation there; a confirming point of its
segment takes a LEAK incident to grade A at once, with the earlier deadline. A merged call of higher grade raises the
grade and brings the deadline forward; at level 0, OPEN or ASSIGNED, the next escalation follows an earlier deadline,
or the incident escalates at once when it has passed. That a deadline left as it was escalates nothing is the model's
choice (log entry 33). (07, section 7.1; 07, section 7.2; 07, section 7.3; 07, section 7.4; 09, section 9.7; 03,
section 3.4) -/
def Obligations.CallsOpenAndMerge : Prop :=
  ∀ (tag : Byte) (kind grade district reference : Nat) (segment : Option Nat) (spare : Byte × Byte) (s : State), s.ready →
    kind ≤ 2 → grade ≤ 2 → district < 32 → reference < 4294967296 → s.part.districts.has district = true →
    (∀ x, segment = some x → x < 512 ∧ s.part.segments.has x = true ∧ s.part.districtOf x = district) →
    s.part.register.incidents.wf 128 = true →
    let body := [byte kind, byte grade] ++ segmentBytes segment spare ++ byte district :: be32 reference
    let p := s.begun 0x21 tag body
    let g := if kind = 0 then gradeOf grade else .a
    let ck := if kind = 0 then CallKind.smell else .damage
    let answer := fun (outcome id : Nat) (slot : Option Nat) (now : Incident) (q : Part) =>
      exec (.call tag body) s = .next (s.answered q (if slot.isSome then .ok else .okUnlisted)
        ([byte outcome, byte id] ++ opt8 slot ++ [byte now.grade.code])) ∧ q.register.incidents.get? id = some now ∧
      (∀ n, slot = some n → q.register.calls.get? n = some ⟨id, ck, g, segment, district, reference, p.time⟩) ∧
      q.clock = p.clock ∧ q.points = p.points ∧ q.segments = p.segments ∧ q.valves = p.valves ∧ q.plans = p.plans ∧
      q.outages = p.outages
    let matching := p.register.incidents.idsWhere fun _ i =>
      decide (i.state ≠ .closed ∧ i.segment = segment ∧ (segment = none → i.district = district))
    (∀ x, kind = 2 → segment = some x →
      let q := noGasCall x p
      exec (.call tag body) s = .next (s.answered q .ok
        (opt8 ((q.segments.get? x).bind (·.outage)) ++ [flag ((q.segments.get? x).any (·.suspect))]))) ∧
    (kind < 2 → ∀ id rest i, matching = id :: rest → p.register.incidents.get? id = some i →
      ∃ now q, answer 1 id (if i.calls.length < 16 then p.register.calls.firstFree 256 else none) now q ∧
        now.total = min 65535 (i.total + 1) ∧ now.kind = (if kind = 1 then .damage else i.kind) ∧
        now.grade = (if g.code < i.grade.code then g else i.grade) ∧ now.state = i.state ∧ now.segment = i.segment ∧
        now.deadline = (if g.code < i.grade.code then min i.deadline (i.openedTime + p.response g) else i.deadline) ∧
        q.districts = p.districts ∧
        let follows := now.deadline < i.deadline ∧ i.level = 0 ∧ (i.state = .opened ∨ i.state = .assigned)
        (¬ follows → now.level = i.level ∧ now.nextEscalation = i.nextEscalation) ∧
        (follows → p.time < now.deadline → now.level = 0 ∧ now.nextEscalation = some now.deadline) ∧
        (follows → now.deadline ≤ p.time → now.level = 1 ∧
          now.nextEscalation = some (p.time + 60 * p.register.interval))) ∧
    (kind < 2 → matching = [] →
      (∀ id, (p.register.incidents.firstFree 128 = some id ∨
          (p.register.incidents.firstFree 128 = none ∧ ∃ old, p.register.incidents.get? id = some old ∧ old.state = .closed ∧
            ∀ k j, p.register.incidents.get? k = some j → j.state = .closed →
              old.stateTime < j.stateTime ∨ (old.stateTime = j.stateTime ∧ id ≤ k))) →
        ∃ now q, answer 0 id (p.register.calls.firstFree 256) now q ∧ now.state = .opened ∧ now.segment = segment ∧
          now.district = district ∧ now.openedTime = p.time ∧ now.total = 1 ∧
          now.kind = (if kind = 1 then .damage else .leak) ∧
          (p.points.wf 256 = true → 0 < p.response .a →
            let confirmed := kind = 0 ∧ g ≠ .a ∧ ∃ x k pt c st, segment = some x ∧ p.points.get? k = some pt ∧
              pt.body = .pressure (some x) c st ∧ st.falling = true ∧ (st.band = .low ∨ st.band = .lowTrip)
            now.level = 0 ∧ now.nextEscalation = some now.deadline ∧
            (¬ confirmed → now.grade = g ∧ now.deadline = p.time + p.response g) ∧
            (confirmed → now.grade = .a ∧ now.deadline = min (p.time + p.response g) (p.time + p.response .a))) ∧
          (∀ d, p.districts.get? district = some d →
            q.districts = p.districts.set district { d with openIncidents := d.openIncidents + 1 })) ∧
      (p.register.incidents.firstFree 128 = none → (∀ k j, p.register.incidents.get? k = some j → j.state ≠ .closed) →
        exec (.call tag body) s = .next (s.answered p .full [])))

/-- A no-gas call for a member of an outage raises the outage's no-gas count by one, saturating, and leaves the
segments. For a segment in none, the call time joins the times, of which the newest three are kept. When it was not
SUSPECT and three times lie within 1,800 s, it becomes SUSPECT and is marked changed, its district counts one more,
and its notice is placed after that of the mark, if that is the first; otherwise nothing else happens. In RUNNING,
CLEAR_SUSPECT of a defined segment empties its no-gas call times and is answered OK with the SUSPECT flag before. A
segment that was SUSPECT is so no longer, is marked changed, and its district counts one fewer; other segments and
everything but districts, link and panel is unchanged. One that was not causes nothing else. (09, section 9.7; 07,
section 7.1; 04, section 4.6; 04, section 4.7) -/
def Obligations.SuspicionRisesAndIsCleared : Prop :=
  (∀ (x : Nat) (seg : Segment) (p : Part), p.segments.get? x = some seg → seg.noGas.length ≤ 3 →
      (∀ id o, seg.outage = some id → p.outages.get? id = some o →
        noGasCall x p = refreshLamps { p with outages := p.outages.set id { o with noGas := min 65535 (o.noGas + 1) } }) ∧
      (seg.outage = none →
        let times := (seg.noGas ++ [p.time]).drop (seg.noGas.length + 1 - 3)
        let newly := seg.suspect = false ∧ times.length = 3 ∧ times.getLastD 0 ≤ times.headD 0 + 1800
        (¬ newly → noGasCall x p = { p with segments := p.segments.set x { seg with noGas := times } }) ∧
        (newly → ∃ q, noGasCall x p = place (.segmentSuspect x seg.district (times.headD 0) (times.getLastD 0)) q ∧
          q = { p with segments := q.segments, districts := q.districts, link := q.link, panel := q.panel } ∧
          q.segments.get? x = some { seg with noGas := times, suspect := true, changed := true } ∧
          (∀ x', x' ≠ x → q.segments.get? x' = p.segments.get? x') ∧ q.link = p.linkMarked x ∧
          q.districts = p.districts.modify seg.district fun d => { d with suspects := d.suspects + 1 }))) ∧
  (∀ (tag : Byte) (id : Nat) (x : Segment) (s : State), s.ready → id < 512 → s.part.segments.get? id = some x →
      let p := s.begun 0x2A tag (be16 id)
      (x.suspect = false → exec (.clearSuspect tag (be16 id)) s =
        .next (s.answered { p with segments := p.segments.set id { x with noGas := [] } } .ok [0])) ∧
      (x.suspect = true → ∃ q, exec (.clearSuspect tag (be16 id)) s = .next (s.answered q .ok [1]) ∧
        q = { p with segments := q.segments, districts := q.districts, link := q.link, panel := q.panel } ∧
        q.segments.get? id = some { x with noGas := [], suspect := false, changed := true } ∧
        (∀ id', id' ≠ id → q.segments.get? id' = p.segments.get? id') ∧ q.link = p.linkMarked id ∧
        q.districts = p.districts.modify x.district fun d => { d with suspects := d.suspects - 1 }))

/-- In RUNNING: MADE_SAFE of an OPEN, ASSIGNED or ON_SITE incident and REPAIRED of an ON_SITE or MADE_SAFE one put it
in that state now with no escalation left; CLOSE of one that no plan in execution keeps open puts it in CLOSED with no
calls, crew or plan link, frees its call slots, and lowers its district's count of open incidents. Each is answered
OK, and no other incident, point, segment, valve or outage changes. The notice comes first. At a CLOSE the crew
offered or holding the incident is AVAILABLE without it, and so is the crew offered an OPEN one made safe; at a
MADE_SAFE or REPAIRED else, every crew keeps its job. Then the arbiter decides. That the notice of an offer so ended
comes right after the incident's is the model's choice (log entry 35). That the notice of a CLOSE carries the crew
that the incident had is the model's reading (log entry 25). (07, section 7.5; 07, section 7.2; 08, section 8.4; 08,
section 8.6) -/
def Obligations.IncidentUpdatesMoveTheState : Prop :=
  ∀ (tag : Byte) (id action : Nat) (i : Incident) (s : State), s.ready → id < 128 →
    s.part.register.incidents.get? id = some i →
    let body := [byte id, byte action]
    let p := s.begun 0x22 tag body
    let done := fun (now : Incident) (q : Part) =>
      exec (.incidentUpdate tag body) s = .next (s.answered q .ok []) ∧
      q.register.incidents = p.register.incidents.set id now ∧ q.clock = p.clock ∧ q.points = p.points ∧
      q.segments = p.segments ∧ q.valves = p.valves ∧ q.outages = p.outages
    (action = 0 → (i.state = .opened ∨ i.state = .assigned ∨ i.state = .onSite) → ∃ q,
      done { i with state := .madeSafe, stateTime := p.time, nextEscalation := none } q ∧
      q.register.calls = p.register.calls ∧ q.districts = p.districts ∧ q.plans = p.plans ∧
      let now : Incident := { i with state := .madeSafe, stateTime := p.time, nextEscalation := none }
      let told := place (.incidentState id i.state .madeSafe .host i.crew) (refreshLamps { p with
        register := { p.register with incidents := p.register.incidents.set id now } })
      q = dispatchDecide (if i.state = .opened then endJob ⟨.leak, id⟩ told else told) ∧
      p.Released (if i.state = .opened then endJob ⟨.leak, id⟩ told else told)
        (if i.state = .opened then [⟨.leak, id⟩] else [])) ∧
    (action = 1 → (i.state = .onSite ∨ i.state = .madeSafe) → ∃ q,
      done { i with state := .repaired, stateTime := p.time, nextEscalation := none } q ∧
      q.register.calls = p.register.calls ∧ q.districts = p.districts ∧ q.plans = p.plans ∧
      let now : Incident := { i with state := .repaired, stateTime := p.time, nextEscalation := none }
      q = dispatchDecide (place (.incidentState id i.state .repaired .host i.crew) (refreshLamps { p with
        register := { p.register with incidents := p.register.incidents.set id now } }))) ∧
    (action = 2 → i.state ≠ .closed → (i.state = .repaired ∨ p.planHolding id = none) → ∃ q,
      done { i with state := .closed, stateTime := p.time, nextEscalation := none, calls := [], crew := none
                    planLink := none } q ∧
      (∀ n, q.register.calls.get? n = if n ∈ i.calls then none else p.register.calls.get? n) ∧
      q.districts = p.districts.modify i.district (fun d => { d with openIncidents := d.openIncidents - 1 }) ∧
      (∃ r : Part, q = dispatchDecide r ∧ p.Released r [⟨.leak, id⟩] ∧
        let shut : Incident := { i with state := .closed, stateTime := p.time, nextEscalation := none, calls := [] }
        let told := place (.incidentState id i.state .closed .host i.crew) (refreshLamps { p with
          register := { p.register with calls := q.register.calls, incidents := p.register.incidents.set id shut } })
        r.dispatch = (endJob ⟨.leak, id⟩ told).dispatch ∧ r.link = (endJob ⟨.leak, id⟩ told).link) ∧
      ∀ n x, p.plans.get? n = some x →
        q.plans.get? n = some { x with incident := if x.incident = some id then none else x.incident })

/-- In LOADING and RUNNING, SET_RESPONSE with times of 10-1,440 minutes and an interval of 5-60 replaces the four
settings and is answered OK. In RUNNING each incident not CLOSED then has the earlier of its deadline and the one its
grade now gives from its opening; its grade, state, calls and times are as before, and a CLOSED one is unchanged. Of
an incident OPEN or ASSIGNED at level 0 whose deadline became earlier, the next escalation follows it, or, when it has
come, the level is 1 and the next escalation one new interval from now; of any other both stay. That a deadline left
as it was escalates nothing is the model's choice (log entry 33). In LOADING nothing else changes. When the next
escalation of an OPEN or ASSIGNED incident has come, its level rises by one, up to 7, its next escalation is one
interval after the one that came, or absent at level 7, INCIDENT_ESCALATED is placed, and the lamps follow. Nothing
else changes. Before that time, or for an incident in another state, nothing happens. That an event before its moment
does nothing is the model's choice (log entry 5). (07, section 7.3; 07, section 7.4) -/
def Obligations.DeadlinesAndEscalation : Prop :=
  (∀ (tag : Byte) (a b c interval : Nat) (s : State), s.slotFree → s.part.link.partState ≠ .unloaded →
      10 ≤ a → a ≤ 1440 → 10 ≤ b → b ≤ 1440 → 10 ≤ c → c ≤ 1440 → 5 ≤ interval → interval ≤ 60 →
      let body := be16 a ++ be16 b ++ be16 c ++ [byte interval]
      let p := s.begun 0x10 tag body
      let minutes := fun (g : Grade) => match g with
        | .a => a
        | .b => b
        | .c => c
      let p' := { p with register := { p.register with responseA := a, responseB := b, responseC := c, interval := interval } }
      (p.link.partState = .loading → exec (.setResponse tag body) s = .next (s.answered p' .ok [])) ∧
      (p.link.partState = .running → ∃ q, exec (.setResponse tag body) s = .next (s.answered q .ok []) ∧
        q.register = { p'.register with incidents := q.register.incidents } ∧ q.points = p.points ∧
        q.segments = p.segments ∧ q.valves = p.valves ∧ q.plans = p.plans ∧ q.outages = p.outages ∧
        ∀ id i, p.register.incidents.get? id = some i → ∃ j, q.register.incidents.get? id = some j ∧
          j = { i with deadline := j.deadline, level := j.level, nextEscalation := j.nextEscalation } ∧
          (i.state = .closed → j = i) ∧
          (i.state ≠ .closed → p'.Followed i j ∧ j.deadline = min i.deadline (i.openedTime + 60 * minutes i.grade)))) ∧
  (∀ (id t : Nat) (i : Incident) (s : State), s.part.register.incidents.get? id = some i → i.nextEscalation = some t →
      ((s.part.time < t ∨ (i.state ≠ .opened ∧ i.state ≠ .assigned)) → exec (.escalation id) s = .next s) ∧
      (t ≤ s.part.time → (i.state = .opened ∨ i.state = .assigned) →
        let level := min 7 (i.level + 1)
        let next := if level < 7 then some (t + 60 * s.part.register.interval) else none
        exec (.escalation id) s = .next (s.withPart (place (.incidentEscalated id level i.state i.deadline next)
          (refreshLamps { s.part with register := { s.part.register with
            incidents := s.part.register.incidents.set id { i with level := level, nextEscalation := next } } })))))

/-- In RUNNING, CREW_STATE with a body that is not 2 bytes is refused with BAD_LENGTH, and outside RUNNING with
REFUSED_STATE; then a crew above 47 or a state above 1 with REFUSED_RANGE, an undefined crew with NOT_FOUND, a crew in
OFFERED, ASSIGNED or ON_SITE with REFUSED_BUSY. A crew already in the state asked is answered OK and nothing changes.
Otherwise it goes to the state, its declined job is absent, the arbiter decides, and the reply is OK. (R146) -/
def Obligations.CrewStatePutsACrewOnOrOffShift : Prop :=
  ∀ (tag : Byte) (body : List Byte) (s : State), s.slotFree →
    let p := s.begun 0x23 tag body
    let refused := fun (st : Status) => exec (.crewState tag body) s = .next (s.answered p st [])
    let wanted : CrewState := if u8 body 1 = 0 then .offShift else .available
    (body.length ≠ 2 → refused .badLength) ∧
    (body.length = 2 → p.link.partState ≠ .running → refused .refusedState) ∧
    (body.length = 2 → p.link.partState = .running →
      ((47 < u8 body 0 ∨ 1 < u8 body 1) → refused .refusedRange) ∧
      (u8 body 0 ≤ 47 → u8 body 1 ≤ 1 →
        (p.dispatch.crews.get? (u8 body 0) = none → refused .notFound) ∧
        ∀ c, p.dispatch.crews.get? (u8 body 0) = some c →
          ((c.state = .offered ∨ c.state = .assigned ∨ c.state = .onSite) → refused .refusedBusy) ∧
          (c.state = .offShift ∨ c.state = .available →
            (c.state = wanted → exec (.crewState tag body) s = .next (s.answered p .ok [])) ∧
            (c.state ≠ wanted → exec (.crewState tag body) s = .next (s.answered
              (dispatchDecide { p with dispatch := { p.dispatch with
                crews := p.dispatch.crews.set (u8 body 0) { c with state := wanted, declined := none } } }) .ok [])))))

/-- While the part is RUNNING and ATTENDED, the arbiter's work ends with no demand that has a suitable crew; a
decision that is due makes the offer of its winner to the crew chosen first; one that is not leaves the part. Outside
RUNNING, or UNATTENDED, the arbiter does nothing. It changes only the link, the crews and the class levels. An offer
of an item to a crew puts it in OFFERED for the item until the offer time from now, with no declined job. The level of
the class offered is its reload; that of each other class with demand falls by one, not below 0, and that of a class
with none stays. Other crews are unchanged, and so is everything but the link and the arbiter. Demand is an OPEN
incident, a PENDING CREW operation or a PURGED segment with premises to relight that no crew has; a suitable crew is
AVAILABLE, serves the class and has not declined the item. There is a winner just when some item of demand has a
suitable crew: the first grade A incident, else the first item of the class of lowest level, ties going LEAK, VALVE,
RELIGHT, in the order of section 8.2. The crew chosen is one of the item's home district before others, then the
lowest. (08, section 8.3; 08, section 8.2) -/
def Obligations.TheArbiterDecides : Prop :=
  ((∀ p : Part, p.dispatch.crews.wf 48 = true →
        ((dispatchDecide p) = { p with link := (dispatchDecide p).link, dispatch := (dispatchDecide p).dispatch }) ∧
        ((p.link.partState ≠ .running ∨ p.panel.supervision.unattended = true) → dispatchDecide p = p) ∧
        (p.link.partState = .running → p.panel.supervision.unattended = false →
          (∀ cls i, i ∈ (dispatchDecide p).demand cls → (dispatchDecide p).suitable ⟨cls, i⟩ = []) ∧
          (p.winner = none → dispatchDecide p = p) ∧
          (∀ j, p.winner = some j → ∃ crew c, p.chooseCrew j = some crew ∧ p.dispatch.crews.get? crew = some c ∧
            c.state = .available ∧ c.kind.serves j.cls = true ∧ c.declined ≠ some j ∧ j.item ∈ p.demand j.cls ∧
            dispatchDecide p = dispatchDecide (makeOffer j crew p)))) ∧
    (∀ (j : Job) (crew : Nat) (c : Crew) (p : Part), p.dispatch.crews.get? crew = some c →
        let q := makeOffer j crew p
        q.dispatch.crews = p.dispatch.crews.set crew
          { c with state := .offered, job := some j, declined := none, expiry := some (p.time + p.dispatch.offerTime) } ∧
        q.dispatch.reloads = p.dispatch.reloads ∧ q.dispatch.offerTime = p.dispatch.offerTime ∧
        (∀ cls, q.dispatch.levels.of cls = if cls = j.cls then p.dispatch.reloads.of cls
          else if p.demand cls = [] then p.dispatch.levels.of cls else p.dispatch.levels.of cls - 1) ∧
        q = { p with dispatch := q.dispatch, link := q.link } ∧
        q.link = p.link.place p.time (.crewOffer crew j.cls j.item (p.jobDistrict j)
          (if j.cls = .leak then (p.register.incidents.get? j.item).map (·.grade) else none)
          (p.time + p.dispatch.offerTime) c.home))) ∧
  (∀ p : Part, p.dispatch.crews.wf 48 = true →
      let waits := fun (j : Job) => j.item ∈ p.demand j.cls ∧ p.suitable j ≠ []
      let urgent := fun (j : Job) => waits j ∧ j.cls = .leak ∧
        ∃ i, p.register.incidents.get? j.item = some i ∧ i.grade = .a
      let level := fun (cls : JobClass) => p.dispatch.levels.of cls
      (∀ cls i, i ∈ p.demand cls ↔ (∀ id c, p.dispatch.crews.get? id = some c → c.job ≠ some ⟨cls, i⟩) ∧ match cls with
        | .leak => ∃ x, p.register.incidents.get? i = some x ∧ x.state = .opened
        | .valve => ∃ o, p.op? i = some o ∧ o.mode = .crew ∧ o.state = .pending
        | .relight => ∃ x, p.segments.get? i = some x ∧ x.supply = .purged ∧ x.relit < x.customers) ∧
      (∀ j id, id ∈ p.suitable j ↔ ∃ c, p.dispatch.crews.get? id = some c ∧ c.state = .available ∧ c.declined ≠ some j ∧
        ((c.kind = .emergency ∧ j.cls ≠ .relight) ∨ (c.kind = .fitter ∧ j.cls ≠ .leak))) ∧
      (p.winner = none ↔ ∀ j, ¬ waits j) ∧
      (∀ j, p.winner = some j → waits j ∧
        ((∃ k, urgent k) → urgent j ∧ ∀ k, urgent k → p.noLater .leak j.item k.item) ∧
        ((¬ ∃ k, urgent k) → ∀ k, waits k → (k.cls = j.cls → p.noLater j.cls j.item k.item) ∧
          (level j.cls < level k.cls ∨ (level j.cls = level k.cls ∧ j.cls.code ≤ k.cls.code)))) ∧
      (∀ j, (p.chooseCrew j = none ↔ p.suitable j = []) ∧ ∀ crew, p.chooseCrew j = some crew → crew ∈ p.suitable j ∧
        ∀ k c d, k ∈ p.suitable j → p.dispatch.crews.get? crew = some c → p.dispatch.crews.get? k = some d →
          (c.home = p.jobDistrict j ∨ d.home ≠ p.jobDistrict j) ∧
          ((c.home = p.jobDistrict j ↔ d.home = p.jobDistrict j) → crew ≤ k)) ∧
      (∀ i x, p.register.incidents.get? i = some x → p.jobDistrict ⟨.leak, i⟩ = x.district) ∧
      (∀ v x a, p.valves.get? v = some x → p.segments.get? x.endA = some a → p.jobDistrict ⟨.valve, v⟩ = a.district) ∧
      ∀ i x, p.segments.get? i = some x → p.jobDistrict ⟨.relight, i⟩ = x.district)

/-- SET_DISPATCH, in LOADING and RUNNING, replaces the reloads, the levels with them, and the offer time, and the
arbiter decides. A DECLINE of a crew's open offer, in RUNNING, and the expiry of one when its time has come put the
crew in AVAILABLE with the item as its declined job and OFFER_WITHDRAWN, and the arbiter decides. Nothing else
changes; an expiry before its time does nothing. When an item ends in its owning block, the crew that was offered it
is AVAILABLE with OFFER_WITHDRAWN, one that held it is AVAILABLE without a notice, and with no such crew nothing
happens. That an event before its moment does nothing is the model's choice (log entry 5). (08, section 8.3; 08,
section 8.4; 08, section 8.6) -/
def Obligations.OffersAreSetDeclinedAndExpire : Prop :=
  ((∀ (tag : Byte) (a b c time : Nat) (s : State), s.slotFree → s.part.link.partState ≠ .unloaded → a ≤ 15 → b ≤ 15 →
      c ≤ 15 → 30 ≤ time → time ≤ 600 →
      let body := [byte a, byte b, byte c] ++ be16 time
      let p := s.begun 0x11 tag body
      exec (.setDispatch tag body) s = .next (s.answered (dispatchDecide { p with dispatch := { p.dispatch with
        reloads := ⟨a, b, c⟩, levels := ⟨a, b, c⟩, offerTime := time } }) .ok [])) ∧
    (∀ (crew : Nat) (c : Crew) (j : Job) (s : State), s.part.dispatch.crews.get? crew = some c → c.state = .offered →
      c.job = some j →
      let withdrawn := fun (cause : WithdrawCause) (p : Part) =>
        dispatchDecide (place (.offerWithdrawn crew j.cls j.item cause) { p with dispatch := { p.dispatch with
          crews := p.dispatch.crews.set crew
            { c with state := .available, job := none, declined := some j, expiry := none } } })
      (∀ (tag : Byte) (cls : Nat), s.ready → crew < 48 → cls ≤ 2 → j.cls = classOf cls → j.item < 65536 →
        let body := [byte crew, 1, byte cls] ++ be16 j.item
        exec (.answerOffer tag body) s = .next (s.answered (withdrawn .declined (s.begun 0x24 tag body)) .ok [])) ∧
      (∀ t, c.expiry = some t →
        (t ≤ s.part.time → exec (.offerExpiry crew) s = .next (s.withPart (withdrawn .expired s.part))) ∧
        (s.part.time < t → exec (.offerExpiry crew) s = .next s)))) ∧
  (∀ (j : Job) (p : Part), p.dispatch.crews.wf 48 = true →
    ((∀ id c, p.dispatch.crews.get? id = some c → c.job ≠ some j) → endJob j p = p) ∧
    ∀ id c, p.dispatch.crews.get? id = some c → c.job = some j →
      (∀ k d, p.dispatch.crews.get? k = some d → d.job = some j → k = id) →
      let put := fun (c' : Crew) => { p with dispatch := { p.dispatch with crews := p.dispatch.crews.set id c' } }
      (c.state = .offered → endJob j p = place (.offerWithdrawn id j.cls j.item .demandEnded)
        (put { c with state := .available, job := none, expiry := none })) ∧
      (c.state ≠ .offered → endJob j p = put { c with state := .available, job := none, declined := none }))

/-- In RUNNING: an ACCEPT of an open offer, and an ASSIGN, to an AVAILABLE or OFFERED crew of a kind that serves its
class, of an item that is demand or under offer, put the crew in ASSIGNED with the item as its job and no declined job
or expiry; another crew's offer of the item ends with ASSIGNED_ELSEWHERE. The item is handed to its owning block: an
incident is ASSIGNED with the crew, a PENDING CREW operation ACTING, a PURGED segment RELIGHTING. ON_SITE of an
ASSIGNED crew puts it ON_SITE, with its ASSIGNED incident; of one ON_SITE it changes nothing. CLEAR of an ASSIGNED or
ON_SITE crew leaves it AVAILABLE with no job; an ASSIGNED incident is OPEN again, an ACTING operation PENDING, a
RELIGHTING segment PURGED, and the item is the crew's declined job and the reply's; any other item is returned by
neither. After ACCEPT, ASSIGN and CLEAR the arbiter decides. Nothing else changes. (08, section 8.2; 08, section 8.4;
08, section 8.5; 08, section 8.6; 07, section 7.2; 06, section 6.4; 09, section 9.5) -/
def Obligations.CrewsTakeAndLeaveJobs : Prop :=
  ∀ (tag : Byte) (crew cls : Nat) (c : Crew) (j : Job) (s : State), s.ready → crew < 48 → cls ≤ 2 → j.cls = classOf cls →
    j.item < j.cls.room → s.part.dispatch.crews.get? crew = some c → s.part.dispatch.crews.wf 48 = true →
    let crews := s.part.dispatch.crews
    let taken := { c with state := .assigned, job := some j, declined := none, expiry := none }
    let staffed := fun (p : Part) (t : Table Crew) => { p with dispatch := { p.dispatch with crews := t } }
    let again := match j.cls with
      | .leak => ∃ x, s.part.register.incidents.get? j.item = some x ∧ x.state = .opened
      | .valve => ∃ o, s.part.op? j.item = some o ∧ o.mode = .crew ∧ o.state = .pending
      | .relight => ∃ x, s.part.segments.get? j.item = some x ∧ x.supply = .purged ∧ x.relit < x.customers
    (c.state = .offered → c.job = some j →
      let body := [byte crew, 0, byte cls] ++ be16 j.item
      ∃ q, exec (.answerOffer tag body) s = .next (s.answered (dispatchDecide q) .ok []) ∧
        (staffed (s.begun 0x24 tag body) (crews.set crew taken)).Handed q crew j .crew) ∧
    ((c.state = .available ∨ c.state = .offered) → c.kind.serves j.cls = true → again →
      let body := [byte crew, byte cls] ++ be16 j.item
      let p := s.begun 0x25 tag body
      let done := fun (p : Part) => ∃ q, exec (.assign tag body) s = .next (s.answered (dispatchDecide q) .ok []) ∧
        p.Handed q crew j .host
      ((∀ id d, crews.get? id = some d → d.job = some j → id = crew) → done (staffed p (crews.set crew taken))) ∧
      (∀ other d, other ≠ crew → crews.get? other = some d → d.state = .offered → d.job = some j →
        (∀ id e, crews.get? id = some e → e.job = some j → id = other) →
        let freed := crews.set other { d with state := .available, job := none, expiry := none }
        done (staffed (place (.offerWithdrawn other j.cls j.item .assignedElsewhere) (staffed p freed))
          (freed.set crew taken)))) ∧
    (c.state = .assigned → c.job = some j →
      let p := staffed (s.begun 0x26 tag [byte crew, 0]) (crews.set crew { c with state := .onSite })
      let arrives := fun (q : Part) => exec (.crewReport tag [byte crew, 0]) s = .next (s.answered q .ok [])
      (∀ i, j.cls = .leak → p.register.incidents.get? j.item = some i → i.state = .assigned →
        arrives (place (.incidentState j.item .assigned .onSite .crew i.crew) (refreshLamps { p with
          register := { p.register with
            incidents := p.register.incidents.set j.item
              { i with state := .onSite, stateTime := p.time, nextEscalation := none } } }))) ∧
      ((j.cls ≠ .leak ∨ ∀ i, p.register.incidents.get? j.item = some i → i.state ≠ .assigned) → arrives p)) ∧
    (c.state = .onSite → exec (.crewReport tag [byte crew, 0]) s =
      .next (s.answered (s.begun 0x26 tag [byte crew, 0]) .ok [])) ∧
    ((c.state = .assigned ∨ c.state = .onSite) → c.job = some j → ∃ q returned,
      exec (.crewReport tag [byte crew, 1]) s = .next (s.answered (dispatchDecide q) .ok (jobRecord returned)) ∧
      (returned = none ∨ returned = some j) ∧
      (staffed (s.begun 0x26 tag [byte crew, 1])
        (crews.set crew { c with state := .available, job := none, declined := returned })).HandedBack q j returned)

/-- In RUNNING, PURGE of a RECHARGED segment with its pressure NORMAL, or unwatched and UNKNOWN, is answered OK with
the new supply state: PURGED with relit count 0 if it has customers, else SUPPLIED. RELIGHT_REPORT for a RELIGHTING
segment, or by the host for a PURGED one, adds the premises up to the customers; with all relit the segment is
SUPPLIED with relit count 0 and in no outage. The reply carries the relit count and the supply state. Points, lines,
plans and incidents are unchanged. A restored segment leaves its outage: the members, the customers and priority
premises off and the customers relit fall by what it held, its district counts one active outage fewer when no other
member is in it, SEGMENT_RESTORED is placed, and with the last member the outage is ENDED now, with OUTAGE_ENDED; then
the arbiter decides. A restoration ends the segment's relight job: the crew offered or holding it is AVAILABLE without
it. No other crew changes but by the arbiter. (09, section 9.4; 09, section 9.5; 09, section 9.6; 04, section 4.6; 08,
section 8.4; 08, section 8.6) -/
def Obligations.PurgeAndRelight : Prop :=
  (∀ (tag : Byte) (id : Nat) (x : Segment) (s : State), s.ready → id < 512 → s.part.segments.get? id = some x →
      let after := fun (q : Part) (y : Segment) =>
        q.segments.get? id = some y ∧ y = { x with
          supply := y.supply, relit := y.relit, outage := y.outage, changed := y.changed } ∧
        (∀ id', id' ≠ id → q.segments.get? id' = s.part.segments.get? id') ∧ q.points = s.part.points ∧
        q.lines = s.part.lines ∧ q.plans = s.part.plans ∧ q.register = s.part.register ∧ q.valves = s.part.valves
      (x.supply = .recharged → s.part.fitToPurge id x = true → ∃ q y,
        exec (.purge tag (be16 id)) s = .next (s.answered q .ok [byte y.supply.code]) ∧ after q y ∧ y.changed = true ∧
        y.relit = 0 ∧ (0 < x.customers → y.supply = .purged ∧ y.outage = x.outage ∧
          ∃ r, q = dispatchDecide r ∧ r.dispatch = s.part.dispatch) ∧
        (x.customers = 0 → y.supply = .supplied ∧ y.outage = none ∧
          ∃ r, q = dispatchDecide r ∧ s.part.Released r [⟨.relight, id⟩])) ∧
      (∀ n source, 1 ≤ n → n ≤ 65535 → source ≤ 1 → (x.supply = .relighting ∨ (source = 1 ∧ x.supply = .purged)) →
        ∃ q y, exec (.relightReport tag (be16 id ++ be16 n ++ [byte source])) s =
            .next (s.answered q .ok (be16 y.relit ++ [byte y.supply.code])) ∧ after q y ∧
          (x.relit + n < x.customers → y.relit = x.relit + n ∧ y.supply = x.supply ∧ y.outage = x.outage ∧
            y.changed = x.changed ∧ q.dispatch = s.part.dispatch ∧
            ∀ o r, x.outage = some o → s.part.outages.get? o = some r →
              q.outages = s.part.outages.set o { r with customersRelit := r.customersRelit + n }) ∧
          (x.customers ≤ x.relit + n → y.relit = 0 ∧ y.supply = .supplied ∧ y.outage = none ∧ y.changed = true ∧
            ∃ r, q = dispatchDecide r ∧ s.part.Released r [⟨.relight, id⟩]))) ∧
  (∀ (tag : Byte) (id o : Nat) (x : Segment) (r : Outage) (s : State), s.ready → id < 512 →
    s.part.segments.get? id = some x → s.part.segments.wf 512 = true → x.outage = some o →
    s.part.outages.get? o = some r →
    let others := s.part.segments.any fun i y => decide (i ≠ id ∧ y.outage = some o ∧ y.district = x.district)
    let restored := fun (p : Part) (held : Nat) (answers : Part → Prop) =>
      let r' := { r with
        members := r.members - 1, customersOff := r.customersOff - x.customers
        priorityOff := r.priorityOff - x.priority, customersRelit := held }
      ∃ q, q = { p with
          segments := q.segments, outages := p.outages.set o r', dispatch := q.dispatch, panel := q.panel, link := q.link
          districts := if others then p.districts
            else p.districts.modify x.district fun d => { d with activeOutages := d.activeOutages - 1 } } ∧
        q.dispatch = (endJob ⟨.relight, id⟩ p).dispatch ∧
        q.link = (endJob ⟨.relight, id⟩ (p.withLink (p.linkMarked id))).link ∧ p.Released q [⟨.relight, id⟩] ∧
        q.segments.get? id = some { x with supply := .supplied, relit := 0, outage := none, changed := true } ∧
        (∀ i, i ≠ id → q.segments.get? i = p.segments.get? i) ∧
        let told := place (.segmentRestored id o x.customers r'.customersOff r'.members) q
        (r'.members ≠ 0 → answers told) ∧
        (r'.members = 0 → answers (place (.outageEnded o r'.cause r'.opened r'.listing.length r'.overflow r'.noGas)
          (refreshLamps { told with outages := told.outages.set o { r' with ended := some p.time } })))
    (x.supply = .recharged → s.part.fitToPurge id x = true → x.customers = 0 →
      restored (s.begun 0x27 tag (be16 id)) (r.customersRelit - x.relit) fun q =>
        exec (.purge tag (be16 id)) s = .next (s.answered (dispatchDecide q) .ok [0])) ∧
    (∀ n source, 1 ≤ n → n ≤ 65535 → source ≤ 1 → (x.supply = .relighting ∨ (source = 1 ∧ x.supply = .purged)) →
      x.customers ≤ x.relit + n →
      let body := be16 id ++ be16 n ++ [byte source]
      restored (s.begun 0x28 tag body) (r.customersRelit + (x.customers - x.relit) - x.customers) fun q =>
        exec (.relightReport tag body) s = .next (s.answered (dispatchDecide q) .ok [0, 0, 0])))

/-- DISMISS with a body that is not 1 byte is refused with BAD_LENGTH, outside RUNNING with REFUSED_STATE, of an
outage above 63 with REFUSED_RANGE, of a FREE outage with NOT_FOUND, and of an ACTIVE one with REFUSED_STATE. An ENDED
outage goes FREE, nothing else changes and no notice is placed, and the reply is OK. (R170) -/
def Obligations.DismissFreesAnEndedOutage : Prop :=
  ∀ (tag : Byte) (body : List Byte) (s : State), s.slotFree →
    let p := s.begun 0x29 tag body
    let refused := fun (st : Status) => exec (.dismiss tag body) s = .next (s.answered p st [])
    (body.length ≠ 1 → refused .badLength) ∧
    (body.length = 1 → p.link.partState ≠ .running → refused .refusedState) ∧
    (body.length = 1 → p.link.partState = .running →
      (63 < u8 body 0 → refused .refusedRange) ∧
      (u8 body 0 ≤ 63 → p.outages.get? (u8 body 0) = none → refused .notFound) ∧
      (∀ o, u8 body 0 ≤ 63 → p.outages.get? (u8 body 0) = some o →
        (o.ended = none → refused .refusedState) ∧
        (∀ t, o.ended = some t → exec (.dismiss tag body) s =
          .next (s.answered { p with outages := p.outages.erase (u8 body 0) } .ok []) ∧
          (p.outages.erase (u8 body 0)).get? (u8 body 0) = none)))

/-- In RUNNING and ATTENDED, LAMP_FORCE sets or ends the force of one lamp and answers with the force before, and
LAMP_TEST with none running starts a test of 5 s. In RUNNING, SILENCE makes the horn QUIET and answers whether it was
SOUNDING. A lamp test ends when part time reaches its end, not before. In RUNNING: PACK_LOW_LEVEL starts the 20 ms
from a high level. When they have passed, PACK_ACKNOWLEDGE makes the horn QUIET, and no other acknowledgement follows
until the level has been high; before, it does nothing. PACK_RETURN_HIGH readies the input; a level that was low for
20 ms has acknowledged, a shorter one leaves no trace. Outside RUNNING none of the three does anything. Nothing else
changes. Every step keeps the lamp conditions those of the records, and leaves the horn SOUNDING when one rose into
FAST. A lamp shows nothing outside RUNNING, STEADY in a test, its force, or its condition. A district's lamp is FAST,
STEADY, SLOW or OFF as section 10.1 lists: first what is FAST, then what is STEADY, then what is SLOW. The common
lamps show UNATTENDED, outstations OFFLINE or SUSPECT, an OPEN grade A incident, and lost notices. That
PACK_RETURN_HIGH after 20 ms takes the acknowledgement is the model's reading (log entry 24), that undue events do
nothing its choice (5), and that conditions are brought up to date at each change its reading (15). (10, section 10.1;
10, section 10.2; 10, section 10.3) -/
def Obligations.PanelCommandsAndPack : Prop :=
  ((∀ (tag : Byte) (s : State),
        (∀ lamp force, s.ready → s.part.unattended = false → lamp < 36 → force ≤ 4 →
          let p := s.begun 0x2B tag [byte lamp, byte force]
          exec (.lampForce tag [byte lamp, byte force]) s = .next (s.answered { p with panel := { p.panel with
            forces := match forceOf force with
              | none => p.panel.forces.erase lamp
              | some f => p.panel.forces.set lamp f } } .ok
            [byte (((p.panel.forces.get? lamp).map Lamp.code).getD 0)])) ∧
        (s.ready → s.part.unattended = false → s.part.panel.testEnd = none →
          let p := s.begun 0x2C tag []
          exec (.lampTest tag []) s =
            .next (s.answered { p with panel := { p.panel with testEnd := some (p.time + 5) } } .ok [])) ∧
        (s.ready →
          let p := s.begun 0x2D tag []
          exec (.silence tag []) s =
            .next (s.answered { p with panel := { p.panel with horn := false } } .ok [flag p.panel.horn])) ∧
        (∀ t, s.part.panel.testEnd = some t →
          (t ≤ s.part.time → exec .lampTestExpiry s =
            .next (s.withPart { s.part with panel := { s.part.panel with testEnd := none } })) ∧
          (s.part.time < t → exec .lampTestExpiry s = .next s))) ∧
    (∀ s : State,
        let panel := s.part.panel
        let shows := fun (a : Panel) => Host.Outcome.next (s.withPart { s.part with panel := a })
        (s.part.link.partState = .running →
          (panel.pack = .high → exec .packLowLevel s = shows { panel with pack := .low s.part.clock }) ∧
          (panel.pack ≠ .high → exec .packLowLevel s = .next s) ∧
          (∀ since, panel.pack = .low since →
            (since + 1920 ≤ s.part.clock → exec .packAcknowledge s = shows { panel with horn := false, pack := .spent } ∧
              exec .packReturnHigh s = shows { panel with horn := false, pack := .high }) ∧
            (s.part.clock < since + 1920 → exec .packAcknowledge s = .next s ∧
              exec .packReturnHigh s = shows { panel with pack := .high })) ∧
          ((∀ since, panel.pack ≠ .low since) → exec .packAcknowledge s = .next s ∧
            exec .packReturnHigh s = shows { panel with pack := .high })) ∧
        (s.part.link.partState ≠ .running →
          exec .packLowLevel s = .next s ∧ exec .packAcknowledge s = .next s ∧ exec .packReturnHigh s = .next s))) ∧
  (∀ s t : State, s.part.tablesOk → s.part.panel.conditions = s.part.lampConditions → step s = .next t →
      t.part.panel.conditions = t.part.lampConditions ∧
      ((∃ n, n < 32 ∧ s.part.panel.conditions.getD n .off ≠ .fast ∧ t.part.panel.conditions.getD n .off = .fast) →
        t.part.panel.horn = true)) ∧
  (∀ (lamp : Nat) (p : Part),
      (p.link.partState ≠ .running → p.lampShown lamp = .off) ∧
      (p.link.partState = .running →
        (p.panel.testEnd.isSome = true → p.lampShown lamp = .steady) ∧
        (∀ f, p.panel.testEnd = none → p.panel.forces.get? lamp = some f → p.lampShown lamp = f) ∧
        (p.panel.testEnd = none → p.panel.forces.get? lamp = none →
          (lamp < 32 → p.lampShown lamp = p.panel.conditions.getD lamp .off) ∧
          (∀ k, lamp = 32 + k → p.lampShown lamp = p.commonLamp k)))) ∧
  (∀ p : Part, p.tablesOk → p.link.partState = .running →
      let offline := ∃ os o, p.outstations.get? os = some o ∧ o.comm = .offline
      p.commonLamp 0 = (if p.panel.supervision.unattended then .steady else .off) ∧
      (p.commonLamp 1 = .fast ↔ offline) ∧ p.commonLamp 1 ≠ .steady ∧
      (p.commonLamp 1 = .slow ↔ ¬ offline ∧ ∃ os o, p.outstations.get? os = some o ∧ o.comm = .suspect) ∧
      (p.commonLamp 2 = .steady ↔ ∃ id i, p.register.incidents.get? id = some i ∧ i.state = .opened ∧ i.grade = .a) ∧
      (p.commonLamp 2 ≠ .steady → p.commonLamp 2 = .off) ∧
      p.commonLamp 3 = (if 0 < p.link.lostCount then .steady else .off)) ∧
  (∀ (n : Nat) (p : Part), n < 32 → p.tablesOk →
      let shown := p.lampConditions.getD n .off
      (p.link.partState ≠ .running → shown = .off) ∧ ((∀ d r, p.districts.get? d = some r → r.lamp ≠ n) → shown = .off) ∧
      ∀ d r, p.link.partState = .running → p.districts.get? d = some r → r.lamp = n →
        (∀ e r', p.districts.get? e = some r' → r'.lamp = n → e = d) →
        let incident := fun (f : Incident → Prop) =>
          ∃ id i, p.register.incidents.get? id = some i ∧ i.district = d ∧ f i
        let outage := fun (f : Outage → Prop) => ∃ o x id y, p.outages.get? o = some x ∧ x.ended = none ∧ f x ∧
          p.segments.get? id = some y ∧ y.outage = some o ∧ y.district = d
        let pressure := fun (f : PressureState → Prop) => ∃ id pt seg c st, p.points.get? id = some pt ∧
          pt.district = d ∧ pt.body = .pressure seg c st ∧ f st
        let fast := incident (fun i => (i.state = .opened ∨ i.state = .assigned) ∧ 1 ≤ i.level) ∨
          pressure (fun st => st.lowSeen = true ∨ st.band = .highTrip)
        let steady := incident (fun i => (i.state = .opened ∨ i.state = .assigned) ∧ i.grade = .a) ∨
          outage (fun x => 0 < x.priorityOff)
        let slow := incident (fun i => i.state ≠ .closed) ∨ outage (fun _ => True) ∨
          (∃ id y, p.segments.get? id = some y ∧ y.district = d ∧ y.suspect = true) ∨
          pressure (fun st => st.band = .low ∨ st.band = .high)
        (shown = .fast ↔ fast) ∧ (shown = .steady ↔ ¬ fast ∧ steady) ∧ (shown = .slow ↔ ¬ fast ∧ ¬ steady ∧ slow))

/-- In RUNNING, SET_SUPERVISION enables supervision with its period (60 s for an empty body) and the expiry one period
from now, or only replaces the period of one enabled, and answers whether it was. KEEPALIVE, while it is enabled,
accepts a token that differs from the last: ATTENDED, it moves the expiry; UNATTENDED, the first is counted and the
second resumes, with HOST_RESUMED. A repeated token changes nothing. At the expiry the part is UNATTENDED, with no
force and no lamp test. Nothing else changes, but for offers of the arbiter at the resumption. That an event before
its moment does nothing is the model's choice (log entry 5). (10, section 10.4) -/
def Obligations.SupervisionWatchesTheHost : Prop :=
  ∀ (tag : Byte) (s : State),
    let v := s.part.panel.supervision
    (∀ body period, s.ready → ((body = [] ∧ period = 60) ∨ body = be16 period) → 10 ≤ period → period ≤ 300 →
      let p := s.begun 0x2E tag body
      exec (.setSupervision tag body) s = .next (s.answered { p with panel := { p.panel with supervision :=
        if v.enabled then { v with period := period }
        else { v with enabled := true, period := period, lastToken := none, expiry := some (p.time + period) } } } .ok
        [flag v.enabled])) ∧
    (∀ token, s.ready → (token = 0x5A ∨ token = 0xA5) → v.enabled = true →
      let p := s.begun 0x2F tag [token]
      let kept := fun (w : Supervision) => { p with panel := { p.panel with supervision := w } }
      let keep := fun (q : Part) (accepted unattended : Byte) =>
        exec (.keepalive tag [token]) s = .next (s.answered q .ok [accepted, unattended])
      (v.lastToken = some token → keep p 0 (flag v.unattended)) ∧
      (v.lastToken ≠ some token →
        (v.unattended = false → keep (kept { v with lastToken := some token, expiry := some (p.time + v.period) }) 1 0) ∧
        (v.unattended = true → v.returnCount = 0 → keep (kept { v with lastToken := some token, returnCount := 1 }) 1 1) ∧
        (v.unattended = true → v.returnCount ≠ 0 → keep (dispatchDecide
          (place (.hostResumed p.link.lostCount (p.time - v.since)) (kept { v with
            lastToken := some token, unattended := false, returnCount := 0, expiry := some (p.time + v.period) }))) 1 0))) ∧
    (∀ t, v.expiry = some t →
      (t ≤ s.part.time → v.unattended = false → exec .keepaliveExpiry s = .next (s.withPart { s.part with
        panel := { s.part.panel with
          forces := ⟨[]⟩, testEnd := none
          supervision := { v with unattended := true, expiry := none, returnCount := 0, since := s.part.time } } })) ∧
      ((s.part.time < t ∨ v.unattended = true) → exec .keepaliveExpiry s = .next s))

/-- If the records agree, they agree after every step: a segment is in an outage just when it is not SUPPLIED, and
that outage is ACTIVE; an outage's counts are the sums over its members, and it is ENDED without any; a district's
counts are those of its incidents, outages and SUSPECT segments; a plan holds the valves of its lists just while it is
EXECUTING, BLOCKED or ISOLATED, and the job queue and the engine have the REQUESTED and COMPUTING plans; at most one
incident that is not CLOSED is open for a segment, or without one for a district, and a call slot stands in the list
of its one incident; an item is on at most one crew, and a crew has a job just while it is OFFERED, ASSIGNED or
ON_SITE; outside RUNNING nothing is under way. (04, section 4.6; 05, section 5.3; 06, section 6.3; 07, section 7.1;
07, section 7.2; 08, section 8.1; 08, section 8.2; 09, section 9.1; 09, section 9.2; 01, section 1.5) -/
def Obligations.EveryStepKeepsTheRecordsInAgreement : Prop :=
  ∀ s t : State, s.part.RecordsAgree → step s = .next t → t.part.RecordsAgree
end

