-- ==== Sys2Proof/Laws/State.lean ====
section
/-!
SUPPORT. The small lemmas of the updates of a part: one for each field that an update leaves, true by definition, so that
no proof unfolds a record update.
-/

namespace Sys2Proof.Laws

open Sys2Proof.Machine

variable (p : Part)

/-! ### place -/

@[simp] theorem place_clock (n : Notice) : (place n p).clock = p.clock := rfl
@[simp] theorem place_lines (n : Notice) : (place n p).lines = p.lines := rfl
@[simp] theorem place_outstations (n : Notice) : (place n p).outstations = p.outstations := rfl
@[simp] theorem place_points (n : Notice) : (place n p).points = p.points := rfl
@[simp] theorem place_segments (n : Notice) : (place n p).segments = p.segments := rfl
@[simp] theorem place_valves (n : Notice) : (place n p).valves = p.valves := rfl
@[simp] theorem place_feeds (n : Notice) : (place n p).feeds = p.feeds := rfl
@[simp] theorem place_districts (n : Notice) : (place n p).districts = p.districts := rfl
@[simp] theorem place_trace (n : Notice) : (place n p).trace = p.trace := rfl
@[simp] theorem place_plans (n : Notice) : (place n p).plans = p.plans := rfl
@[simp] theorem place_register (n : Notice) : (place n p).register = p.register := rfl
@[simp] theorem place_dispatch (n : Notice) : (place n p).dispatch = p.dispatch := rfl
@[simp] theorem place_outages (n : Notice) : (place n p).outages = p.outages := rfl
@[simp] theorem place_panel (n : Notice) : (place n p).panel = p.panel := rfl

/-! ### onLine -/

@[simp] theorem onLine_clock (n : Nat) (f : Line → Line) : (p.onLine n f).clock = p.clock := rfl
@[simp] theorem onLine_link (n : Nat) (f : Line → Line) : (p.onLine n f).link = p.link := rfl
@[simp] theorem onLine_outstations (n : Nat) (f : Line → Line) : (p.onLine n f).outstations = p.outstations := rfl
@[simp] theorem onLine_points (n : Nat) (f : Line → Line) : (p.onLine n f).points = p.points := rfl
@[simp] theorem onLine_segments (n : Nat) (f : Line → Line) : (p.onLine n f).segments = p.segments := rfl
@[simp] theorem onLine_valves (n : Nat) (f : Line → Line) : (p.onLine n f).valves = p.valves := rfl
@[simp] theorem onLine_feeds (n : Nat) (f : Line → Line) : (p.onLine n f).feeds = p.feeds := rfl
@[simp] theorem onLine_districts (n : Nat) (f : Line → Line) : (p.onLine n f).districts = p.districts := rfl
@[simp] theorem onLine_trace (n : Nat) (f : Line → Line) : (p.onLine n f).trace = p.trace := rfl
@[simp] theorem onLine_plans (n : Nat) (f : Line → Line) : (p.onLine n f).plans = p.plans := rfl
@[simp] theorem onLine_register (n : Nat) (f : Line → Line) : (p.onLine n f).register = p.register := rfl
@[simp] theorem onLine_dispatch (n : Nat) (f : Line → Line) : (p.onLine n f).dispatch = p.dispatch := rfl
@[simp] theorem onLine_outages (n : Nat) (f : Line → Line) : (p.onLine n f).outages = p.outages := rfl
@[simp] theorem onLine_panel (n : Nat) (f : Line → Line) : (p.onLine n f).panel = p.panel := rfl

/-! ### onSegment -/

@[simp] theorem onSegment_clock (i : Nat) (f : Segment → Segment) : (p.onSegment i f).clock = p.clock := rfl
@[simp] theorem onSegment_link (i : Nat) (f : Segment → Segment) : (p.onSegment i f).link = p.link := rfl
@[simp] theorem onSegment_lines (i : Nat) (f : Segment → Segment) : (p.onSegment i f).lines = p.lines := rfl
@[simp] theorem onSegment_outstations (i : Nat) (f : Segment → Segment) : (p.onSegment i f).outstations = p.outstations := rfl
@[simp] theorem onSegment_points (i : Nat) (f : Segment → Segment) : (p.onSegment i f).points = p.points := rfl
@[simp] theorem onSegment_valves (i : Nat) (f : Segment → Segment) : (p.onSegment i f).valves = p.valves := rfl
@[simp] theorem onSegment_feeds (i : Nat) (f : Segment → Segment) : (p.onSegment i f).feeds = p.feeds := rfl
@[simp] theorem onSegment_districts (i : Nat) (f : Segment → Segment) : (p.onSegment i f).districts = p.districts := rfl
@[simp] theorem onSegment_trace (i : Nat) (f : Segment → Segment) : (p.onSegment i f).trace = p.trace := rfl
@[simp] theorem onSegment_plans (i : Nat) (f : Segment → Segment) : (p.onSegment i f).plans = p.plans := rfl
@[simp] theorem onSegment_register (i : Nat) (f : Segment → Segment) : (p.onSegment i f).register = p.register := rfl
@[simp] theorem onSegment_dispatch (i : Nat) (f : Segment → Segment) : (p.onSegment i f).dispatch = p.dispatch := rfl
@[simp] theorem onSegment_outages (i : Nat) (f : Segment → Segment) : (p.onSegment i f).outages = p.outages := rfl
@[simp] theorem onSegment_panel (i : Nat) (f : Segment → Segment) : (p.onSegment i f).panel = p.panel := rfl

/-! ### onValve -/

@[simp] theorem onValve_clock (i : Nat) (f : Valve → Valve) : (p.onValve i f).clock = p.clock := rfl
@[simp] theorem onValve_link (i : Nat) (f : Valve → Valve) : (p.onValve i f).link = p.link := rfl
@[simp] theorem onValve_lines (i : Nat) (f : Valve → Valve) : (p.onValve i f).lines = p.lines := rfl
@[simp] theorem onValve_outstations (i : Nat) (f : Valve → Valve) : (p.onValve i f).outstations = p.outstations := rfl
@[simp] theorem onValve_points (i : Nat) (f : Valve → Valve) : (p.onValve i f).points = p.points := rfl
@[simp] theorem onValve_segments (i : Nat) (f : Valve → Valve) : (p.onValve i f).segments = p.segments := rfl
@[simp] theorem onValve_feeds (i : Nat) (f : Valve → Valve) : (p.onValve i f).feeds = p.feeds := rfl
@[simp] theorem onValve_districts (i : Nat) (f : Valve → Valve) : (p.onValve i f).districts = p.districts := rfl
@[simp] theorem onValve_trace (i : Nat) (f : Valve → Valve) : (p.onValve i f).trace = p.trace := rfl
@[simp] theorem onValve_plans (i : Nat) (f : Valve → Valve) : (p.onValve i f).plans = p.plans := rfl
@[simp] theorem onValve_register (i : Nat) (f : Valve → Valve) : (p.onValve i f).register = p.register := rfl
@[simp] theorem onValve_dispatch (i : Nat) (f : Valve → Valve) : (p.onValve i f).dispatch = p.dispatch := rfl
@[simp] theorem onValve_outages (i : Nat) (f : Valve → Valve) : (p.onValve i f).outages = p.outages := rfl
@[simp] theorem onValve_panel (i : Nat) (f : Valve → Valve) : (p.onValve i f).panel = p.panel := rfl

/-! ### onDistrict -/

@[simp] theorem onDistrict_clock (i : Nat) (f : District → District) : (p.onDistrict i f).clock = p.clock := rfl
@[simp] theorem onDistrict_link (i : Nat) (f : District → District) : (p.onDistrict i f).link = p.link := rfl
@[simp] theorem onDistrict_lines (i : Nat) (f : District → District) : (p.onDistrict i f).lines = p.lines := rfl
@[simp] theorem onDistrict_outstations (i : Nat) (f : District → District) : (p.onDistrict i f).outstations = p.outstations := rfl
@[simp] theorem onDistrict_points (i : Nat) (f : District → District) : (p.onDistrict i f).points = p.points := rfl
@[simp] theorem onDistrict_segments (i : Nat) (f : District → District) : (p.onDistrict i f).segments = p.segments := rfl
@[simp] theorem onDistrict_valves (i : Nat) (f : District → District) : (p.onDistrict i f).valves = p.valves := rfl
@[simp] theorem onDistrict_feeds (i : Nat) (f : District → District) : (p.onDistrict i f).feeds = p.feeds := rfl
@[simp] theorem onDistrict_trace (i : Nat) (f : District → District) : (p.onDistrict i f).trace = p.trace := rfl
@[simp] theorem onDistrict_plans (i : Nat) (f : District → District) : (p.onDistrict i f).plans = p.plans := rfl
@[simp] theorem onDistrict_register (i : Nat) (f : District → District) : (p.onDistrict i f).register = p.register := rfl
@[simp] theorem onDistrict_dispatch (i : Nat) (f : District → District) : (p.onDistrict i f).dispatch = p.dispatch := rfl
@[simp] theorem onDistrict_outages (i : Nat) (f : District → District) : (p.onDistrict i f).outages = p.outages := rfl
@[simp] theorem onDistrict_panel (i : Nat) (f : District → District) : (p.onDistrict i f).panel = p.panel := rfl

/-! ### onOutstation -/

@[simp] theorem onOutstation_clock (i : Nat) (f : Outstation → Outstation) : (p.onOutstation i f).clock = p.clock := rfl
@[simp] theorem onOutstation_link (i : Nat) (f : Outstation → Outstation) : (p.onOutstation i f).link = p.link := rfl
@[simp] theorem onOutstation_lines (i : Nat) (f : Outstation → Outstation) : (p.onOutstation i f).lines = p.lines := rfl
@[simp] theorem onOutstation_points (i : Nat) (f : Outstation → Outstation) : (p.onOutstation i f).points = p.points := rfl
@[simp] theorem onOutstation_segments (i : Nat) (f : Outstation → Outstation) : (p.onOutstation i f).segments = p.segments := rfl
@[simp] theorem onOutstation_valves (i : Nat) (f : Outstation → Outstation) : (p.onOutstation i f).valves = p.valves := rfl
@[simp] theorem onOutstation_feeds (i : Nat) (f : Outstation → Outstation) : (p.onOutstation i f).feeds = p.feeds := rfl
@[simp] theorem onOutstation_districts (i : Nat) (f : Outstation → Outstation) : (p.onOutstation i f).districts = p.districts := rfl
@[simp] theorem onOutstation_trace (i : Nat) (f : Outstation → Outstation) : (p.onOutstation i f).trace = p.trace := rfl
@[simp] theorem onOutstation_plans (i : Nat) (f : Outstation → Outstation) : (p.onOutstation i f).plans = p.plans := rfl
@[simp] theorem onOutstation_register (i : Nat) (f : Outstation → Outstation) : (p.onOutstation i f).register = p.register := rfl
@[simp] theorem onOutstation_dispatch (i : Nat) (f : Outstation → Outstation) : (p.onOutstation i f).dispatch = p.dispatch := rfl
@[simp] theorem onOutstation_outages (i : Nat) (f : Outstation → Outstation) : (p.onOutstation i f).outages = p.outages := rfl
@[simp] theorem onOutstation_panel (i : Nat) (f : Outstation → Outstation) : (p.onOutstation i f).panel = p.panel := rfl

/-! ### onCrew -/

@[simp] theorem onCrew_clock (i : Nat) (f : Crew → Crew) : (p.onCrew i f).clock = p.clock := rfl
@[simp] theorem onCrew_link (i : Nat) (f : Crew → Crew) : (p.onCrew i f).link = p.link := rfl
@[simp] theorem onCrew_lines (i : Nat) (f : Crew → Crew) : (p.onCrew i f).lines = p.lines := rfl
@[simp] theorem onCrew_outstations (i : Nat) (f : Crew → Crew) : (p.onCrew i f).outstations = p.outstations := rfl
@[simp] theorem onCrew_points (i : Nat) (f : Crew → Crew) : (p.onCrew i f).points = p.points := rfl
@[simp] theorem onCrew_segments (i : Nat) (f : Crew → Crew) : (p.onCrew i f).segments = p.segments := rfl
@[simp] theorem onCrew_valves (i : Nat) (f : Crew → Crew) : (p.onCrew i f).valves = p.valves := rfl
@[simp] theorem onCrew_feeds (i : Nat) (f : Crew → Crew) : (p.onCrew i f).feeds = p.feeds := rfl
@[simp] theorem onCrew_districts (i : Nat) (f : Crew → Crew) : (p.onCrew i f).districts = p.districts := rfl
@[simp] theorem onCrew_trace (i : Nat) (f : Crew → Crew) : (p.onCrew i f).trace = p.trace := rfl
@[simp] theorem onCrew_plans (i : Nat) (f : Crew → Crew) : (p.onCrew i f).plans = p.plans := rfl
@[simp] theorem onCrew_register (i : Nat) (f : Crew → Crew) : (p.onCrew i f).register = p.register := rfl
@[simp] theorem onCrew_outages (i : Nat) (f : Crew → Crew) : (p.onCrew i f).outages = p.outages := rfl
@[simp] theorem onCrew_panel (i : Nat) (f : Crew → Crew) : (p.onCrew i f).panel = p.panel := rfl

/-! ### onPlan -/

@[simp] theorem onPlan_clock (i : Nat) (f : Plan → Plan) : (p.onPlan i f).clock = p.clock := rfl
@[simp] theorem onPlan_link (i : Nat) (f : Plan → Plan) : (p.onPlan i f).link = p.link := rfl
@[simp] theorem onPlan_lines (i : Nat) (f : Plan → Plan) : (p.onPlan i f).lines = p.lines := rfl
@[simp] theorem onPlan_outstations (i : Nat) (f : Plan → Plan) : (p.onPlan i f).outstations = p.outstations := rfl
@[simp] theorem onPlan_points (i : Nat) (f : Plan → Plan) : (p.onPlan i f).points = p.points := rfl
@[simp] theorem onPlan_segments (i : Nat) (f : Plan → Plan) : (p.onPlan i f).segments = p.segments := rfl
@[simp] theorem onPlan_valves (i : Nat) (f : Plan → Plan) : (p.onPlan i f).valves = p.valves := rfl
@[simp] theorem onPlan_feeds (i : Nat) (f : Plan → Plan) : (p.onPlan i f).feeds = p.feeds := rfl
@[simp] theorem onPlan_districts (i : Nat) (f : Plan → Plan) : (p.onPlan i f).districts = p.districts := rfl
@[simp] theorem onPlan_trace (i : Nat) (f : Plan → Plan) : (p.onPlan i f).trace = p.trace := rfl
@[simp] theorem onPlan_register (i : Nat) (f : Plan → Plan) : (p.onPlan i f).register = p.register := rfl
@[simp] theorem onPlan_dispatch (i : Nat) (f : Plan → Plan) : (p.onPlan i f).dispatch = p.dispatch := rfl
@[simp] theorem onPlan_outages (i : Nat) (f : Plan → Plan) : (p.onPlan i f).outages = p.outages := rfl
@[simp] theorem onPlan_panel (i : Nat) (f : Plan → Plan) : (p.onPlan i f).panel = p.panel := rfl

/-! ### onPanel -/

@[simp] theorem onPanel_clock (f : Panel → Panel) : (p.onPanel f).clock = p.clock := rfl
@[simp] theorem onPanel_link (f : Panel → Panel) : (p.onPanel f).link = p.link := rfl
@[simp] theorem onPanel_lines (f : Panel → Panel) : (p.onPanel f).lines = p.lines := rfl
@[simp] theorem onPanel_outstations (f : Panel → Panel) : (p.onPanel f).outstations = p.outstations := rfl
@[simp] theorem onPanel_points (f : Panel → Panel) : (p.onPanel f).points = p.points := rfl
@[simp] theorem onPanel_segments (f : Panel → Panel) : (p.onPanel f).segments = p.segments := rfl
@[simp] theorem onPanel_valves (f : Panel → Panel) : (p.onPanel f).valves = p.valves := rfl
@[simp] theorem onPanel_feeds (f : Panel → Panel) : (p.onPanel f).feeds = p.feeds := rfl
@[simp] theorem onPanel_districts (f : Panel → Panel) : (p.onPanel f).districts = p.districts := rfl
@[simp] theorem onPanel_trace (f : Panel → Panel) : (p.onPanel f).trace = p.trace := rfl
@[simp] theorem onPanel_plans (f : Panel → Panel) : (p.onPanel f).plans = p.plans := rfl
@[simp] theorem onPanel_register (f : Panel → Panel) : (p.onPanel f).register = p.register := rfl
@[simp] theorem onPanel_dispatch (f : Panel → Panel) : (p.onPanel f).dispatch = p.dispatch := rfl
@[simp] theorem onPanel_outages (f : Panel → Panel) : (p.onPanel f).outages = p.outages := rfl

/-! ### onSupervision -/

@[simp] theorem onSupervision_clock (f : Supervision → Supervision) : (p.onSupervision f).clock = p.clock := rfl
@[simp] theorem onSupervision_link (f : Supervision → Supervision) : (p.onSupervision f).link = p.link := rfl
@[simp] theorem onSupervision_lines (f : Supervision → Supervision) : (p.onSupervision f).lines = p.lines := rfl
@[simp] theorem onSupervision_outstations (f : Supervision → Supervision) : (p.onSupervision f).outstations = p.outstations := rfl
@[simp] theorem onSupervision_points (f : Supervision → Supervision) : (p.onSupervision f).points = p.points := rfl
@[simp] theorem onSupervision_segments (f : Supervision → Supervision) : (p.onSupervision f).segments = p.segments := rfl
@[simp] theorem onSupervision_valves (f : Supervision → Supervision) : (p.onSupervision f).valves = p.valves := rfl
@[simp] theorem onSupervision_feeds (f : Supervision → Supervision) : (p.onSupervision f).feeds = p.feeds := rfl
@[simp] theorem onSupervision_districts (f : Supervision → Supervision) : (p.onSupervision f).districts = p.districts := rfl
@[simp] theorem onSupervision_trace (f : Supervision → Supervision) : (p.onSupervision f).trace = p.trace := rfl
@[simp] theorem onSupervision_plans (f : Supervision → Supervision) : (p.onSupervision f).plans = p.plans := rfl
@[simp] theorem onSupervision_register (f : Supervision → Supervision) : (p.onSupervision f).register = p.register := rfl
@[simp] theorem onSupervision_dispatch (f : Supervision → Supervision) : (p.onSupervision f).dispatch = p.dispatch := rfl
@[simp] theorem onSupervision_outages (f : Supervision → Supervision) : (p.onSupervision f).outages = p.outages := rfl

/-! ### putPoint -/

@[simp] theorem putPoint_clock (i : Nat) (x : Point) : (putPoint i x p).clock = p.clock := rfl
@[simp] theorem putPoint_link (i : Nat) (x : Point) : (putPoint i x p).link = p.link := rfl
@[simp] theorem putPoint_lines (i : Nat) (x : Point) : (putPoint i x p).lines = p.lines := rfl
@[simp] theorem putPoint_outstations (i : Nat) (x : Point) : (putPoint i x p).outstations = p.outstations := rfl
@[simp] theorem putPoint_segments (i : Nat) (x : Point) : (putPoint i x p).segments = p.segments := rfl
@[simp] theorem putPoint_valves (i : Nat) (x : Point) : (putPoint i x p).valves = p.valves := rfl
@[simp] theorem putPoint_feeds (i : Nat) (x : Point) : (putPoint i x p).feeds = p.feeds := rfl
@[simp] theorem putPoint_districts (i : Nat) (x : Point) : (putPoint i x p).districts = p.districts := rfl
@[simp] theorem putPoint_trace (i : Nat) (x : Point) : (putPoint i x p).trace = p.trace := rfl
@[simp] theorem putPoint_plans (i : Nat) (x : Point) : (putPoint i x p).plans = p.plans := rfl
@[simp] theorem putPoint_register (i : Nat) (x : Point) : (putPoint i x p).register = p.register := rfl
@[simp] theorem putPoint_dispatch (i : Nat) (x : Point) : (putPoint i x p).dispatch = p.dispatch := rfl
@[simp] theorem putPoint_outages (i : Nat) (x : Point) : (putPoint i x p).outages = p.outages := rfl
@[simp] theorem putPoint_panel (i : Nat) (x : Point) : (putPoint i x p).panel = p.panel := rfl

/-! ### setBuffer -/

@[simp] theorem setBuffer_clock (rx : List RxByte) : (setBuffer rx p).clock = p.clock := rfl
@[simp] theorem setBuffer_lines (rx : List RxByte) : (setBuffer rx p).lines = p.lines := rfl
@[simp] theorem setBuffer_outstations (rx : List RxByte) : (setBuffer rx p).outstations = p.outstations := rfl
@[simp] theorem setBuffer_points (rx : List RxByte) : (setBuffer rx p).points = p.points := rfl
@[simp] theorem setBuffer_segments (rx : List RxByte) : (setBuffer rx p).segments = p.segments := rfl
@[simp] theorem setBuffer_valves (rx : List RxByte) : (setBuffer rx p).valves = p.valves := rfl
@[simp] theorem setBuffer_feeds (rx : List RxByte) : (setBuffer rx p).feeds = p.feeds := rfl
@[simp] theorem setBuffer_districts (rx : List RxByte) : (setBuffer rx p).districts = p.districts := rfl
@[simp] theorem setBuffer_trace (rx : List RxByte) : (setBuffer rx p).trace = p.trace := rfl
@[simp] theorem setBuffer_plans (rx : List RxByte) : (setBuffer rx p).plans = p.plans := rfl
@[simp] theorem setBuffer_register (rx : List RxByte) : (setBuffer rx p).register = p.register := rfl
@[simp] theorem setBuffer_dispatch (rx : List RxByte) : (setBuffer rx p).dispatch = p.dispatch := rfl
@[simp] theorem setBuffer_outages (rx : List RxByte) : (setBuffer rx p).outages = p.outages := rfl
@[simp] theorem setBuffer_panel (rx : List RxByte) : (setBuffer rx p).panel = p.panel := rfl

/-! ### refreshLamps -/

@[simp] theorem refreshLamps_clock : (refreshLamps p).clock = p.clock := rfl
@[simp] theorem refreshLamps_link : (refreshLamps p).link = p.link := rfl
@[simp] theorem refreshLamps_lines : (refreshLamps p).lines = p.lines := rfl
@[simp] theorem refreshLamps_outstations : (refreshLamps p).outstations = p.outstations := rfl
@[simp] theorem refreshLamps_points : (refreshLamps p).points = p.points := rfl
@[simp] theorem refreshLamps_segments : (refreshLamps p).segments = p.segments := rfl
@[simp] theorem refreshLamps_valves : (refreshLamps p).valves = p.valves := rfl
@[simp] theorem refreshLamps_feeds : (refreshLamps p).feeds = p.feeds := rfl
@[simp] theorem refreshLamps_districts : (refreshLamps p).districts = p.districts := rfl
@[simp] theorem refreshLamps_trace : (refreshLamps p).trace = p.trace := rfl
@[simp] theorem refreshLamps_plans : (refreshLamps p).plans = p.plans := rfl
@[simp] theorem refreshLamps_register : (refreshLamps p).register = p.register := rfl
@[simp] theorem refreshLamps_dispatch : (refreshLamps p).dispatch = p.dispatch := rfl
@[simp] theorem refreshLamps_outages : (refreshLamps p).outages = p.outages := rfl

/-! ### What each update does to its own field -/

theorem place_link (n : Notice) : (place n p).link = p.link.place p.time n := rfl
theorem onLine_lines (n : Nat) (f : Line → Line) : (p.onLine n f).lines = p.lines.set n (f (p.lines.get n)) := rfl
theorem onSegment_segments (i : Nat) (f : Segment → Segment) : (p.onSegment i f).segments = p.segments.modify i f := rfl
theorem onValve_valves (i : Nat) (f : Valve → Valve) : (p.onValve i f).valves = p.valves.modify i f := rfl
theorem onDistrict_districts (i : Nat) (f : District → District) :
    (p.onDistrict i f).districts = p.districts.modify i f := rfl
theorem onOutstation_outstations (i : Nat) (f : Outstation → Outstation) :
    (p.onOutstation i f).outstations = p.outstations.modify i f := rfl
theorem onPlan_plans (i : Nat) (f : Plan → Plan) : (p.onPlan i f).plans = p.plans.modify i f := rfl
theorem onCrew_crews (i : Nat) (f : Crew → Crew) : (p.onCrew i f).dispatch.crews = p.dispatch.crews.modify i f := rfl
@[simp] theorem onCrew_levels (i : Nat) (f : Crew → Crew) : (p.onCrew i f).dispatch.levels = p.dispatch.levels := rfl
@[simp] theorem onCrew_reloads (i : Nat) (f : Crew → Crew) : (p.onCrew i f).dispatch.reloads = p.dispatch.reloads := rfl
@[simp] theorem onPanel_panel (f : Panel → Panel) : (p.onPanel f).panel = f p.panel := rfl
@[simp] theorem putPoint_points (i : Nat) (x : Point) : (putPoint i x p).points = p.points.set i x := rfl
@[simp] theorem refreshLamps_supervision : (refreshLamps p).panel.supervision = p.panel.supervision := rfl
@[simp] theorem refreshLamps_conditions : (refreshLamps p).panel.conditions = p.lampConditions := rfl

/-! ### The line of a number -/

/-- A line written on its own number reads as written. -/
theorem get_set_same (ls : Lines) (n : Nat) (l : Line) : (ls.set n l).get n = l := by
  match n with
  | 0 => rfl
  | 1 => rfl
  | 2 => rfl
  | _ + 3 => rfl

/-- A line written on one number leaves another line as it was; every number of 3 and above is FL3. -/
theorem get_set_other (ls : Lines) (m n : Nat) (l : Line) (h : min m 3 ≠ min n 3) :
    (ls.set n l).get m = ls.get m := by
  match m, n with
  | 0, 0 => simp at h
  | 0, 1 => rfl
  | 0, 2 => rfl
  | 0, _ + 3 => rfl
  | 1, 0 => rfl
  | 1, 1 => simp at h
  | 1, 2 => rfl
  | 1, _ + 3 => rfl
  | 2, 0 => rfl
  | 2, 1 => rfl
  | 2, 2 => simp at h
  | 2, _ + 3 => rfl
  | _ + 3, 0 => rfl
  | _ + 3, 1 => rfl
  | _ + 3, 2 => rfl
  | m + 3, n + 3 => exact absurd (by omega) h

@[simp] theorem line_onLine_same (n : Nat) (f : Line → Line) : (p.onLine n f).line n = f (p.line n) :=
  get_set_same p.lines n _

theorem line_onLine_other (m n : Nat) (f : Line → Line) (h : min m 3 ≠ min n 3) :
    (p.onLine n f).line m = p.line m :=
  get_set_other p.lines m n _ h

end Sys2Proof.Laws
end

