-- ==== Sys2Proof/Laws/Link.lean ====
section
/-!
SUPPORT. The control link's operations: what each can do, once, and the relation between a link and the same link after
notices.
-/

namespace Sys2Proof.Laws

open Sys2Proof.Machine

/-! ### The transmitter -/

/-- What `startNext` can do: nothing, begin the first waiting reply, or begin the head notice. -/
theorem startNext_cases (l : Link) :
    l.startNext = l ∨
    (∃ r rest, l.tx = none ∧ l.replies = r :: rest ∧
      l.startNext = { l with replies := rest, tx := some (.reply r) }) ∨
    (∃ n rest, l.tx = none ∧ l.replies = [] ∧ l.notices = n :: rest ∧
      l.startNext = { l with notices := rest, tx := some (.notice n) }) := by
  unfold Link.startNext
  split
  · exact .inl rfl
  · rename_i h
    have htx : l.tx = none := by
      rcases h' : l.tx with _ | _
      · rfl
      · simp [h'] at h
    split
    · rename_i r rest hr; exact .inr (.inl ⟨r, rest, htx, hr, rfl⟩)
    · rename_i hr
      split
      · rename_i n rest hn; exact .inr (.inr ⟨n, rest, htx, hr, hn, rfl⟩)
      · exact .inl rfl

/-- A busy transmitter begins nothing. -/
theorem startNext_busy (l : Link) (h : l.tx.isSome = true) : l.startNext = l := by
  simp [Link.startNext, h]

/-- Inside a request's execution the transmitter waits for the reply (R10). -/
theorem startNext_mid (l : Link) (h : l.midRequest = true) : l.startNext = l := by
  simp [Link.startNext, h]

@[simp] theorem startNext_rate (l : Link) : l.startNext.rate = l.rate := by
  rcases startNext_cases l with h | ⟨_, _, _, _, h⟩ | ⟨_, _, _, _, _, h⟩ <;> rw [h]
@[simp] theorem startNext_resetCause (l : Link) : l.startNext.resetCause = l.resetCause := by
  rcases startNext_cases l with h | ⟨_, _, _, _, h⟩ | ⟨_, _, _, _, _, h⟩ <;> rw [h]
@[simp] theorem startNext_rxBuffer (l : Link) : l.startNext.rxBuffer = l.rxBuffer := by
  rcases startNext_cases l with h | ⟨_, _, _, _, h⟩ | ⟨_, _, _, _, _, h⟩ <;> rw [h]
@[simp] theorem startNext_lastRx (l : Link) : l.startNext.lastRx = l.lastRx := by
  rcases startNext_cases l with h | ⟨_, _, _, _, h⟩ | ⟨_, _, _, _, _, h⟩ <;> rw [h]
@[simp] theorem startNext_executing (l : Link) : l.startNext.executing = l.executing := by
  rcases startNext_cases l with h | ⟨_, _, _, _, h⟩ | ⟨_, _, _, _, _, h⟩ <;> rw [h]
@[simp] theorem startNext_waiting (l : Link) : l.startNext.waiting = l.waiting := by
  rcases startNext_cases l with h | ⟨_, _, _, _, h⟩ | ⟨_, _, _, _, _, h⟩ <;> rw [h]
@[simp] theorem startNext_seq (l : Link) : l.startNext.seq = l.seq := by
  rcases startNext_cases l with h | ⟨_, _, _, _, h⟩ | ⟨_, _, _, _, _, h⟩ <;> rw [h]
@[simp] theorem startNext_enables (l : Link) : l.startNext.enables = l.enables := by
  rcases startNext_cases l with h | ⟨_, _, _, _, h⟩ | ⟨_, _, _, _, _, h⟩ <;> rw [h]
@[simp] theorem startNext_errorCount (l : Link) : l.startNext.errorCount = l.errorCount := by
  rcases startNext_cases l with h | ⟨_, _, _, _, h⟩ | ⟨_, _, _, _, _, h⟩ <;> rw [h]
@[simp] theorem startNext_lostCount (l : Link) : l.startNext.lostCount = l.lostCount := by
  rcases startNext_cases l with h | ⟨_, _, _, _, h⟩ | ⟨_, _, _, _, _, h⟩ <;> rw [h]
@[simp] theorem startNext_partState (l : Link) : l.startNext.partState = l.partState := by
  rcases startNext_cases l with h | ⟨_, _, _, _, h⟩ | ⟨_, _, _, _, _, h⟩ <;> rw [h]

/-- Nothing that waited or was being sent is lost when the transmitter begins a frame. -/
theorem startNext_made (l : Link) (r : Reply) (h : l.made r) : l.startNext.made r := by
  unfold Link.made at *
  rcases startNext_cases l with hs | ⟨q, rest, htx, hq, hs⟩ | ⟨n, rest, htx, hq, hn, hs⟩ <;> rw [hs]
  · exact h
  · rw [hq, htx] at h; simp at h ⊢; rcases h with rfl | h
    · exact .inr rfl
    · exact .inl h
  · rw [hq, htx] at h; simp at h

/-- The notices and LINK_FULL replies that wait only grow fewer when a frame is begun. -/
theorem startNext_inRange (l : Link) (h : l.inRange) : l.startNext.inRange := by
  obtain ⟨h1, h2, h3, h4, h5, h6⟩ := h
  refine ⟨?_, ?_, by simpa using h3, by simpa using h4, by simpa using h5, by simpa using h6⟩
  · rcases startNext_cases l with hs | ⟨q, rest, htx, hq, hs⟩ | ⟨n, rest, htx, hq, hn, hs⟩ <;> rw [hs]
    · exact h1
    · exact h1
    · rw [hn] at h1; simp at h1; exact Nat.le_of_lt (by omega)
  · rcases startNext_cases l with hs | ⟨q, rest, htx, hq, hs⟩ | ⟨n, rest, htx, hq, hn, hs⟩ <;> rw [hs]
    · exact h2
    · refine le_trans ?_ h2
      simp only [Link.linkFulls, hq]
      exact List.Sublist.length_le (List.Sublist.filter _ (List.sublist_cons_self _ _))
    · exact h2

/-- Outside a request's execution, nothing waits behind an idle transmitter once it has had its turn (R10). -/
theorem startNext_settled (l : Link) (hm : l.midRequest = false) :
    l.startNext.tx = none → l.startNext.replies = [] ∧ l.startNext.notices = [] := by
  intro htx
  rcases h : l.tx with _ | f
  · unfold Link.startNext at htx ⊢
    simp only [h, hm] at htx ⊢
    rcases hr : l.replies with _ | ⟨r, rest⟩ <;> rcases hn : l.notices with _ | ⟨n, rest'⟩ <;> simp [hr, hn] at htx ⊢
  · rw [startNext_busy l (by simp [h])] at htx
    simp [h] at htx

/-! ### Notices -/

/-- What `place` can do (R11, R12): nothing when the class is disabled; append the notice with the next number; or
discard it with its number and count it. -/
theorem place_cases (now : Nat) (n : Notice) (l : Link) :
    (l.enabled n = false ∧ l.place now n = l) ∨
    (l.enabled n = true ∧ l.notices.length < noticeRoom ∧
      l.place now n = Link.startNext { l with notices := l.notices ++ [⟨l.seq, now, n⟩], seq := (l.seq + 1) % 256 }) ∨
    (l.enabled n = true ∧ noticeRoom ≤ l.notices.length ∧
      l.place now n = { l with seq := (l.seq + 1) % 256, lostCount := bump l.lostCount }) := by
  unfold Link.place
  rcases he : l.enabled n with _ | _
  · simp
  · by_cases hr : l.notices.length < noticeRoom
    · simp [hr]
    · simp [hr]; omega

/-- A link and the same link after notices have been placed, none or more. -/
inductive Grows : Link → Link → Prop where
  | refl (l : Link) : Grows l l
  | place {l m : Link} (now : Nat) (n : Notice) (h : Grows l m) : Grows l (m.place now n)

theorem Grows.trans {a b c : Link} (h : Grows a b) (k : Grows b c) : Grows a c := by
  induction k with
  | refl => exact h
  | place now n _ ih => exact .place now n ih

/-- A function of a link that no placement moves is the same after notices. -/
theorem Grows.same {γ : Type} (f : Link → γ) (hf : ∀ now n l, f (Link.place now n l) = f l) {a b : Link}
    (h : Grows a b) : f b = f a := by
  induction h with
  | refl => rfl
  | place now n _ ih => rw [hf, ih]

/-- A property that every placement keeps is kept by notices. -/
theorem Grows.keeps (P : Link → Prop) (hP : ∀ now n l, P l → P (Link.place now n l)) {a b : Link} (h : Grows a b)
    (ha : P a) : P b := by
  induction h with
  | refl => exact ha
  | place now n _ ih => exact hP now n _ ih

section
variable (now : Nat) (n : Notice) (l : Link)

@[simp] theorem place_executing : (l.place now n).executing = l.executing := by
  rcases place_cases now n l with ⟨_, h⟩ | ⟨_, _, h⟩ | ⟨_, _, h⟩ <;> simp [h]
@[simp] theorem place_waiting : (l.place now n).waiting = l.waiting := by
  rcases place_cases now n l with ⟨_, h⟩ | ⟨_, _, h⟩ | ⟨_, _, h⟩ <;> simp [h]
@[simp] theorem place_rate : (l.place now n).rate = l.rate := by
  rcases place_cases now n l with ⟨_, h⟩ | ⟨_, _, h⟩ | ⟨_, _, h⟩ <;> simp [h]
@[simp] theorem place_resetCause : (l.place now n).resetCause = l.resetCause := by
  rcases place_cases now n l with ⟨_, h⟩ | ⟨_, _, h⟩ | ⟨_, _, h⟩ <;> simp [h]
@[simp] theorem place_rxBuffer : (l.place now n).rxBuffer = l.rxBuffer := by
  rcases place_cases now n l with ⟨_, h⟩ | ⟨_, _, h⟩ | ⟨_, _, h⟩ <;> simp [h]
@[simp] theorem place_lastRx : (l.place now n).lastRx = l.lastRx := by
  rcases place_cases now n l with ⟨_, h⟩ | ⟨_, _, h⟩ | ⟨_, _, h⟩ <;> simp [h]
@[simp] theorem place_enables : (l.place now n).enables = l.enables := by
  rcases place_cases now n l with ⟨_, h⟩ | ⟨_, _, h⟩ | ⟨_, _, h⟩ <;> simp [h]
@[simp] theorem place_errorCount : (l.place now n).errorCount = l.errorCount := by
  rcases place_cases now n l with ⟨_, h⟩ | ⟨_, _, h⟩ | ⟨_, _, h⟩ <;> simp [h]
@[simp] theorem place_partState : (l.place now n).partState = l.partState := by
  rcases place_cases now n l with ⟨_, h⟩ | ⟨_, _, h⟩ | ⟨_, _, h⟩ <;> simp [h]
@[simp] theorem place_midRequest : (l.place now n).midRequest = l.midRequest := by
  simp [Link.midRequest]

/-- Inside a request's execution a notice begins nothing and touches no reply (R10). -/
theorem place_mid (hm : l.midRequest = true) : (l.place now n).tx = l.tx ∧ (l.place now n).replies = l.replies := by
  rcases place_cases now n l with ⟨_, h⟩ | ⟨_, _, h⟩ | ⟨_, _, h⟩ <;> rw [h]
  · exact ⟨rfl, rfl⟩
  · rw [startNext_mid _ (by simpa [Link.midRequest] using hm)]; exact ⟨rfl, rfl⟩
  · exact ⟨rfl, rfl⟩

/-- A placement keeps the link in its ranges. -/
theorem place_inRange (h : l.inRange) : (l.place now n).inRange := by
  obtain ⟨h1, h2, h3, h4, h5, h6⟩ := h
  rcases place_cases now n l with ⟨_, hp⟩ | ⟨_, hr, hp⟩ | ⟨_, _, hp⟩ <;> rw [hp]
  · exact ⟨h1, h2, h3, h4, h5, h6⟩
  · refine startNext_inRange _ ⟨?_, h2, Nat.mod_lt _ (by decide), h4, h5, h6⟩
    simp; omega
  · exact ⟨h1, h2, Nat.mod_lt _ (by decide), h4, by simp only [bump]; exact Nat.min_le_left _ _, h6⟩

/-- A placement outside a request's execution keeps the link settled. -/
theorem place_settled (h : l.settled) : (l.place now n).settled := by
  obtain ⟨h1, h2⟩ := h
  have hm : l.midRequest = false := by
    unfold Link.midRequest
    rcases he : l.executing with _ | e
    · rfl
    · simp [h1 e he]
  refine ⟨by simpa using h1, ?_⟩
  rcases place_cases now n l with ⟨_, hp⟩ | ⟨_, _, hp⟩ | ⟨_, _, hp⟩ <;> rw [hp]
  · exact h2
  · exact startNext_settled _ (by simpa [Link.midRequest] using hm)
  · exact h2

end

section
variable {a b : Link} (h : Grows a b)
include h

theorem Grows.executing : b.executing = a.executing := h.same (·.executing) (fun _ _ _ => place_executing _ _ _)
theorem Grows.waiting : b.waiting = a.waiting := h.same (·.waiting) (fun _ _ _ => place_waiting _ _ _)
theorem Grows.rate : b.rate = a.rate := h.same (·.rate) (fun _ _ _ => place_rate _ _ _)
theorem Grows.resetCause : b.resetCause = a.resetCause := h.same (·.resetCause) (fun _ _ _ => place_resetCause _ _ _)
theorem Grows.rxBuffer : b.rxBuffer = a.rxBuffer := h.same (·.rxBuffer) (fun _ _ _ => place_rxBuffer _ _ _)
theorem Grows.lastRx : b.lastRx = a.lastRx := h.same (·.lastRx) (fun _ _ _ => place_lastRx _ _ _)
theorem Grows.enables : b.enables = a.enables := h.same (·.enables) (fun _ _ _ => place_enables _ _ _)
theorem Grows.errorCount : b.errorCount = a.errorCount := h.same (·.errorCount) (fun _ _ _ => place_errorCount _ _ _)
theorem Grows.partState : b.partState = a.partState := h.same (·.partState) (fun _ _ _ => place_partState _ _ _)
theorem Grows.midRequest : b.midRequest = a.midRequest := h.same (·.midRequest) (fun _ _ _ => place_midRequest _ _ _)
theorem Grows.inRange (ha : a.inRange) : b.inRange := h.keeps Link.inRange (fun _ _ _ => place_inRange _ _ _) ha
theorem Grows.settled (ha : a.settled) : b.settled := h.keeps Link.settled (fun _ _ _ => place_settled _ _ _) ha

/-- Inside a request's execution, notices leave the transmitter and the reply queue as they were. -/
theorem Grows.mid (hm : a.midRequest = true) : b.tx = a.tx ∧ b.replies = a.replies := by
  have := h.keeps (fun l => l.midRequest = true ∧ l.tx = a.tx ∧ l.replies = a.replies) (fun now n l hl => by
    obtain ⟨h1, h2, h3⟩ := hl
    obtain ⟨h4, h5⟩ := place_mid now n l h1
    exact ⟨by simpa using h1, h4.trans h2, h5.trans h3⟩) ⟨hm, rfl, rfl⟩
  exact this.2

end

/-! ### Replies -/

/-- What `answer` does for the request in the executing slot: its reply joins the queue, and an idle transmitter begins
the first that waits (R9, R10). -/
theorem answer_executing (l : Link) (e : ExecSlot) (st : Status) (res : List Byte) (h : l.executing = some e) :
    l.answer st res = Link.startNext { l with
      executing := some { e with replied := true }
      replies := l.replies ++ [⟨e.request.kind, e.request.tag, st, res⟩] } := by
  simp [Link.answer, h]

/-- After the answer of the request in the slot, its reply has been made and the link is settled (R7, R9, R10). -/
theorem answer_spec (l : Link) (e : ExecSlot) (st : Status) (res : List Byte) (h : l.executing = some e) :
    (l.answer st res).executing = some { e with replied := true } ∧
    (l.answer st res).made ⟨e.request.kind, e.request.tag, st, res⟩ ∧ (l.answer st res).settled := by
  rw [answer_executing l e st res h]
  refine ⟨by simp, startNext_made _ _ (.inl (by simp)), ?_, ?_⟩
  · intro x hx; simp at hx; rw [← hx]
  · exact startNext_settled _ rfl

/-- An answer that is no LINK_FULL keeps the link in its ranges. -/
theorem answer_inRange (l : Link) (e : ExecSlot) (st : Status) (res : List Byte) (h : l.executing = some e)
    (hst : st ≠ .linkFull) (hr : l.inRange) : (l.answer st res).inRange := by
  rw [answer_executing l e st res h]
  obtain ⟨h1, h2, h3, h4, h5, h6⟩ := hr
  refine startNext_inRange _ ⟨h1, ?_, h3, h4, h5, by simp⟩
  simpa [Link.linkFulls, hst] using h2

/-- A request turned away keeps the link in its ranges (R6). -/
theorem turnAway_inRange (r : Request) (l : Link) (hr : l.inRange) : (l.turnAway r).inRange := by
  unfold Link.turnAway
  obtain ⟨h1, h2, h3, h4, h5, h6⟩ := hr
  split
  · rename_i hlt
    refine startNext_inRange _ ⟨h1, ?_, h3, h4, h5, h6⟩
    simp only [Link.linkFulls] at hlt ⊢
    simp; omega
  · exact ⟨h1, h2, h3, by simp only [Link.countError, bump]; exact Nat.min_le_left _ _, h5, h6⟩

/-- A request turned away keeps the link settled (R6, R10). -/
theorem turnAway_settled (r : Request) (l : Link) (h : l.settled) : (l.turnAway r).settled := by
  obtain ⟨h1, h2⟩ := h
  have hm : l.midRequest = false := by
    unfold Link.midRequest
    rcases he : l.executing with _ | e
    · rfl
    · simp [h1 e he]
  unfold Link.turnAway
  split
  · exact ⟨by simpa using h1, startNext_settled _ hm⟩
  · exact ⟨h1, h2⟩

end Sys2Proof.Laws
end

