-- ==== Sys2Proof/Laws/Table.lean ====
section
/-!
SUPPORT. Tables of records: reading back what was written, and the canonical form, which every operation keeps.
-/

namespace Sys2Proof.Laws

open Sys2Proof.Machine

variable {α β : Type}

/-! ### Reading back -/

/-- An entry just put is found. -/
theorem findEntry_put_same (k : Nat) (v : α) (es : List (Nat × α)) : findEntry k (putEntry k v es) = some v := by
  induction es with
  | nil => simp [putEntry, findEntry]
  | cons e rest ih =>
    obtain ⟨i, a⟩ := e
    simp only [putEntry]
    split
    · simp [findEntry]
    · split
      · simp [findEntry]
      · simp [findEntry, *]

/-- A put at one id leaves what is found at another. -/
theorem findEntry_put_other (j k : Nat) (v : α) (es : List (Nat × α)) (h : j ≠ k) :
    findEntry j (putEntry k v es) = findEntry j es := by
  induction es with
  | nil => simp [putEntry, findEntry, Ne.symm h]
  | cons e rest ih =>
    obtain ⟨i, a⟩ := e
    simp only [putEntry]
    split
    · simp [findEntry, Ne.symm h]
    · split
      · subst_vars; simp [findEntry, Ne.symm h]
      · simp [findEntry, ih]

@[simp] theorem get?_set_same (t : Table α) (k : Nat) (v : α) : (t.set k v).get? k = some v :=
  findEntry_put_same k v t.entries

theorem get?_set_other (t : Table α) (j k : Nat) (v : α) (h : j ≠ k) : (t.set k v).get? j = t.get? j :=
  findEntry_put_other j k v t.entries h

/-- A modification of a used entry, read back. -/
theorem get?_modify_same (t : Table α) (k : Nat) (f : α → α) : (t.modify k f).get? k = (t.get? k).map f := by
  cases h : t.get? k <;> simp [Table.modify, h]

theorem get?_modify_other (t : Table α) (j k : Nat) (f : α → α) (h : j ≠ k) : (t.modify k f).get? j = t.get? j := by
  cases hk : t.get? k <;> simp [Table.modify, hk, get?_set_other _ _ _ _ h]

/-- A map over a table, read back. -/
theorem get?_map (t : Table α) (f : Nat → α → α) (k : Nat) : (t.map f).get? k = (t.get? k).map (f k) := by
  obtain ⟨es⟩ := t
  simp only [Table.map, Table.get?]
  induction es with
  | nil => simp [findEntry]
  | cons e rest ih =>
    obtain ⟨i, a⟩ := e
    by_cases hi : i = k
    · subst hi; simp [findEntry]
    · simpa [findEntry, hi] using ih

@[simp] theorem get?_erase_same (t : Table α) (k : Nat) : (t.erase k).get? k = none := by
  obtain ⟨es⟩ := t
  simp only [Table.erase, Table.get?]
  induction es with
  | nil => simp [findEntry]
  | cons e rest ih =>
    obtain ⟨i, a⟩ := e
    by_cases hi : i = k
    · simpa [hi] using ih
    · simp only [List.filter_cons, bne_iff_ne, ne_eq, hi, not_false_eq_true, if_true, findEntry, if_false]
      exact ih

theorem get?_erase_other (t : Table α) (j k : Nat) (h : j ≠ k) : (t.erase k).get? j = t.get? j := by
  obtain ⟨es⟩ := t
  simp only [Table.erase, Table.get?]
  induction es with
  | nil => simp [findEntry]
  | cons e rest ih =>
    obtain ⟨i, a⟩ := e
    by_cases hi : i = k
    · have : i ≠ j := by omega
      simp [hi, findEntry] at *; simp [ih]; omega
    · simp only [List.filter_cons, bne_iff_ne, ne_eq, hi, not_false_eq_true, if_true, findEntry]
      rw [ih]

@[simp] theorem get?_empty (k : Nat) : (⟨[]⟩ : Table α).get? k = none := rfl

/-! ### The canonical form -/

/-- Ids that strictly rise, put as a pairwise relation. -/
theorem rising_iff (ks : List Nat) : rising ks = true ↔ ks.Pairwise (· < ·) := by
  induction ks with
  | nil => simp [rising]
  | cons a rest ih =>
    cases rest with
    | nil => simp [rising]
    | cons b rest =>
      simp only [rising, Bool.and_eq_true, decide_eq_true_eq, ih, List.pairwise_cons]
      constructor
      · rintro ⟨hab, hb, hr⟩
        refine ⟨?_, hb, hr⟩
        intro c hc
        rcases List.mem_cons.mp hc with rfl | hc
        · exact hab
        · exact lt_trans hab (hb c hc)
      · rintro ⟨ha, hb, hr⟩
        exact ⟨ha b (by simp), hb, hr⟩

/-- The canonical form, in words: the ids strictly rise, and each lies below the table's size. -/
theorem wf_iff (t : Table α) (room : Nat) :
    t.wf room = true ↔ t.ids.Pairwise (· < ·) ∧ ∀ k ∈ t.ids, k < room := by
  simp [Table.wf, rising_iff, List.all_eq_true]

/-- The ids of a list of entries after a put. -/
theorem mem_putEntry_ids (j k : Nat) (v : α) (es : List (Nat × α)) :
    j ∈ (putEntry k v es).map (·.1) ↔ j = k ∨ j ∈ es.map (·.1) := by
  induction es with
  | nil => simp [putEntry]
  | cons e rest ih =>
    obtain ⟨i, a⟩ := e
    simp only [putEntry]
    split
    · simp
    · split
      · rename_i h; subst h; simp
      · simp only [List.map_cons, List.mem_cons, ih]; tauto

/-- A put keeps the ids rising. -/
theorem putEntry_rising (k : Nat) (v : α) (es : List (Nat × α)) (h : (es.map (·.1)).Pairwise (· < ·)) :
    ((putEntry k v es).map (·.1)).Pairwise (· < ·) := by
  induction es with
  | nil => simp [putEntry]
  | cons e rest ih =>
    obtain ⟨i, a⟩ := e
    simp only [List.map_cons, List.pairwise_cons] at h
    simp only [putEntry]
    split
    · rename_i hk
      simp only [List.map_cons, List.pairwise_cons, List.mem_cons]
      refine ⟨?_, h.1, h.2⟩
      rintro c (rfl | hc)
      · exact hk
      · exact lt_trans hk (h.1 c hc)
    · split
      · rename_i hi; subst hi
        simpa [List.pairwise_cons] using h
      · simp only [List.map_cons, List.pairwise_cons]
        refine ⟨?_, ih h.2⟩
        intro c hc
        rcases (mem_putEntry_ids c k v rest).mp hc with rfl | hc
        · omega
        · exact h.1 c hc

/-- Writing an entry below the size keeps the canonical form. -/
theorem wf_set (t : Table α) (room k : Nat) (v : α) (h : t.wf room = true) (hk : k < room) :
    (t.set k v).wf room = true := by
  rw [wf_iff] at *
  refine ⟨putEntry_rising k v t.entries h.1, fun j hj => ?_⟩
  rcases (mem_putEntry_ids j k v t.entries).mp hj with rfl | hj
  · exact hk
  · exact h.2 j hj

/-- A record that is found stands among the entries. -/
theorem mem_of_get? (t : Table α) (k : Nat) (v : α) (h : t.get? k = some v) : (k, v) ∈ t.entries := by
  obtain ⟨es⟩ := t
  simp only [Table.get?] at *
  induction es with
  | nil => simp [findEntry] at h
  | cons e rest ih =>
    obtain ⟨i, a⟩ := e
    by_cases hi : i = k
    · simp only [findEntry, hi, if_true, Option.some.injEq] at h
      simp [hi, h]
    · simp only [findEntry, hi, if_false] at h
      exact List.mem_cons_of_mem _ (ih h)

/-- A found entry has its id in the table. -/
theorem mem_ids_of_get? (t : Table α) (k : Nat) (v : α) (h : t.get? k = some v) : k ∈ t.ids :=
  List.mem_map_of_mem (mem_of_get? t k v h)

/-- Rewriting a used entry keeps the canonical form. -/
theorem wf_set_used (t : Table α) (room k : Nat) (v w : α) (h : t.wf room = true) (hk : t.get? k = some w) :
    (t.set k v).wf room = true :=
  wf_set t room k v h (((wf_iff t room).mp h).2 k (mem_ids_of_get? t k w hk))

theorem wf_modify (t : Table α) (room k : Nat) (f : α → α) (h : t.wf room = true) : (t.modify k f).wf room = true := by
  unfold Table.modify
  split
  · exact h
  · exact wf_set_used t room k _ _ h (by assumption)

@[simp] theorem ids_map (t : Table α) (f : Nat → α → α) : (t.map f).ids = t.ids := by
  simp [Table.map, Table.ids, Function.comp_def]

theorem wf_map (t : Table α) (room : Nat) (f : Nat → α → α) (h : t.wf room = true) : (t.map f).wf room = true := by
  rw [wf_iff] at *; simpa using h

theorem wf_erase (t : Table α) (room k : Nat) (h : t.wf room = true) : (t.erase k).wf room = true := by
  rw [wf_iff] at *
  have hs : (t.erase k).ids.Sublist t.ids := List.Sublist.map Prod.fst List.filter_sublist
  exact ⟨h.1.sublist hs, fun j hj => h.2 j (hs.subset hj)⟩

theorem wf_empty (room : Nat) : (⟨[]⟩ : Table α).wf room = true := rfl

/-- The lowest unused id lies below the bound it was sought under, and is unused. -/
theorem firstFree_spec (t : Table α) (room k : Nat) (h : t.firstFree room = some k) : k < room ∧ t.get? k = none := by
  have hm := List.mem_of_find?_eq_some h
  have hp := List.find?_some h
  simp only [List.mem_range] at hm
  exact ⟨hm, by simpa [Table.has] using hp⟩

/-- The ids that pass a test are ids of the table. -/
theorem idsWhere_subset (t : Table α) (f : Nat → α → Bool) : t.idsWhere f ⊆ t.ids := by
  intro k hk
  simp only [Table.idsWhere, List.mem_map, List.mem_filter] at hk
  obtain ⟨e, ⟨he, _⟩, rfl⟩ := hk
  exact List.mem_map_of_mem he

end Sys2Proof.Laws
end

