-- ==== Sys2Proof/Laws/Moves.lean ====
section
/-!
SUPPORT. What every operation of the blocks leaves alone: the clock stands, the link only takes notices, the tables keep
their canonical form, the lines stay in their ranges. One lemma for each shared operation, in the form that lets them be
chained.
-/

namespace Sys2Proof.Laws

open Sys2Proof.Machine

/-- A part and the same part after block operations. -/
structure Moves (p q : Part) : Prop where
  clock : q.clock = p.clock
  link : Grows p.link q.link
  tables : p.tablesOk → q.tablesOk
  lines : p.lines.inRange → q.lines.inRange

theorem Moves.refl (p : Part) : Moves p p := ⟨rfl, .refl _, id, id⟩

theorem Moves.trans {p q r : Part} (h : Moves p q) (k : Moves q r) : Moves p r :=
  ⟨k.clock.trans h.clock, h.link.trans k.link, k.tables ∘ h.tables, k.lines ∘ h.lines⟩

section
variable {p q : Part} (h : Moves p q)
include h

/-! ### Updates of one field -/

theorem m_place (n : Notice) : Moves p (place n q) := ⟨h.clock, .place _ _ h.link, h.tables, h.lines⟩

theorem m_trace (t : Trace) : Moves p { q with trace := t } := ⟨h.clock, h.link, h.tables, h.lines⟩

theorem m_onLine (n : Nat) (f : Line → Line) (hf : (q.line n).inRange → (f (q.line n)).inRange) :
    Moves p (q.onLine n f) := by
  refine ⟨h.clock, h.link, h.tables, fun hl => ?_⟩
  obtain ⟨h0, h1, h2, h3⟩ := h.lines hl
  match n with
  | 0 => exact ⟨hf h0, h1, h2, h3⟩
  | 1 => exact ⟨h0, hf h1, h2, h3⟩
  | 2 => exact ⟨h0, h1, hf h2, h3⟩
  | _ + 3 => exact ⟨h0, h1, h2, hf h3⟩

theorem m_outstations (t : Table Outstation) (ht : q.outstations.wf 64 = true → t.wf 64 = true) :
    Moves p { q with outstations := t } :=
  ⟨h.clock, h.link, fun hp => by obtain ⟨a, b⟩ := h.tables hp; exact ⟨ht a, b⟩, h.lines⟩

theorem m_points (t : Table Point) (ht : q.points.wf 256 = true → t.wf 256 = true) :
    Moves p { q with points := t } :=
  ⟨h.clock, h.link, fun hp => by obtain ⟨a, b, c⟩ := h.tables hp; exact ⟨a, ht b, c⟩, h.lines⟩

theorem m_segments (t : Table Segment) (ht : q.segments.wf 512 = true → t.wf 512 = true) :
    Moves p { q with segments := t } :=
  ⟨h.clock, h.link, fun hp => by obtain ⟨a, b, c, d⟩ := h.tables hp; exact ⟨a, b, ht c, d⟩, h.lines⟩

theorem m_valves (t : Table Valve) (ht : q.valves.wf 768 = true → t.wf 768 = true) :
    Moves p { q with valves := t } :=
  ⟨h.clock, h.link, fun hp => by obtain ⟨a, b, c, d, e⟩ := h.tables hp; exact ⟨a, b, c, ht d, e⟩, h.lines⟩

theorem m_feeds (t : Table Feed) (ht : q.feeds.wf 64 = true → t.wf 64 = true) : Moves p { q with feeds := t } :=
  ⟨h.clock, h.link, fun hp => by obtain ⟨a, b, c, d, e, f⟩ := h.tables hp; exact ⟨a, b, c, d, ht e, f⟩, h.lines⟩

theorem m_districts (t : Table District) (ht : q.districts.wf 32 = true → t.wf 32 = true) :
    Moves p { q with districts := t } :=
  ⟨h.clock, h.link, fun hp => by obtain ⟨a, b, c, d, e, f, g⟩ := h.tables hp; exact ⟨a, b, c, d, e, ht f, g⟩, h.lines⟩

theorem m_plans (t : Table Plan) (ht : q.plans.wf 16 = true → t.wf 16 = true) : Moves p { q with plans := t } :=
  ⟨h.clock, h.link, fun hp => by
    obtain ⟨a, b, c, d, e, f, g, i⟩ := h.tables hp; exact ⟨a, b, c, d, e, f, ht g, i⟩, h.lines⟩

theorem m_register (r : Register) (hc : q.register.calls.wf 256 = true → r.calls.wf 256 = true)
    (hi : q.register.incidents.wf 128 = true → r.incidents.wf 128 = true) : Moves p { q with register := r } :=
  ⟨h.clock, h.link, fun hp => by
    obtain ⟨a, b, c, d, e, f, g, i, j, k⟩ := h.tables hp; exact ⟨a, b, c, d, e, f, g, hc i, hi j, k⟩, h.lines⟩

theorem m_dispatch (d : Dispatch) (ht : q.dispatch.crews.wf 48 = true → d.crews.wf 48 = true) :
    Moves p { q with dispatch := d } :=
  ⟨h.clock, h.link, fun hp => by
    obtain ⟨a, b, c, d, e, f, g, i, j, k, l⟩ := h.tables hp; exact ⟨a, b, c, d, e, f, g, i, j, ht k, l⟩, h.lines⟩

theorem m_outages (t : Table Outage) (ht : q.outages.wf 64 = true → t.wf 64 = true) :
    Moves p { q with outages := t } :=
  ⟨h.clock, h.link, fun hp => by
    obtain ⟨a, b, c, d, e, f, g, i, j, k, l, m⟩ := h.tables hp; exact ⟨a, b, c, d, e, f, g, i, j, k, ht l, m⟩, h.lines⟩

theorem m_panel (v : Panel) (ht : q.panel.forces.wf 36 = true → v.forces.wf 36 = true) :
    Moves p { q with panel := v } :=
  ⟨h.clock, h.link, fun hp => by
    obtain ⟨a, b, c, d, e, f, g, i, j, k, l, m⟩ := h.tables hp; exact ⟨a, b, c, d, e, f, g, i, j, k, l, ht m⟩, h.lines⟩

theorem m_onSegment (i : Nat) (f : Segment → Segment) : Moves p (q.onSegment i f) := m_segments h _ (wf_modify _ _ _ _)
theorem m_onValve (i : Nat) (f : Valve → Valve) : Moves p (q.onValve i f) := m_valves h _ (wf_modify _ _ _ _)
theorem m_onDistrict (i : Nat) (f : District → District) : Moves p (q.onDistrict i f) :=
  m_districts h _ (wf_modify _ _ _ _)
theorem m_onOutstation (i : Nat) (f : Outstation → Outstation) : Moves p (q.onOutstation i f) :=
  m_outstations h _ (wf_modify _ _ _ _)
theorem m_onCrew (i : Nat) (f : Crew → Crew) : Moves p (q.onCrew i f) := m_dispatch h _ (wf_modify _ _ _ _)
theorem m_onPlan (i : Nat) (f : Plan → Plan) : Moves p (q.onPlan i f) := m_plans h _ (wf_modify _ _ _ _)
theorem m_refreshLamps : Moves p (refreshLamps q) := m_panel h _ id

theorem m_putIncident (i : Nat) (x : Incident) (hi : i < 128 ∨ ∃ y, q.incident? i = some y) :
    Moves p (putIncident i x q) := by
  refine m_refreshLamps (m_register h _ id fun hw => ?_)
  rcases hi with hi | ⟨y, hy⟩
  · exact wf_set _ _ _ _ hw hi
  · exact wf_set_used _ _ _ _ _ hw hy

theorem m_putOutage (i : Nat) (x : Outage) (hi : i < 64 ∨ ∃ y, q.outages.get? i = some y) :
    Moves p (putOutage i x q) := by
  refine m_refreshLamps (m_outages h _ fun hw => ?_)
  rcases hi with hi | ⟨y, hy⟩
  · exact wf_set _ _ _ _ hw hi
  · exact wf_set_used _ _ _ _ _ hw hy

theorem m_putPoint (i : Nat) (x y : Point) (hi : q.points.get? i = some y) : Moves p (putPoint i x q) :=
  m_points h _ fun hw => wf_set_used _ _ _ _ _ hw hi

/-- A run of operations over a list. -/
theorem m_foldl {α : Type} (f : Part → α → Part) (hf : ∀ q a, Moves q (f q a)) (as : List α) :
    Moves p (as.foldl f q) := by
  induction as generalizing q with
  | nil => exact h
  | cons a as ih => exact ih (h.trans (hf q a))

end

/-- A run of operations over a list, with something beside the part carried along. -/
theorem m_foldlWith {α γ : Type} (f : Part × γ → α → Part × γ) (hf : ∀ x a, Moves x.1 (f x a).1) (as : List α)
    {p : Part} (x : Part × γ) (h : Moves p x.1) : Moves p (as.foldl f x).1 := by
  induction as generalizing x with
  | nil => exact h
  | cons a as ih => exact ih _ (h.trans (hf x a))

/-- An operation after an operation. -/
theorem Moves.then {p q : Part} (h : Moves p q) {f : Part → Part} (hf : ∀ q, Moves q (f q)) : Moves p (f q) :=
  h.trans (hf q)

/-- The two parts of a record that a link names. -/
theorem bind_pair {α β : Type} {o : Option α} {g : α → Option β} {i : α} {x : β}
    (h : (o.bind fun i => (g i).map fun x => (i, x)) = some (i, x)) : o = some i ∧ g i = some x := by
  rcases o with _ | j
  · simp at h
  · rcases hj : g j with _ | y
    · simp [hj] at h
    · simp only [Option.bind_some, hj, Option.map_some, Option.some.injEq, Prod.mk.injEq] at h
      obtain ⟨rfl, rfl⟩ := h; exact ⟨rfl, hj⟩

/-! ### Marks and supply-pending (R79, R85) -/

theorem m_markSegment (i : Nat) (p : Part) : Moves p (markSegment i p) := by
  unfold markSegment
  split
  · exact .refl p
  · rename_i seg hs
    split
    · exact .refl p
    · have h := m_segments (.refl p) (p.segments.set i { seg with changed := true }) (fun hw => wf_set_used _ _ _ _ _ hw hs)
      dsimp only
      split
      · exact m_place h _
      · exact h

theorem m_markSegments (is : List Nat) (p : Part) : Moves p (markSegments is p) :=
  m_foldl (.refl p) _ (fun q i => m_markSegment i q) _

theorem m_raise (c : Cause) (p : Part) : Moves p (raise c p) := by
  unfold raise; split
  · exact .refl p
  · exact m_trace (.refl p) _

/-! ### Field lines (02) -/

theorem commandDue_run (l : Line) (h : l.commandDue = true) : l.run < 4 := by
  exact of_decide_eq_true (Bool.and_eq_true _ _ ▸ h : _ ∧ _).2

theorem m_sendPoll (n os : Nat) (p : Part) : Moves p (sendPoll n os p) :=
  m_onLine (.refl p) _ _ fun h => ⟨h.1, Nat.zero_le _, h.2.2⟩

/-- The head command is sent; a run with room stays in its range (R30). -/
theorem m_sendCommand (n : Nat) (p : Part) (hd : (p.line n).commandDue = true) : Moves p (sendCommand n p) := by
  unfold sendCommand
  have hr := commandDue_run _ hd
  split
  · exact .refl p
  · rename_i c rest hq
    have key : ∀ q : Part, q.lines = p.lines → Moves p q → ∀ (bit : Option Bool) (ph : LinePhase),
        Moves p (q.onLine n fun l =>
          { l with queue := { c with bit := bit } :: rest, run := l.run + 1, phase := ph }) := by
      intro q hl hm bit ph
      refine m_onLine hm _ _ fun h => ?_
      have hl' : q.line n = p.line n := by simp [Part.line, hl]
      rw [hl'] at h ⊢
      obtain ⟨h1, _, h3⟩ := h
      refine ⟨?_, ?_, h3⟩
      · rw [hq] at h1; simpa using h1
      · simp only [maxRun]; omega
    dsimp only
    split
    · exact m_onLine (m_onOutstation (.refl p) _ _) _ _ fun h => by
        have hl' : (p.onOutstation c.outstation fun o => { o with seqBit := c.bit.getD !((p.outstations.get? c.outstation).map (·.seqBit)).getD true }).line n = p.line n := rfl
        rw [hl'] at h ⊢
        refine ⟨by have := h.1; rw [hq] at this; simpa using this, ?_, h.2.2⟩
        simp only [maxRun]; omega
    · exact m_onLine (.refl p) _ _ fun h => by
        refine ⟨by have := h.1; rw [hq] at this; simpa using this, ?_, h.2.2⟩
        simp only [maxRun]; omega

theorem m_restLine (n : Nat) (p : Part) : Moves p (restLine n p) := m_onLine (.refl p) _ _ fun h => ⟨h.1, h.2.1, h.2.2⟩

theorem m_waitForPeriod (n : Nat) (p : Part) : Moves p (waitForPeriod n p) :=
  m_onLine (.refl p) _ _ fun h => ⟨h.1, h.2.1, h.2.2⟩

theorem m_startCycle (n number : Nat) (p : Part) (hn : number < 8) : Moves p (startCycle n number p) := by
  have h : Moves p (openCycle n number p) := m_onLine (.refl p) _ _ fun h => ⟨h.1, h.2.1, hn⟩
  unfold startCycle
  dsimp only; split
  · exact h.trans (m_waitForPeriod _ _)
  · exact h

theorem m_pollsEnd (n : Nat) (p : Part) : Moves p (pollsEnd n p) := by
  unfold pollsEnd
  split
  · split
    · exact m_startCycle _ _ _ (Nat.mod_lt _ (by decide))
    · exact m_waitForPeriod _ _
  · exact .refl p

theorem m_takeTurn (n : Nat) (p : Part) : Moves p (takeTurn n p) := by
  unfold takeTurn
  dsimp only
  split
  · split
    · exact m_sendCommand n p (by assumption)
    · split
      · exact m_sendPoll _ _ _
      · exact m_restLine _ _
  · split
    · exact m_sendCommand n p (by assumption)
    · exact m_restLine _ _
  all_goals exact m_restLine _ _

theorem m_chooseTransaction (n : Nat) (p : Part) : Moves p (chooseTransaction n p) := by
  unfold chooseTransaction
  split
  · exact m_takeTurn _ _
  · exact (m_pollsEnd _ _).trans (m_takeTurn _ _)

theorem m_startLine (n : Nat) (p : Part) : Moves p (startLine n p) := by
  unfold startLine
  split
  · exact m_onLine (.refl p) _ _ fun h => ⟨h.1, h.2.1, h.2.2⟩
  · have h := m_startCycle n 0 p (by decide)
    dsimp only; split
    · exact h.trans (m_takeTurn _ _)
    · exact h

theorem m_wakeLine (n : Nat) (p : Part) : Moves p (wakeLine n p) := by
  unfold wakeLine
  dsimp only
  split
  · rename_i h; simp at h; exact m_sendCommand n p h.2
  · exact .refl p

/-- A replaced STOP leaves the queue as long as it was (R31). -/
theorem replaceStop_length (c : Command) (qs rest : List Command) (h : replaceStop c qs = some rest) :
    rest.length = qs.length := by
  induction qs generalizing rest with
  | nil => simp [replaceStop] at h
  | cons q qs ih =>
    simp only [replaceStop] at h
    split at h
    · cases h; simp
    · rcases hr : replaceStop c qs with _ | r
      · simp [hr] at h
      · simp [hr] at h; subst h; simp [ih r hr]

theorem m_offerCommand (c : Command) (p : Part) : Moves p (offerCommand c p).1 := by
  unfold offerCommand
  dsimp only
  split
  · exact .refl p
  · split
    · rename_i rest hr
      refine (m_onLine (.refl p) _ _ fun h => ?_).trans (m_wakeLine _ _)
      refine ⟨?_, h.2.1, h.2.2⟩
      have := replaceStop_length _ _ _ hr
      have h1 := h.1
      simp only [List.length_append, List.length_take, this, List.length_drop]
      omega
    · split
      · exact .refl p
      · split
        · exact .refl p
        · rename_i hlt
          refine (m_onLine (.refl p) _ _ fun h => ?_).trans (m_wakeLine _ _)
          refine ⟨?_, h.2.1, h.2.2⟩
          simp only [List.length_append, List.length_singleton]; omega

theorem m_offerStop (v : Nat) (p : Part) : Moves p (offerStop v p) := by
  unfold offerStop; split
  · exact .refl p
  · exact m_offerCommand _ _

theorem m_withdrawCommand (v : Nat) (p : Part) : Moves p (withdrawCommand v p) := by
  unfold withdrawCommand; split
  · exact .refl p
  · refine m_onLine (.refl p) _ _ fun h => ⟨?_, h.2.1, h.2.2⟩
    have h1 := h.1
    refine le_trans ?_ h1
    simp only [List.length_append, List.length_map]
    refine le_trans (Nat.add_le_add_left (List.length_filter_le _ _) _) ?_
    rw [← List.length_append, List.take_append_drop]

theorem m_popCommand (n : Nat) (p : Part) : Moves p (popCommand n p) :=
  m_onLine (.refl p) _ _ fun h => ⟨le_trans (by simp) h.1, h.2.1, h.2.2⟩

/-! ### The dispatch arbiter (08) -/

theorem m_endJob (j : Job) (p : Part) : Moves p (endJob j p) := by
  unfold endJob; split
  · exact .refl p
  · split
    · exact m_place (m_onCrew (.refl p) _ _) _
    · exact m_onCrew (.refl p) _ _

theorem m_makeOffer (j : Job) (c : Nat) (p : Part) : Moves p (makeOffer j c p) := by
  unfold makeOffer
  exact m_place (m_onCrew (m_dispatch (.refl p)
    { p.dispatch with
      levels := ⟨p.levelAfter j.cls .leak, p.levelAfter j.cls .valve, p.levelAfter j.cls .relight⟩ } id) _ _) _

theorem m_decideLoop (n : Nat) (p : Part) : Moves p (decideLoop n p) := by
  induction n generalizing p with
  | zero => exact .refl p
  | succ n ih =>
    unfold decideLoop; split
    · exact .refl p
    · split
      · exact .refl p
      · exact (m_makeOffer _ _ _).trans (ih _)

theorem m_dispatchDecide (p : Part) : Moves p (dispatchDecide p) := by
  unfold dispatchDecide; split
  · exact m_decideLoop _ _
  · exact .refl p

/-! ### Incidents (07) -/

theorem m_setIncidentState (i : Nat) (st : IncidentState) (c : IncidentCause) (p : Part) :
    Moves p (setIncidentState i st c p) := by
  unfold setIncidentState; split
  · exact .refl p
  · exact m_place (m_putIncident (.refl p) _ _ (.inr ⟨_, by assumption⟩)) _

theorem m_makeSafe (i : Nat) (c : IncidentCause) (p : Part) : Moves p (makeSafe i c p) := by
  unfold makeSafe; split
  · exact .refl p
  · dsimp only; split
    · exact (m_setIncidentState _ _ _ _).trans (m_endJob _ _)
    · exact m_setIncidentState _ _ _ _

theorem m_escalateAt (i t : Nat) (p : Part) : Moves p (escalateAt i t p) := by
  unfold escalateAt; split
  · exact .refl p
  · exact m_place (m_putIncident (.refl p) _ _ (.inr ⟨_, by assumption⟩)) _

theorem m_followDeadline (i old : Nat) (p : Part) : Moves p (followDeadline i old p) := by
  unfold followDeadline; split
  · exact .refl p
  · split
    · split
      · exact m_putIncident (.refl p) _ _ (.inr ⟨_, by assumption⟩)
      · exact m_escalateAt _ _ _
    · exact .refl p

theorem m_raiseGrade (i : Nat) (g : Grade) (c : UpgradeCause) (pt : Option Nat) (p : Part) :
    Moves p (raiseGrade i g c pt p) := by
  unfold raiseGrade; split
  · exact .refl p
  · exact (m_place (m_putIncident (.refl p) _ _ (.inr ⟨_, by assumption⟩)) _).trans (m_followDeadline _ _ _)

theorem m_bringForward (i : Nat) (p : Part) : Moves p (bringForward i p) := by
  unfold bringForward; split
  · exact .refl p
  · split
    · exact .refl p
    · exact (m_putIncident (.refl p) _ _ (.inr ⟨_, by assumption⟩)).trans (m_followDeadline _ _ _)

theorem m_pressureConfirm (s pt : Nat) (p : Part) : Moves p (pressureConfirm s pt p) := by
  unfold pressureConfirm; split
  · exact .refl p
  · exact m_raiseGrade _ _ _ _ _

/-! ### Plans and valve operations (06) -/

theorem m_setPlanState (i : Nat) (st : PlanState) (v : Option Nat) (p : Part) : Moves p (setPlanState i st v p) := by
  unfold setPlanState; split
  · exact .refl p
  · exact m_place (m_plans (.refl p) _ fun hw => wf_set_used _ _ _ _ _ hw (by assumption)) _

theorem m_freePlan (i : Nat) (p : Part) : Moves p (freePlan i p) := by
  unfold freePlan; split
  · exact .refl p
  · rename_i q hq
    have h := m_place (m_plans (.refl p) (p.plans.erase i) (wf_erase _ _ _))
      (.planState i q.state .free q.target q.incident q.failure none)
    dsimp only
    split
    · rename_i j inc hb
      split
      · exact m_putIncident h _ _ (.inr ⟨inc, (bind_pair hb).2⟩)
      · exact h
    · exact h

theorem m_snoop (vs : List Nat) (e : Option Nat) (p : Part) : Moves p (snoop vs e p) := by
  unfold snoop
  refine m_foldl ?_ _ (fun q i => m_setPlanState i _ _ q) _
  split
  · exact m_trace (.refl p) _
  · exact .refl p
  · exact .refl p

theorem m_setOpState (v : Nat) (st : OpState) (e : Option Nat) (p : Part) : Moves p (setOpState v st e p) :=
  m_onValve (.refl p) _ _

theorem m_finishOp (v : Nat) (p : Part) : Moves p (finishOp v p) := by
  unfold finishOp; split
  · exact .refl p
  · dsimp only; split
    · exact (m_place (m_setOpState _ _ _ _) _).trans (m_endJob _ _)
    · exact m_place (m_setOpState _ _ _ _) _

theorem m_failOp (v : Nat) (r : OpFailure) (p : Part) : Moves p (failOp v r p) := by
  unfold failOp; split
  · exact .refl p
  · dsimp only; split
    · exact (m_place (m_setOpState _ _ _ _) _).trans (m_endJob _ _)
    · exact m_place (m_setOpState _ _ _ _) _

theorem m_cancelOp (v : Nat) (p : Part) : Moves p (cancelOp v p) := by
  unfold cancelOp; split
  · exact .refl p
  · split
    · dsimp only; split
      · exact (m_failOp _ _ _).trans (m_withdrawCommand _ _)
      · exact (m_failOp _ _ _).trans (m_offerStop _ _)
      · exact m_failOp _ _ _
    · exact .refl p

theorem m_orderOp (v : Nat) (a : Action) (o : Origin) (p : Part) : Moves p (orderOp v a o p) := by
  unfold orderOp; split
  · exact .refl p
  · dsimp only; split
    · exact m_onValve (.refl p) _ _
    · split
      · exact ((m_onValve (.refl p) _ _).trans (m_offerCommand _ _)).trans (m_failOp _ _ _)
      · exact (m_onValve (.refl p) _ _).trans (m_offerCommand _ _)

theorem m_cancelPending (i : Nat) (p : Part) : Moves p (cancelPending i p) := by
  unfold cancelPending; split
  · exact .refl p
  · split
    · exact m_foldl (.refl p) _ (fun q v => m_cancelOp v q) _
    · exact .refl p

theorem m_enterIsolated (i : Nat) (p : Part) : Moves p (enterIsolated i p) := by
  unfold enterIsolated; split
  · exact .refl p
  · dsimp only; split
    · split
      · exact (m_setPlanState _ _ _ _).trans (m_makeSafe _ _ _)
      · exact m_setPlanState _ _ _ _
    · exact m_setPlanState _ _ _ _

theorem m_isolationTest (i : Nat) (p : Part) : Moves p (isolationTest i p) := by
  unfold isolationTest; split
  · exact .refl p
  · split
    · exact m_enterIsolated _ _
    · exact .refl p

theorem m_failureTest (i : Nat) (t : Touched) (p : Part) : Moves p (failureTest i t p) := by
  unfold failureTest; split
  · split
    · exact m_setPlanState _ _ _ _
    · exact .refl p
  · exact .refl p

theorem m_breakTest (i v : Nat) (p : Part) : Moves p (breakTest i v p) := by
  unfold breakTest; split
  · exact .refl p
  · split
    · exact m_setPlanState _ _ _ _
    · exact .refl p

theorem m_leaveReleaseOf (i v : Nat) (p : Part) : Moves p (leaveReleaseOf i v p) := by
  unfold leaveReleaseOf; split
  · exact .refl p
  · split
    · dsimp only; split
      · exact (m_onPlan (.refl p) _ _).trans (m_freePlan _ _)
      · exact m_onPlan (.refl p) _ _
    · exact .refl p

theorem m_leaveReleases (v : Nat) (e : Option Nat) (p : Part) : Moves p (leaveReleases v e p) :=
  m_foldl (.refl p) _ (fun q i => m_leaveReleaseOf i v q) _

theorem m_testPlan (i : Nat) (t : Touched) (p : Part) : Moves p (testPlan i t p) :=
  (((m_breakTest _ _ _).trans (m_cancelPending _ _)).trans (m_failureTest _ _ _)).trans (m_isolationTest _ _)

theorem m_courseOf (t : Touched) (p : Part) : Moves p (courseOf t p) := by
  unfold courseOf
  refine m_foldl ?_ _ (fun q i => m_testPlan i t q) _
  split
  · split
    · exact m_leaveReleaseOf _ _ _
    · exact .refl p
  · exact .refl p

theorem m_planCourse (ts : List Touched) (p : Part) : Moves p (planCourse ts p) :=
  m_foldl (.refl p) _ (fun q t => m_courseOf t q) _

end Sys2Proof.Laws
end

