-- ==== Sys2Proof/Laws/MovesField.lean ====
section
/-!
SUPPORT. What the operations of valves, points, field transactions and outages leave alone, continued from
`Sys2Proof.Laws.Moves`.
-/

namespace Sys2Proof.Laws

open Sys2Proof.Machine

/-! ### Valve positions (04) -/

theorem m_writePosition (v : Nat) (pos : Position) (r : Option End) (p : Part) :
    Moves p (writePosition v pos r p).1 := by
  unfold writePosition; split
  · exact .refl p
  · rename_i valve hv
    have h := m_valves (.refl p) (p.valves.set v { valve with position := pos, lastEnd := r.getD valve.lastEnd })
      (fun hw => wf_set_used _ _ _ _ _ hw hv)
    dsimp only; split
    · exact h
    · exact h.trans (m_raise _ _)

theorem m_opSlotReport (v : Nat) (s : SlotStatus) (p : Part) : Moves p (opSlotReport v s p).1 := by
  unfold opSlotReport; split
  · exact .refl p
  · dsimp only; split
    · split
      · split
        · exact m_finishOp _ _
        · split
          · exact (m_failOp _ _ _).trans (m_offerStop _ _)
          · exact .refl p
      · exact .refl p
    · split
      · exact m_finishOp _ _
      · exact .refl p

theorem m_takeSlots (rs : List (Nat × SlotStatus)) (p : Part) : Moves p (takeSlots rs p).1 := by
  unfold takeSlots writeSlots reportSlots
  refine m_foldlWith _ (fun x r => ?_) rs (_, []) (Moves.trans (m_foldlWith _ (fun x r => ?_) rs (p, []) (.refl p)) (m_snoop _ _ _))
  · exact m_opSlotReport _ _ _
  · exact m_writePosition _ _ _ _

theorem m_opEndReport (v : Nat) (e : End) (p : Part) : Moves p (opEndReport v e p) := by
  unfold opEndReport; split
  · exact .refl p
  · split
    · exact m_finishOp _ _
    · exact .refl p

theorem m_opSeizedReport (v : Nat) (p : Part) : Moves p (opSeizedReport v p).1 := by
  unfold opSeizedReport; split
  · exact .refl p
  · split
    · exact m_failOp _ _ _
    · exact .refl p

theorem m_changeInoperable (v : Nat) (b : Bool) (c : Cause) (p : Part) : Moves p (changeInoperable v b c p) := by
  unfold changeInoperable; split
  · exact .refl p
  · rename_i valve hv
    split
    · exact .refl p
    · have h := m_valves (.refl p) (p.valves.set v { valve with inoperable := b })
        (fun hw => wf_set_used _ _ _ _ _ hw hv)
      exact ((h.trans (m_markSegments _ _)).trans (m_raise _ _)).trans (m_snoop _ _ _)

theorem m_losePositions (os : Nat) (p : Part) : Moves p (losePositions os p) :=
  m_valves (.refl p) _ (wf_map _ _ _)

theorem m_failField (v : Nat) (p : Part) : Moves p (failField v p).1 := by
  unfold failField; split
  · exact .refl p
  · split
    · exact m_failOp _ _ _
    · exact .refl p

theorem m_failFields (vs : List Nat) (p : Part) : Moves p (failFields vs p).1 := by
  unfold failFields
  refine m_foldlWith _ (fun x v => ?_) vs (p, []) (.refl p)
  obtain ⟨q, ts⟩ := x
  exact m_failField v q

theorem m_opAccepted (v : Nat) (p : Part) : Moves p (opAccepted v p) := by
  unfold opAccepted; split
  · split
    · exact m_setOpState _ _ _ _
    · exact .refl p
  · exact .refl p

theorem m_opRejected (v : Nat) (p : Part) : Moves p (opRejected v p).1 := by
  unfold opRejected; split
  · exact .refl p
  · split
    · exact m_failOp _ _ _
    · exact .refl p

/-! ### Points (03) -/

theorem m_enterBand (i : Nat) (pt y : Point) (b : Band) (st : PressureState) (c : BandCause) (p : Part)
    (hi : p.points.get? i = some y) : Moves p (enterBand i pt b st c p) :=
  m_refreshLamps (m_place (m_putPoint (.refl p) _ _ _ hi) _)

theorem m_deliverPoint (d : ReplyData) (i : Nat) (x : Part × HandOn) : Moves x.1 (deliverPoint d i x).1 := by
  obtain ⟨p, hd⟩ := x
  unfold deliverPoint
  dsimp only
  split
  · exact .refl p
  · rename_i pt hp
    split
    · split
      · exact .refl p
      · dsimp only; split
        · exact m_putPoint (.refl p) _ _ _ hp
        · exact m_enterBand _ _ _ _ _ _ _ hp
    · split
      · exact m_putPoint (.refl p) _ _ _ hp
      · exact m_place (m_putPoint (.refl p) _ _ _ hp) _

theorem m_writePressure (s : Nat) (p : Part) : Moves p (writePressure s p).1 := by
  unfold writePressure; split
  · exact .refl p
  · rename_i seg hs
    dsimp only; split
    · exact .refl p
    · exact m_segments (.refl p) _ (fun hw => wf_set_used _ _ _ _ _ hw hs)

theorem m_writePressures (ss : List Nat) (p : Part) : Moves p (writePressures ss p).1 := by
  unfold writePressures
  refine m_foldlWith _ (fun x s => ?_) ss (p, []) (.refl p)
  obtain ⟨q, cs⟩ := x
  exact m_writePressure s q

theorem m_writeLiveness (f : Nat) (p : Part) : Moves p (writeLiveness f p) := by
  unfold writeLiveness; split
  · exact .refl p
  · rename_i fd hf
    dsimp only; split
    · exact .refl p
    · exact (m_feeds (.refl p) _ (fun hw => wf_set_used _ _ _ _ _ hw hf)).trans (m_raise _ _)

theorem m_handOn (ss : List Nat) (hd : HandOn) (p : Part) : Moves p (handOn ss hd p) := by
  unfold handOn
  dsimp only
  refine m_foldl ?_ _ (fun q (c : Nat × Nat) => m_pressureConfirm c.2 c.1 q) _
  refine m_foldl ?_ _ (fun q f => m_writeLiveness f q) _
  exact (m_writePressures ss p).trans (m_markSegments _ _)

theorem m_deliverPoints (os : Nat) (d : ReplyData) (p : Part) : Moves p (deliverPoints os d p) := by
  unfold deliverPoints
  exact (m_foldlWith _ (fun x i => m_deliverPoint d i x) _ (p, {}) (.refl p)).trans (m_handOn _ _ _)

theorem m_losePoints (os : Nat) (p : Part) : Moves p (losePoints os p).1 :=
  (m_points (.refl p) _ (wf_map _ _ _)).trans (m_writePressures _ _)

theorem m_rideThroughEnds (i : Nat) (p : Part) : Moves p (rideThroughEnds i p) := by
  unfold rideThroughEnds; split
  · exact .refl p
  · rename_i pt hp
    split
    · exact .refl p
    · split
      · exact .refl p
      · split
        · exact (m_enterBand _ _ _ _ _ _ _ hp).trans (m_handOn _ _ _)
        · exact .refl p

/-! ### Field transactions (02) -/

theorem m_setComm (os : Nat) (f : Outstation → Outstation) (c : CommCause) (p : Part) : Moves p (setComm os f c p) := by
  unfold setComm; split
  · exact .refl p
  · rename_i o ho
    have h := m_outstations (.refl p) (p.outstations.set os (f o)) (fun hw => wf_set_used _ _ _ _ _ hw ho)
    dsimp only; split
    · exact h
    · exact m_place h _

/-- A queue with commands filtered out stays in its range. -/
theorem m_filterQueue (n : Nat) (f : Command → Bool) (p : Part) :
    Moves p (p.onLine n fun l => { l with queue := l.queue.filter f }) :=
  m_onLine (.refl p) _ _ fun h => ⟨le_trans (List.length_filter_le _ _) h.1, h.2.1, h.2.2⟩

theorem m_loseOutstation (os : Nat) (b : Bool) (p : Part) : Moves p (loseOutstation os b p).1 := by
  unfold loseOutstation
  dsimp only
  have h := ((m_filterQueue (lineOf os) (fun c => c.outstation != os) p).trans
    (m_failFields (reportedValves ((p.line (lineOf os)).queue.filter fun c => c.outstation = os)) _)).trans
    (m_losePoints os _)
  split
  · exact ((h.trans (m_markSegments _ _)).trans (m_losePositions _ _)).trans (m_failFields _ _)
  · exact (h.trans (m_losePositions _ _)).trans (m_failFields _ _)

theorem m_outstationOffline (os : Nat) (p : Part) : Moves p (outstationOffline os p) := by
  have h := m_loseOutstation os true p
  unfold outstationOffline
  rcases hl : loseOutstation os true p with ⟨q, ts, cs⟩
  rw [hl] at h
  exact h.trans (m_planCourse ts q)

theorem m_countFailure (os : Nat) (p : Part) : Moves p (countFailure os p) := by
  unfold countFailure
  dsimp only; split
  · exact (m_setComm _ _ _ _).trans (m_outstationOffline _ _)
  · exact m_setComm _ _ _ _

theorem m_countGood (os : Nat) (p : Part) : Moves p (countGood os p) := m_setComm _ _ _ _

theorem m_countBusy (os : Nat) (p : Part) : Moves p (countBusy os p) := by
  unfold countBusy; split
  · exact .refl p
  · split
    · exact m_onOutstation (.refl p) _ _
    · exact (m_onOutstation (.refl p) _ _).trans (m_countFailure _ _)

theorem m_countNoAnswer (os : Nat) (p : Part) : Moves p (countNoAnswer os p) :=
  (m_onOutstation (.refl p) _ _).trans (m_countFailure _ _)

theorem m_dataReply (os : Nat) (d : ReplyData) (p : Part) : Moves p (dataReply os d p) := by
  have h := (m_countGood os p).trans (m_deliverPoints os d _)
  unfold dataReply
  dsimp only; split
  · exact h.trans (m_dispatchDecide _)
  · exact ((h.trans (m_takeSlots _ _)).trans (m_planCourse _ _)).trans (m_dispatchDecide _)

theorem m_commandOutcome (n os : Nat) (c : Command) (o : Outcome) (p : Part) :
    Moves p (commandOutcome n os c o p) := by
  have good := (m_countGood os p).trans (m_popCommand n _)
  have bad : Moves p (countNoAnswer os
      (p.onLine n fun l => { l with queue := { c with noAnswers := c.noAnswers + 1 } :: l.queue.tail })) := by
    refine (m_onLine (.refl p) _ _ fun h => ?_).trans (m_countNoAnswer _ _)
    refine ⟨?_, h.2.1, h.2.2⟩
    have h1 := h.1
    simp only [List.length_cons, List.length_tail, commandRoom] at h1 ⊢; omega
  have gave : Moves p (if c.withdrawn then countNoAnswer os (popCommand n p)
    else
      let p := p.onLine n fun l => { l with queue := { c with noAnswers := c.noAnswers + 1 } :: l.queue.tail }
      let p := countNoAnswer os p
      if c.noAnswers + 1 < 3 || p.isOffline os then p
      else
        let p := popCommand n p
        if c.action = .stop then p
        else let (p, ts) := failField c.valve p; planCourse ts p) := by
    dsimp only
    split
    · exact (m_popCommand _ _).trans (m_countNoAnswer _ _)
    · split
      · exact bad
      · split
        · exact bad.trans (m_popCommand _ _)
        · exact ((bad.trans (m_popCommand _ _)).trans (m_failField _ _)).trans (m_planCourse _ _)
  unfold commandOutcome
  cases o with
  | accept =>
    dsimp only; split
    · split
      · exact good
      · exact good.trans (m_offerStop _ _)
    · split
      · exact good
      · exact good.trans (m_opAccepted _ _)
  | reject =>
    dsimp only; split
    · exact good
    · exact (good.trans (m_opRejected _ _)).trans (m_planCourse _ _)
  | busy =>
    dsimp only; split
    · exact (m_popCommand _ _).trans (m_countBusy _ _)
    · exact m_countBusy _ _
  | noAnswer => exact gave
  | data d => exact gave

theorem m_takeOutcome (n : Nat) (t : Txn) (o : Outcome) (p : Part) : Moves p (takeOutcome n t o p) := by
  unfold takeOutcome
  split
  · split
    · exact .refl p
    · exact m_commandOutcome _ _ _ _ _
  · split
    · exact m_dataReply _ _ _
    · exact m_countBusy _ _
    all_goals exact m_countNoAnswer _ _

/-- The quiet time that begins leaves a line's ranges alone. -/
theorem quieted_inRange (now : Nat) (l : Line) (h : l.inRange) : (l.quieted now).inRange := by
  unfold Line.quieted; split <;> exact ⟨h.1, h.2.1, h.2.2⟩

theorem m_endTransaction (n : Nat) (o : Outcome) (p : Part) : Moves p (endTransaction n o p) := by
  unfold endTransaction; split
  · exact .refl p
  · exact ((m_onLine (.refl p) _ _ (quieted_inRange _ _)).trans (m_takeOutcome _ _ _ _)).trans (m_pollsEnd _ _)

theorem m_fieldByte (n : Nat) (b : Byte) (s : Bool) (p : Part) : Moves p (fieldByte n b s p) := by
  unfold fieldByte; split
  · exact .refl p
  · exact m_onLine (.refl p) _ _ fun h => ⟨h.1, h.2.1, h.2.2⟩
  · exact m_onLine (.refl p) _ _ fun h => ⟨h.1, h.2.1, h.2.2⟩
  · exact m_endTransaction _ _ _

theorem m_enterHeld (n : Nat) (p : Part) : Moves p (enterHeld n p) :=
  m_foldl (.refl p) _ (fun q _ => m_setComm _ _ _ q) _

theorem m_loseHeld (os : Nat) (x : Part × List Touched × List Nat) : Moves x.1 (loseHeld os x).1 := m_loseOutstation _ _ _

theorem m_holdLine (n : Nat) (p : Part) : Moves p (holdLine n p) := by
  unfold holdLine
  dsimp only
  refine Moves.trans ?_ (m_planCourse _ _)
  refine Moves.trans ?_ (m_markSegments _ _)
  refine m_foldlWith _ (fun x os => m_loseHeld os x) _ (_, _, _) ?_
  refine Moves.trans ?_ (m_enterHeld _ _)
  refine Moves.trans (m_onLine (.refl p) _ _ fun h => ?_) (m_failFields _ _)
  exact ⟨Nat.zero_le _, Nat.zero_le _, (quieted_inRange p.clock _ h).2.2⟩

theorem m_freeLine (n : Nat) (p : Part) : Moves p (freeLine n p) := by
  unfold freeLine
  dsimp only
  refine Moves.trans ?_ (m_startLine _ _)
  refine m_foldl ?_ _ (fun q os => m_setComm _ _ _ q) _
  exact m_onLine (.refl p) _ _ fun h => ⟨h.1, h.2.1, h.2.2⟩

/-! ### Outages (09) -/

theorem m_setSupply (i : Nat) (st : SupplyState) (p : Part) : Moves p (setSupply i st p) := m_onSegment (.refl p) _ _

/-- The record that `pickBy` finds is one of the entries. -/
theorem pickBy_mem (f : Nat → Nat → Bool) (es : List (Nat × Nat)) (r : Nat × Nat) (h : pickBy f es = some r) :
    r ∈ es := by
  induction es generalizing r with
  | nil => simp [pickBy] at h
  | cons e es ih =>
    simp only [pickBy] at h
    split at h
    · cases h; simp
    · rename_i x hx
      split at h
      · cases h; exact List.mem_cons_of_mem _ (ih _ hx)
      · cases h; simp

/-- The joiners' record is one of the table's 64 entries. -/
theorem outageFor_spec (p : Part) (c : Cause) (i : Nat) (o : Outage) (j : Bool) (h : p.outageFor c = some (i, o, j)) :
    i < 64 ∨ i ∈ p.outages.ids := by
  unfold Part.outageFor at h
  split at h
  · rename_i k hk; cases h; exact .inl (firstFree_spec _ _ _ hk).1
  · dsimp only at h
    split at h
    · rename_i k _ hk
      cases h
      have := pickBy_mem _ _ _ hk
      simp only [List.mem_filterMap, Option.map_eq_some_iff] at this
      obtain ⟨e, he, t, _, ht⟩ := this
      cases ht
      exact .inr (List.mem_map_of_mem he)
    · split at h
      · cases h
      · rename_i k _ hk
        rcases hg : p.outages.get? k with _ | r
        · simp [hg] at h
        · simp only [hg, Option.map_some, Option.some.injEq, Prod.mk.injEq] at h
          exact .inr (h.1 ▸ mem_ids_of_get? _ _ _ hg)

theorem m_joinSegment (r seg : Nat) (x : Part × Outage) : Moves x.1 (joinSegment r seg x).1 := by
  obtain ⟨p, o⟩ := x
  unfold joinSegment
  dsimp only
  split
  · exact .refl p
  · rename_i s hs
    exact m_segments (m_onDistrict (.refl p) _ _) _ (fun hw => wf_set_used _ _ _ _ _ hw hs)

theorem m_joinOutage (js : List Nat) (c : Cause) (p : Part) : Moves p (joinOutage js c p) := by
  unfold joinOutage; split
  · exact .refl p
  · split
    · exact .refl p
    · rename_i i o j hi
      have h := m_foldlWith (fun acc seg => joinSegment i seg acc) (fun x a => m_joinSegment i a x) js (p, o) (.refl p)
      dsimp only
      refine m_place ?_ _
      refine m_refreshLamps (m_outages h _ fun hw => ?_)
      refine wf_set _ _ _ _ hw ?_
      rcases outageFor_spec _ _ _ _ _ hi with h64 | hm
      · exact h64
      · have ho : ∀ (as : List Nat) (x : Part × Outage),
            (as.foldl (fun acc seg => joinSegment i seg acc) x).1.outages = x.1.outages := by
          intro as
          induction as with
          | nil => intro x; rfl
          | cons a as ih =>
            intro x
            rw [List.foldl_cons, ih]
            unfold joinSegment; dsimp only; split <;> rfl
        rw [ho] at hw
        exact ((wf_iff _ _).mp hw).2 _ hm

theorem m_loseMember (i r : Nat) (p : Part) : Moves p (loseMember i r p) := by
  unfold loseMember; split
  · exact .refl p
  · exact m_putOutage (.refl p) _ _ (.inr ⟨_, by assumption⟩)

theorem m_endOutage (i : Nat) (p : Part) : Moves p (endOutage i p) := by
  unfold endOutage; split
  · exact .refl p
  · exact m_place (m_putOutage (.refl p) _ _ (.inr ⟨_, by assumption⟩)) _

theorem markSegment_outages (i : Nat) (p : Part) : (markSegment i p).outages = p.outages := by
  unfold markSegment
  split
  · rfl
  · split
    · rfl
    · dsimp only; split <;> rfl

theorem m_restoreSegment (seg : Nat) (p : Part) : Moves p (restoreSegment seg p) := by
  unfold restoreSegment; split
  · exact .refl p
  · dsimp only
    have h := (m_onSegment (.refl p) seg fun s => { s with supply := .supplied, relit := 0, outage := none }).trans
      (m_markSegment seg _)
    split
    · exact h.trans (m_endJob _ _)
    · rename_i s _ i o ho
      have ho := (bind_pair ho).2
      have step : ∀ q : Part, Moves p q → q.outages.get? i = some o → ∀ (o' : Outage) (n : Notice),
          Moves p (place n (endJob ⟨.relight, seg⟩ (putOutage i o' q))) := fun q hq hi o' n =>
        m_place ((m_putOutage hq i o' (.inr ⟨o, hi⟩)).trans (m_endJob ⟨.relight, seg⟩ _)) n
      split
      · refine (step _ ?_ ?_ _ _).trans (m_endOutage _ _) <;> split
        · exact h
        · exact m_onDistrict h _ _
        · exact ho
        · exact ho
      · refine step _ ?_ ?_ _ _ <;> split
        · exact h
        · exact m_onDistrict h _ _
        · exact ho
        · exact ho

theorem m_setSuspect (seg : Nat) (b : Bool) (p : Part) : Moves p (setSuspect seg b p) := by
  unfold setSuspect
  exact m_refreshLamps (m_onDistrict ((m_onSegment (.refl p) _ _).trans (m_markSegment _ _)) _ _)

theorem m_noGasCall (seg : Nat) (p : Part) : Moves p (noGasCall seg p) := by
  unfold noGasCall; split
  · exact .refl p
  · split
    · split
      · exact .refl p
      · exact m_putOutage (.refl p) _ _ (.inr ⟨_, by assumption⟩)
    · dsimp only; split
      · exact m_place ((m_onSegment (.refl p) _ _).trans (m_setSuspect _ _ _)) _
      · exact m_onSegment (.refl p) _ _

theorem m_completeTrace (c : Cause) (w : View) (p : Part) : Moves p (completeTrace c w p) := by
  unfold completeTrace
  dsimp only
  refine Moves.trans ?_ (m_dispatchDecide _)
  refine m_foldl ?_ _ (fun q e => m_endJob _ q) _
  refine m_trace ?_ _
  refine Moves.trans ?_ (m_joinOutage _ _ _)
  refine m_foldl ?_ _ (fun q e => ?_) _
  · exact (m_segments (.refl p) _ (wf_map _ _ _)).trans (m_markSegments _ _)
  · split
    · exact m_loseMember _ _ _
    · exact .refl q

end Sys2Proof.Laws
end

