-- ==== Sys2Proof/Laws/Frames.lean ====
section
/-!
SUPPORT. Frames: for each shared operation, the fields of the part that it leaves as they were.
-/

namespace Sys2Proof.Laws

open Sys2Proof.Machine

/-- A run of operations, each of which leaves something, leaves it. -/
theorem foldl_keeps {α γ : Type} (g : Part → γ) (f : Part → α → Part) (hf : ∀ q a, g (f q a) = g q) (as : List α)
    (q : Part) : g (as.foldl f q) = g q := by
  induction as generalizing q with
  | nil => rfl
  | cons a as ih => rw [List.foldl_cons, ih, hf]

variable (p : Part)

/-! ### raise -/

@[simp] theorem f_raise_clock (c : Cause) : (raise c p).clock = p.clock := by
  unfold raise; (repeat' split) <;> simp
@[simp] theorem f_raise_link (c : Cause) : (raise c p).link = p.link := by
  unfold raise; (repeat' split) <;> simp
@[simp] theorem f_raise_lines (c : Cause) : (raise c p).lines = p.lines := by
  unfold raise; (repeat' split) <;> simp
@[simp] theorem f_raise_outstations (c : Cause) : (raise c p).outstations = p.outstations := by
  unfold raise; (repeat' split) <;> simp
@[simp] theorem f_raise_points (c : Cause) : (raise c p).points = p.points := by
  unfold raise; (repeat' split) <;> simp
@[simp] theorem f_raise_segments (c : Cause) : (raise c p).segments = p.segments := by
  unfold raise; (repeat' split) <;> simp
@[simp] theorem f_raise_valves (c : Cause) : (raise c p).valves = p.valves := by
  unfold raise; (repeat' split) <;> simp
@[simp] theorem f_raise_feeds (c : Cause) : (raise c p).feeds = p.feeds := by
  unfold raise; (repeat' split) <;> simp
@[simp] theorem f_raise_districts (c : Cause) : (raise c p).districts = p.districts := by
  unfold raise; (repeat' split) <;> simp
@[simp] theorem f_raise_plans (c : Cause) : (raise c p).plans = p.plans := by
  unfold raise; (repeat' split) <;> simp
@[simp] theorem f_raise_register (c : Cause) : (raise c p).register = p.register := by
  unfold raise; (repeat' split) <;> simp
@[simp] theorem f_raise_dispatch (c : Cause) : (raise c p).dispatch = p.dispatch := by
  unfold raise; (repeat' split) <;> simp
@[simp] theorem f_raise_outages (c : Cause) : (raise c p).outages = p.outages := by
  unfold raise; (repeat' split) <;> simp
@[simp] theorem f_raise_panel (c : Cause) : (raise c p).panel = p.panel := by
  unfold raise; (repeat' split) <;> simp

/-! ### markSegment -/

@[simp] theorem f_markSegment_clock (i : Nat) : (markSegment i p).clock = p.clock := by
  unfold markSegment; split
  · rfl
  · split
    · rfl
    · dsimp only; split <;> rfl
@[simp] theorem f_markSegment_lines (i : Nat) : (markSegment i p).lines = p.lines := by
  unfold markSegment; split
  · rfl
  · split
    · rfl
    · dsimp only; split <;> rfl
@[simp] theorem f_markSegment_outstations (i : Nat) : (markSegment i p).outstations = p.outstations := by
  unfold markSegment; split
  · rfl
  · split
    · rfl
    · dsimp only; split <;> rfl
@[simp] theorem f_markSegment_points (i : Nat) : (markSegment i p).points = p.points := by
  unfold markSegment; split
  · rfl
  · split
    · rfl
    · dsimp only; split <;> rfl
@[simp] theorem f_markSegment_valves (i : Nat) : (markSegment i p).valves = p.valves := by
  unfold markSegment; split
  · rfl
  · split
    · rfl
    · dsimp only; split <;> rfl
@[simp] theorem f_markSegment_feeds (i : Nat) : (markSegment i p).feeds = p.feeds := by
  unfold markSegment; split
  · rfl
  · split
    · rfl
    · dsimp only; split <;> rfl
@[simp] theorem f_markSegment_districts (i : Nat) : (markSegment i p).districts = p.districts := by
  unfold markSegment; split
  · rfl
  · split
    · rfl
    · dsimp only; split <;> rfl
@[simp] theorem f_markSegment_trace (i : Nat) : (markSegment i p).trace = p.trace := by
  unfold markSegment; split
  · rfl
  · split
    · rfl
    · dsimp only; split <;> rfl
@[simp] theorem f_markSegment_plans (i : Nat) : (markSegment i p).plans = p.plans := by
  unfold markSegment; split
  · rfl
  · split
    · rfl
    · dsimp only; split <;> rfl
@[simp] theorem f_markSegment_register (i : Nat) : (markSegment i p).register = p.register := by
  unfold markSegment; split
  · rfl
  · split
    · rfl
    · dsimp only; split <;> rfl
@[simp] theorem f_markSegment_dispatch (i : Nat) : (markSegment i p).dispatch = p.dispatch := by
  unfold markSegment; split
  · rfl
  · split
    · rfl
    · dsimp only; split <;> rfl
@[simp] theorem f_markSegment_outages (i : Nat) : (markSegment i p).outages = p.outages := by
  unfold markSegment; split
  · rfl
  · split
    · rfl
    · dsimp only; split <;> rfl
@[simp] theorem f_markSegment_panel (i : Nat) : (markSegment i p).panel = p.panel := by
  unfold markSegment; split
  · rfl
  · split
    · rfl
    · dsimp only; split <;> rfl

/-! ### markSegments -/

@[simp] theorem f_markSegments_clock (is : List Nat) : (markSegments is p).clock = p.clock := by
  exact foldl_keeps (fun p => p.clock) _ (fun q a => by simp) _ _
@[simp] theorem f_markSegments_lines (is : List Nat) : (markSegments is p).lines = p.lines := by
  exact foldl_keeps (fun p => p.lines) _ (fun q a => by simp) _ _
@[simp] theorem f_markSegments_outstations (is : List Nat) : (markSegments is p).outstations = p.outstations := by
  exact foldl_keeps (fun p => p.outstations) _ (fun q a => by simp) _ _
@[simp] theorem f_markSegments_points (is : List Nat) : (markSegments is p).points = p.points := by
  exact foldl_keeps (fun p => p.points) _ (fun q a => by simp) _ _
@[simp] theorem f_markSegments_valves (is : List Nat) : (markSegments is p).valves = p.valves := by
  exact foldl_keeps (fun p => p.valves) _ (fun q a => by simp) _ _
@[simp] theorem f_markSegments_feeds (is : List Nat) : (markSegments is p).feeds = p.feeds := by
  exact foldl_keeps (fun p => p.feeds) _ (fun q a => by simp) _ _
@[simp] theorem f_markSegments_districts (is : List Nat) : (markSegments is p).districts = p.districts := by
  exact foldl_keeps (fun p => p.districts) _ (fun q a => by simp) _ _
@[simp] theorem f_markSegments_trace (is : List Nat) : (markSegments is p).trace = p.trace := by
  exact foldl_keeps (fun p => p.trace) _ (fun q a => by simp) _ _
@[simp] theorem f_markSegments_plans (is : List Nat) : (markSegments is p).plans = p.plans := by
  exact foldl_keeps (fun p => p.plans) _ (fun q a => by simp) _ _
@[simp] theorem f_markSegments_register (is : List Nat) : (markSegments is p).register = p.register := by
  exact foldl_keeps (fun p => p.register) _ (fun q a => by simp) _ _
@[simp] theorem f_markSegments_dispatch (is : List Nat) : (markSegments is p).dispatch = p.dispatch := by
  exact foldl_keeps (fun p => p.dispatch) _ (fun q a => by simp) _ _
@[simp] theorem f_markSegments_outages (is : List Nat) : (markSegments is p).outages = p.outages := by
  exact foldl_keeps (fun p => p.outages) _ (fun q a => by simp) _ _
@[simp] theorem f_markSegments_panel (is : List Nat) : (markSegments is p).panel = p.panel := by
  exact foldl_keeps (fun p => p.panel) _ (fun q a => by simp) _ _

/-! ### sendPoll -/

@[simp] theorem f_sendPoll_clock (n os : Nat) : (sendPoll n os p).clock = p.clock := rfl
@[simp] theorem f_sendPoll_link (n os : Nat) : (sendPoll n os p).link = p.link := rfl
@[simp] theorem f_sendPoll_outstations (n os : Nat) : (sendPoll n os p).outstations = p.outstations := rfl
@[simp] theorem f_sendPoll_points (n os : Nat) : (sendPoll n os p).points = p.points := rfl
@[simp] theorem f_sendPoll_segments (n os : Nat) : (sendPoll n os p).segments = p.segments := rfl
@[simp] theorem f_sendPoll_valves (n os : Nat) : (sendPoll n os p).valves = p.valves := rfl
@[simp] theorem f_sendPoll_feeds (n os : Nat) : (sendPoll n os p).feeds = p.feeds := rfl
@[simp] theorem f_sendPoll_districts (n os : Nat) : (sendPoll n os p).districts = p.districts := rfl
@[simp] theorem f_sendPoll_trace (n os : Nat) : (sendPoll n os p).trace = p.trace := rfl
@[simp] theorem f_sendPoll_plans (n os : Nat) : (sendPoll n os p).plans = p.plans := rfl
@[simp] theorem f_sendPoll_register (n os : Nat) : (sendPoll n os p).register = p.register := rfl
@[simp] theorem f_sendPoll_dispatch (n os : Nat) : (sendPoll n os p).dispatch = p.dispatch := rfl
@[simp] theorem f_sendPoll_outages (n os : Nat) : (sendPoll n os p).outages = p.outages := rfl
@[simp] theorem f_sendPoll_panel (n os : Nat) : (sendPoll n os p).panel = p.panel := rfl

/-! ### sendCommand -/

@[simp] theorem f_sendCommand_clock (n : Nat) : (sendCommand n p).clock = p.clock := by
  unfold sendCommand; split
  · rfl
  · dsimp only; split <;> rfl
@[simp] theorem f_sendCommand_link (n : Nat) : (sendCommand n p).link = p.link := by
  unfold sendCommand; split
  · rfl
  · dsimp only; split <;> rfl
@[simp] theorem f_sendCommand_points (n : Nat) : (sendCommand n p).points = p.points := by
  unfold sendCommand; split
  · rfl
  · dsimp only; split <;> rfl
@[simp] theorem f_sendCommand_segments (n : Nat) : (sendCommand n p).segments = p.segments := by
  unfold sendCommand; split
  · rfl
  · dsimp only; split <;> rfl
@[simp] theorem f_sendCommand_valves (n : Nat) : (sendCommand n p).valves = p.valves := by
  unfold sendCommand; split
  · rfl
  · dsimp only; split <;> rfl
@[simp] theorem f_sendCommand_feeds (n : Nat) : (sendCommand n p).feeds = p.feeds := by
  unfold sendCommand; split
  · rfl
  · dsimp only; split <;> rfl
@[simp] theorem f_sendCommand_districts (n : Nat) : (sendCommand n p).districts = p.districts := by
  unfold sendCommand; split
  · rfl
  · dsimp only; split <;> rfl
@[simp] theorem f_sendCommand_trace (n : Nat) : (sendCommand n p).trace = p.trace := by
  unfold sendCommand; split
  · rfl
  · dsimp only; split <;> rfl
@[simp] theorem f_sendCommand_plans (n : Nat) : (sendCommand n p).plans = p.plans := by
  unfold sendCommand; split
  · rfl
  · dsimp only; split <;> rfl
@[simp] theorem f_sendCommand_register (n : Nat) : (sendCommand n p).register = p.register := by
  unfold sendCommand; split
  · rfl
  · dsimp only; split <;> rfl
@[simp] theorem f_sendCommand_dispatch (n : Nat) : (sendCommand n p).dispatch = p.dispatch := by
  unfold sendCommand; split
  · rfl
  · dsimp only; split <;> rfl
@[simp] theorem f_sendCommand_outages (n : Nat) : (sendCommand n p).outages = p.outages := by
  unfold sendCommand; split
  · rfl
  · dsimp only; split <;> rfl
@[simp] theorem f_sendCommand_panel (n : Nat) : (sendCommand n p).panel = p.panel := by
  unfold sendCommand; split
  · rfl
  · dsimp only; split <;> rfl

/-! ### restLine -/

@[simp] theorem f_restLine_clock (n : Nat) : (restLine n p).clock = p.clock := rfl
@[simp] theorem f_restLine_link (n : Nat) : (restLine n p).link = p.link := rfl
@[simp] theorem f_restLine_outstations (n : Nat) : (restLine n p).outstations = p.outstations := rfl
@[simp] theorem f_restLine_points (n : Nat) : (restLine n p).points = p.points := rfl
@[simp] theorem f_restLine_segments (n : Nat) : (restLine n p).segments = p.segments := rfl
@[simp] theorem f_restLine_valves (n : Nat) : (restLine n p).valves = p.valves := rfl
@[simp] theorem f_restLine_feeds (n : Nat) : (restLine n p).feeds = p.feeds := rfl
@[simp] theorem f_restLine_districts (n : Nat) : (restLine n p).districts = p.districts := rfl
@[simp] theorem f_restLine_trace (n : Nat) : (restLine n p).trace = p.trace := rfl
@[simp] theorem f_restLine_plans (n : Nat) : (restLine n p).plans = p.plans := rfl
@[simp] theorem f_restLine_register (n : Nat) : (restLine n p).register = p.register := rfl
@[simp] theorem f_restLine_dispatch (n : Nat) : (restLine n p).dispatch = p.dispatch := rfl
@[simp] theorem f_restLine_outages (n : Nat) : (restLine n p).outages = p.outages := rfl
@[simp] theorem f_restLine_panel (n : Nat) : (restLine n p).panel = p.panel := rfl

/-! ### waitForPeriod -/

@[simp] theorem f_waitForPeriod_clock (n : Nat) : (waitForPeriod n p).clock = p.clock := rfl
@[simp] theorem f_waitForPeriod_link (n : Nat) : (waitForPeriod n p).link = p.link := rfl
@[simp] theorem f_waitForPeriod_outstations (n : Nat) : (waitForPeriod n p).outstations = p.outstations := rfl
@[simp] theorem f_waitForPeriod_points (n : Nat) : (waitForPeriod n p).points = p.points := rfl
@[simp] theorem f_waitForPeriod_segments (n : Nat) : (waitForPeriod n p).segments = p.segments := rfl
@[simp] theorem f_waitForPeriod_valves (n : Nat) : (waitForPeriod n p).valves = p.valves := rfl
@[simp] theorem f_waitForPeriod_feeds (n : Nat) : (waitForPeriod n p).feeds = p.feeds := rfl
@[simp] theorem f_waitForPeriod_districts (n : Nat) : (waitForPeriod n p).districts = p.districts := rfl
@[simp] theorem f_waitForPeriod_trace (n : Nat) : (waitForPeriod n p).trace = p.trace := rfl
@[simp] theorem f_waitForPeriod_plans (n : Nat) : (waitForPeriod n p).plans = p.plans := rfl
@[simp] theorem f_waitForPeriod_register (n : Nat) : (waitForPeriod n p).register = p.register := rfl
@[simp] theorem f_waitForPeriod_dispatch (n : Nat) : (waitForPeriod n p).dispatch = p.dispatch := rfl
@[simp] theorem f_waitForPeriod_outages (n : Nat) : (waitForPeriod n p).outages = p.outages := rfl
@[simp] theorem f_waitForPeriod_panel (n : Nat) : (waitForPeriod n p).panel = p.panel := rfl

/-! ### openCycle -/

@[simp] theorem f_openCycle_clock (n k : Nat) : (openCycle n k p).clock = p.clock := rfl
@[simp] theorem f_openCycle_link (n k : Nat) : (openCycle n k p).link = p.link := rfl
@[simp] theorem f_openCycle_outstations (n k : Nat) : (openCycle n k p).outstations = p.outstations := rfl
@[simp] theorem f_openCycle_points (n k : Nat) : (openCycle n k p).points = p.points := rfl
@[simp] theorem f_openCycle_segments (n k : Nat) : (openCycle n k p).segments = p.segments := rfl
@[simp] theorem f_openCycle_valves (n k : Nat) : (openCycle n k p).valves = p.valves := rfl
@[simp] theorem f_openCycle_feeds (n k : Nat) : (openCycle n k p).feeds = p.feeds := rfl
@[simp] theorem f_openCycle_districts (n k : Nat) : (openCycle n k p).districts = p.districts := rfl
@[simp] theorem f_openCycle_trace (n k : Nat) : (openCycle n k p).trace = p.trace := rfl
@[simp] theorem f_openCycle_plans (n k : Nat) : (openCycle n k p).plans = p.plans := rfl
@[simp] theorem f_openCycle_register (n k : Nat) : (openCycle n k p).register = p.register := rfl
@[simp] theorem f_openCycle_dispatch (n k : Nat) : (openCycle n k p).dispatch = p.dispatch := rfl
@[simp] theorem f_openCycle_outages (n k : Nat) : (openCycle n k p).outages = p.outages := rfl
@[simp] theorem f_openCycle_panel (n k : Nat) : (openCycle n k p).panel = p.panel := rfl

/-! ### startCycle -/

@[simp] theorem f_startCycle_clock (n k : Nat) : (startCycle n k p).clock = p.clock := by
  unfold startCycle; dsimp only; split <;> rfl
@[simp] theorem f_startCycle_link (n k : Nat) : (startCycle n k p).link = p.link := by
  unfold startCycle; dsimp only; split <;> rfl
@[simp] theorem f_startCycle_outstations (n k : Nat) : (startCycle n k p).outstations = p.outstations := by
  unfold startCycle; dsimp only; split <;> rfl
@[simp] theorem f_startCycle_points (n k : Nat) : (startCycle n k p).points = p.points := by
  unfold startCycle; dsimp only; split <;> rfl
@[simp] theorem f_startCycle_segments (n k : Nat) : (startCycle n k p).segments = p.segments := by
  unfold startCycle; dsimp only; split <;> rfl
@[simp] theorem f_startCycle_valves (n k : Nat) : (startCycle n k p).valves = p.valves := by
  unfold startCycle; dsimp only; split <;> rfl
@[simp] theorem f_startCycle_feeds (n k : Nat) : (startCycle n k p).feeds = p.feeds := by
  unfold startCycle; dsimp only; split <;> rfl
@[simp] theorem f_startCycle_districts (n k : Nat) : (startCycle n k p).districts = p.districts := by
  unfold startCycle; dsimp only; split <;> rfl
@[simp] theorem f_startCycle_trace (n k : Nat) : (startCycle n k p).trace = p.trace := by
  unfold startCycle; dsimp only; split <;> rfl
@[simp] theorem f_startCycle_plans (n k : Nat) : (startCycle n k p).plans = p.plans := by
  unfold startCycle; dsimp only; split <;> rfl
@[simp] theorem f_startCycle_register (n k : Nat) : (startCycle n k p).register = p.register := by
  unfold startCycle; dsimp only; split <;> rfl
@[simp] theorem f_startCycle_dispatch (n k : Nat) : (startCycle n k p).dispatch = p.dispatch := by
  unfold startCycle; dsimp only; split <;> rfl
@[simp] theorem f_startCycle_outages (n k : Nat) : (startCycle n k p).outages = p.outages := by
  unfold startCycle; dsimp only; split <;> rfl
@[simp] theorem f_startCycle_panel (n k : Nat) : (startCycle n k p).panel = p.panel := by
  unfold startCycle; dsimp only; split <;> rfl

/-! ### pollsEnd -/

@[simp] theorem f_pollsEnd_clock (n : Nat) : (pollsEnd n p).clock = p.clock := by
  unfold pollsEnd; (repeat' split) <;> simp
@[simp] theorem f_pollsEnd_link (n : Nat) : (pollsEnd n p).link = p.link := by
  unfold pollsEnd; (repeat' split) <;> simp
@[simp] theorem f_pollsEnd_outstations (n : Nat) : (pollsEnd n p).outstations = p.outstations := by
  unfold pollsEnd; (repeat' split) <;> simp
@[simp] theorem f_pollsEnd_points (n : Nat) : (pollsEnd n p).points = p.points := by
  unfold pollsEnd; (repeat' split) <;> simp
@[simp] theorem f_pollsEnd_segments (n : Nat) : (pollsEnd n p).segments = p.segments := by
  unfold pollsEnd; (repeat' split) <;> simp
@[simp] theorem f_pollsEnd_valves (n : Nat) : (pollsEnd n p).valves = p.valves := by
  unfold pollsEnd; (repeat' split) <;> simp
@[simp] theorem f_pollsEnd_feeds (n : Nat) : (pollsEnd n p).feeds = p.feeds := by
  unfold pollsEnd; (repeat' split) <;> simp
@[simp] theorem f_pollsEnd_districts (n : Nat) : (pollsEnd n p).districts = p.districts := by
  unfold pollsEnd; (repeat' split) <;> simp
@[simp] theorem f_pollsEnd_trace (n : Nat) : (pollsEnd n p).trace = p.trace := by
  unfold pollsEnd; (repeat' split) <;> simp
@[simp] theorem f_pollsEnd_plans (n : Nat) : (pollsEnd n p).plans = p.plans := by
  unfold pollsEnd; (repeat' split) <;> simp
@[simp] theorem f_pollsEnd_register (n : Nat) : (pollsEnd n p).register = p.register := by
  unfold pollsEnd; (repeat' split) <;> simp
@[simp] theorem f_pollsEnd_dispatch (n : Nat) : (pollsEnd n p).dispatch = p.dispatch := by
  unfold pollsEnd; (repeat' split) <;> simp
@[simp] theorem f_pollsEnd_outages (n : Nat) : (pollsEnd n p).outages = p.outages := by
  unfold pollsEnd; (repeat' split) <;> simp
@[simp] theorem f_pollsEnd_panel (n : Nat) : (pollsEnd n p).panel = p.panel := by
  unfold pollsEnd; (repeat' split) <;> simp

/-! ### takeTurn -/

@[simp] theorem f_takeTurn_clock (n : Nat) : (takeTurn n p).clock = p.clock := by
  unfold takeTurn; dsimp only; (repeat' split) <;> simp
@[simp] theorem f_takeTurn_link (n : Nat) : (takeTurn n p).link = p.link := by
  unfold takeTurn; dsimp only; (repeat' split) <;> simp
@[simp] theorem f_takeTurn_points (n : Nat) : (takeTurn n p).points = p.points := by
  unfold takeTurn; dsimp only; (repeat' split) <;> simp
@[simp] theorem f_takeTurn_segments (n : Nat) : (takeTurn n p).segments = p.segments := by
  unfold takeTurn; dsimp only; (repeat' split) <;> simp
@[simp] theorem f_takeTurn_valves (n : Nat) : (takeTurn n p).valves = p.valves := by
  unfold takeTurn; dsimp only; (repeat' split) <;> simp
@[simp] theorem f_takeTurn_feeds (n : Nat) : (takeTurn n p).feeds = p.feeds := by
  unfold takeTurn; dsimp only; (repeat' split) <;> simp
@[simp] theorem f_takeTurn_districts (n : Nat) : (takeTurn n p).districts = p.districts := by
  unfold takeTurn; dsimp only; (repeat' split) <;> simp
@[simp] theorem f_takeTurn_trace (n : Nat) : (takeTurn n p).trace = p.trace := by
  unfold takeTurn; dsimp only; (repeat' split) <;> simp
@[simp] theorem f_takeTurn_plans (n : Nat) : (takeTurn n p).plans = p.plans := by
  unfold takeTurn; dsimp only; (repeat' split) <;> simp
@[simp] theorem f_takeTurn_register (n : Nat) : (takeTurn n p).register = p.register := by
  unfold takeTurn; dsimp only; (repeat' split) <;> simp
@[simp] theorem f_takeTurn_dispatch (n : Nat) : (takeTurn n p).dispatch = p.dispatch := by
  unfold takeTurn; dsimp only; (repeat' split) <;> simp
@[simp] theorem f_takeTurn_outages (n : Nat) : (takeTurn n p).outages = p.outages := by
  unfold takeTurn; dsimp only; (repeat' split) <;> simp
@[simp] theorem f_takeTurn_panel (n : Nat) : (takeTurn n p).panel = p.panel := by
  unfold takeTurn; dsimp only; (repeat' split) <;> simp

/-! ### chooseTransaction -/

@[simp] theorem f_chooseTransaction_clock (n : Nat) : (chooseTransaction n p).clock = p.clock := by
  unfold chooseTransaction; split <;> simp
@[simp] theorem f_chooseTransaction_link (n : Nat) : (chooseTransaction n p).link = p.link := by
  unfold chooseTransaction; split <;> simp
@[simp] theorem f_chooseTransaction_points (n : Nat) : (chooseTransaction n p).points = p.points := by
  unfold chooseTransaction; split <;> simp
@[simp] theorem f_chooseTransaction_segments (n : Nat) : (chooseTransaction n p).segments = p.segments := by
  unfold chooseTransaction; split <;> simp
@[simp] theorem f_chooseTransaction_valves (n : Nat) : (chooseTransaction n p).valves = p.valves := by
  unfold chooseTransaction; split <;> simp
@[simp] theorem f_chooseTransaction_feeds (n : Nat) : (chooseTransaction n p).feeds = p.feeds := by
  unfold chooseTransaction; split <;> simp
@[simp] theorem f_chooseTransaction_districts (n : Nat) : (chooseTransaction n p).districts = p.districts := by
  unfold chooseTransaction; split <;> simp
@[simp] theorem f_chooseTransaction_trace (n : Nat) : (chooseTransaction n p).trace = p.trace := by
  unfold chooseTransaction; split <;> simp
@[simp] theorem f_chooseTransaction_plans (n : Nat) : (chooseTransaction n p).plans = p.plans := by
  unfold chooseTransaction; split <;> simp
@[simp] theorem f_chooseTransaction_register (n : Nat) : (chooseTransaction n p).register = p.register := by
  unfold chooseTransaction; split <;> simp
@[simp] theorem f_chooseTransaction_dispatch (n : Nat) : (chooseTransaction n p).dispatch = p.dispatch := by
  unfold chooseTransaction; split <;> simp
@[simp] theorem f_chooseTransaction_outages (n : Nat) : (chooseTransaction n p).outages = p.outages := by
  unfold chooseTransaction; split <;> simp
@[simp] theorem f_chooseTransaction_panel (n : Nat) : (chooseTransaction n p).panel = p.panel := by
  unfold chooseTransaction; split <;> simp

/-! ### startLine -/

@[simp] theorem f_startLine_clock (n : Nat) : (startLine n p).clock = p.clock := by
  unfold startLine; dsimp only; (repeat' split) <;> simp
@[simp] theorem f_startLine_link (n : Nat) : (startLine n p).link = p.link := by
  unfold startLine; dsimp only; (repeat' split) <;> simp
@[simp] theorem f_startLine_points (n : Nat) : (startLine n p).points = p.points := by
  unfold startLine; dsimp only; (repeat' split) <;> simp
@[simp] theorem f_startLine_segments (n : Nat) : (startLine n p).segments = p.segments := by
  unfold startLine; dsimp only; (repeat' split) <;> simp
@[simp] theorem f_startLine_valves (n : Nat) : (startLine n p).valves = p.valves := by
  unfold startLine; dsimp only; (repeat' split) <;> simp
@[simp] theorem f_startLine_feeds (n : Nat) : (startLine n p).feeds = p.feeds := by
  unfold startLine; dsimp only; (repeat' split) <;> simp
@[simp] theorem f_startLine_districts (n : Nat) : (startLine n p).districts = p.districts := by
  unfold startLine; dsimp only; (repeat' split) <;> simp
@[simp] theorem f_startLine_trace (n : Nat) : (startLine n p).trace = p.trace := by
  unfold startLine; dsimp only; (repeat' split) <;> simp
@[simp] theorem f_startLine_plans (n : Nat) : (startLine n p).plans = p.plans := by
  unfold startLine; dsimp only; (repeat' split) <;> simp
@[simp] theorem f_startLine_register (n : Nat) : (startLine n p).register = p.register := by
  unfold startLine; dsimp only; (repeat' split) <;> simp
@[simp] theorem f_startLine_dispatch (n : Nat) : (startLine n p).dispatch = p.dispatch := by
  unfold startLine; dsimp only; (repeat' split) <;> simp
@[simp] theorem f_startLine_outages (n : Nat) : (startLine n p).outages = p.outages := by
  unfold startLine; dsimp only; (repeat' split) <;> simp
@[simp] theorem f_startLine_panel (n : Nat) : (startLine n p).panel = p.panel := by
  unfold startLine; dsimp only; (repeat' split) <;> simp

/-! ### wakeLine -/

@[simp] theorem f_wakeLine_clock (n : Nat) : (wakeLine n p).clock = p.clock := by
  unfold wakeLine; dsimp only; (repeat' split) <;> simp
@[simp] theorem f_wakeLine_link (n : Nat) : (wakeLine n p).link = p.link := by
  unfold wakeLine; dsimp only; (repeat' split) <;> simp
@[simp] theorem f_wakeLine_points (n : Nat) : (wakeLine n p).points = p.points := by
  unfold wakeLine; dsimp only; (repeat' split) <;> simp
@[simp] theorem f_wakeLine_segments (n : Nat) : (wakeLine n p).segments = p.segments := by
  unfold wakeLine; dsimp only; (repeat' split) <;> simp
@[simp] theorem f_wakeLine_valves (n : Nat) : (wakeLine n p).valves = p.valves := by
  unfold wakeLine; dsimp only; (repeat' split) <;> simp
@[simp] theorem f_wakeLine_feeds (n : Nat) : (wakeLine n p).feeds = p.feeds := by
  unfold wakeLine; dsimp only; (repeat' split) <;> simp
@[simp] theorem f_wakeLine_districts (n : Nat) : (wakeLine n p).districts = p.districts := by
  unfold wakeLine; dsimp only; (repeat' split) <;> simp
@[simp] theorem f_wakeLine_trace (n : Nat) : (wakeLine n p).trace = p.trace := by
  unfold wakeLine; dsimp only; (repeat' split) <;> simp
@[simp] theorem f_wakeLine_plans (n : Nat) : (wakeLine n p).plans = p.plans := by
  unfold wakeLine; dsimp only; (repeat' split) <;> simp
@[simp] theorem f_wakeLine_register (n : Nat) : (wakeLine n p).register = p.register := by
  unfold wakeLine; dsimp only; (repeat' split) <;> simp
@[simp] theorem f_wakeLine_dispatch (n : Nat) : (wakeLine n p).dispatch = p.dispatch := by
  unfold wakeLine; dsimp only; (repeat' split) <;> simp
@[simp] theorem f_wakeLine_outages (n : Nat) : (wakeLine n p).outages = p.outages := by
  unfold wakeLine; dsimp only; (repeat' split) <;> simp
@[simp] theorem f_wakeLine_panel (n : Nat) : (wakeLine n p).panel = p.panel := by
  unfold wakeLine; dsimp only; (repeat' split) <;> simp

/-! ### offerCommand -/

@[simp] theorem f_offerCommand_clock (c : Command) : ((offerCommand c p).1).clock = p.clock := by
  unfold offerCommand; dsimp only; (repeat' split) <;> simp
@[simp] theorem f_offerCommand_link (c : Command) : ((offerCommand c p).1).link = p.link := by
  unfold offerCommand; dsimp only; (repeat' split) <;> simp
@[simp] theorem f_offerCommand_points (c : Command) : ((offerCommand c p).1).points = p.points := by
  unfold offerCommand; dsimp only; (repeat' split) <;> simp
@[simp] theorem f_offerCommand_segments (c : Command) : ((offerCommand c p).1).segments = p.segments := by
  unfold offerCommand; dsimp only; (repeat' split) <;> simp
@[simp] theorem f_offerCommand_valves (c : Command) : ((offerCommand c p).1).valves = p.valves := by
  unfold offerCommand; dsimp only; (repeat' split) <;> simp
@[simp] theorem f_offerCommand_feeds (c : Command) : ((offerCommand c p).1).feeds = p.feeds := by
  unfold offerCommand; dsimp only; (repeat' split) <;> simp
@[simp] theorem f_offerCommand_districts (c : Command) : ((offerCommand c p).1).districts = p.districts := by
  unfold offerCommand; dsimp only; (repeat' split) <;> simp
@[simp] theorem f_offerCommand_trace (c : Command) : ((offerCommand c p).1).trace = p.trace := by
  unfold offerCommand; dsimp only; (repeat' split) <;> simp
@[simp] theorem f_offerCommand_plans (c : Command) : ((offerCommand c p).1).plans = p.plans := by
  unfold offerCommand; dsimp only; (repeat' split) <;> simp
@[simp] theorem f_offerCommand_register (c : Command) : ((offerCommand c p).1).register = p.register := by
  unfold offerCommand; dsimp only; (repeat' split) <;> simp
@[simp] theorem f_offerCommand_dispatch (c : Command) : ((offerCommand c p).1).dispatch = p.dispatch := by
  unfold offerCommand; dsimp only; (repeat' split) <;> simp
@[simp] theorem f_offerCommand_outages (c : Command) : ((offerCommand c p).1).outages = p.outages := by
  unfold offerCommand; dsimp only; (repeat' split) <;> simp
@[simp] theorem f_offerCommand_panel (c : Command) : ((offerCommand c p).1).panel = p.panel := by
  unfold offerCommand; dsimp only; (repeat' split) <;> simp

/-! ### offerStop -/

@[simp] theorem f_offerStop_clock (v : Nat) : (offerStop v p).clock = p.clock := by
  unfold offerStop; (repeat' split) <;> simp
@[simp] theorem f_offerStop_link (v : Nat) : (offerStop v p).link = p.link := by
  unfold offerStop; (repeat' split) <;> simp
@[simp] theorem f_offerStop_points (v : Nat) : (offerStop v p).points = p.points := by
  unfold offerStop; (repeat' split) <;> simp
@[simp] theorem f_offerStop_segments (v : Nat) : (offerStop v p).segments = p.segments := by
  unfold offerStop; (repeat' split) <;> simp
@[simp] theorem f_offerStop_valves (v : Nat) : (offerStop v p).valves = p.valves := by
  unfold offerStop; (repeat' split) <;> simp
@[simp] theorem f_offerStop_feeds (v : Nat) : (offerStop v p).feeds = p.feeds := by
  unfold offerStop; (repeat' split) <;> simp
@[simp] theorem f_offerStop_districts (v : Nat) : (offerStop v p).districts = p.districts := by
  unfold offerStop; (repeat' split) <;> simp
@[simp] theorem f_offerStop_trace (v : Nat) : (offerStop v p).trace = p.trace := by
  unfold offerStop; (repeat' split) <;> simp
@[simp] theorem f_offerStop_plans (v : Nat) : (offerStop v p).plans = p.plans := by
  unfold offerStop; (repeat' split) <;> simp
@[simp] theorem f_offerStop_register (v : Nat) : (offerStop v p).register = p.register := by
  unfold offerStop; (repeat' split) <;> simp
@[simp] theorem f_offerStop_dispatch (v : Nat) : (offerStop v p).dispatch = p.dispatch := by
  unfold offerStop; (repeat' split) <;> simp
@[simp] theorem f_offerStop_outages (v : Nat) : (offerStop v p).outages = p.outages := by
  unfold offerStop; (repeat' split) <;> simp
@[simp] theorem f_offerStop_panel (v : Nat) : (offerStop v p).panel = p.panel := by
  unfold offerStop; (repeat' split) <;> simp

/-! ### withdrawCommand -/

@[simp] theorem f_withdrawCommand_clock (v : Nat) : (withdrawCommand v p).clock = p.clock := by
  unfold withdrawCommand; (repeat' split) <;> simp
@[simp] theorem f_withdrawCommand_link (v : Nat) : (withdrawCommand v p).link = p.link := by
  unfold withdrawCommand; (repeat' split) <;> simp
@[simp] theorem f_withdrawCommand_outstations (v : Nat) : (withdrawCommand v p).outstations = p.outstations := by
  unfold withdrawCommand; (repeat' split) <;> simp
@[simp] theorem f_withdrawCommand_points (v : Nat) : (withdrawCommand v p).points = p.points := by
  unfold withdrawCommand; (repeat' split) <;> simp
@[simp] theorem f_withdrawCommand_segments (v : Nat) : (withdrawCommand v p).segments = p.segments := by
  unfold withdrawCommand; (repeat' split) <;> simp
@[simp] theorem f_withdrawCommand_valves (v : Nat) : (withdrawCommand v p).valves = p.valves := by
  unfold withdrawCommand; (repeat' split) <;> simp
@[simp] theorem f_withdrawCommand_feeds (v : Nat) : (withdrawCommand v p).feeds = p.feeds := by
  unfold withdrawCommand; (repeat' split) <;> simp
@[simp] theorem f_withdrawCommand_districts (v : Nat) : (withdrawCommand v p).districts = p.districts := by
  unfold withdrawCommand; (repeat' split) <;> simp
@[simp] theorem f_withdrawCommand_trace (v : Nat) : (withdrawCommand v p).trace = p.trace := by
  unfold withdrawCommand; (repeat' split) <;> simp
@[simp] theorem f_withdrawCommand_plans (v : Nat) : (withdrawCommand v p).plans = p.plans := by
  unfold withdrawCommand; (repeat' split) <;> simp
@[simp] theorem f_withdrawCommand_register (v : Nat) : (withdrawCommand v p).register = p.register := by
  unfold withdrawCommand; (repeat' split) <;> simp
@[simp] theorem f_withdrawCommand_dispatch (v : Nat) : (withdrawCommand v p).dispatch = p.dispatch := by
  unfold withdrawCommand; (repeat' split) <;> simp
@[simp] theorem f_withdrawCommand_outages (v : Nat) : (withdrawCommand v p).outages = p.outages := by
  unfold withdrawCommand; (repeat' split) <;> simp
@[simp] theorem f_withdrawCommand_panel (v : Nat) : (withdrawCommand v p).panel = p.panel := by
  unfold withdrawCommand; (repeat' split) <;> simp

/-! ### popCommand -/

@[simp] theorem f_popCommand_clock (n : Nat) : (popCommand n p).clock = p.clock := rfl
@[simp] theorem f_popCommand_link (n : Nat) : (popCommand n p).link = p.link := rfl
@[simp] theorem f_popCommand_outstations (n : Nat) : (popCommand n p).outstations = p.outstations := rfl
@[simp] theorem f_popCommand_points (n : Nat) : (popCommand n p).points = p.points := rfl
@[simp] theorem f_popCommand_segments (n : Nat) : (popCommand n p).segments = p.segments := rfl
@[simp] theorem f_popCommand_valves (n : Nat) : (popCommand n p).valves = p.valves := rfl
@[simp] theorem f_popCommand_feeds (n : Nat) : (popCommand n p).feeds = p.feeds := rfl
@[simp] theorem f_popCommand_districts (n : Nat) : (popCommand n p).districts = p.districts := rfl
@[simp] theorem f_popCommand_trace (n : Nat) : (popCommand n p).trace = p.trace := rfl
@[simp] theorem f_popCommand_plans (n : Nat) : (popCommand n p).plans = p.plans := rfl
@[simp] theorem f_popCommand_register (n : Nat) : (popCommand n p).register = p.register := rfl
@[simp] theorem f_popCommand_dispatch (n : Nat) : (popCommand n p).dispatch = p.dispatch := rfl
@[simp] theorem f_popCommand_outages (n : Nat) : (popCommand n p).outages = p.outages := rfl
@[simp] theorem f_popCommand_panel (n : Nat) : (popCommand n p).panel = p.panel := rfl

/-! ### endJob -/

@[simp] theorem f_endJob_clock (j : Job) : (endJob j p).clock = p.clock := by
  unfold endJob; (repeat' split) <;> simp
@[simp] theorem f_endJob_lines (j : Job) : (endJob j p).lines = p.lines := by
  unfold endJob; (repeat' split) <;> simp
@[simp] theorem f_endJob_outstations (j : Job) : (endJob j p).outstations = p.outstations := by
  unfold endJob; (repeat' split) <;> simp
@[simp] theorem f_endJob_points (j : Job) : (endJob j p).points = p.points := by
  unfold endJob; (repeat' split) <;> simp
@[simp] theorem f_endJob_segments (j : Job) : (endJob j p).segments = p.segments := by
  unfold endJob; (repeat' split) <;> simp
@[simp] theorem f_endJob_valves (j : Job) : (endJob j p).valves = p.valves := by
  unfold endJob; (repeat' split) <;> simp
@[simp] theorem f_endJob_feeds (j : Job) : (endJob j p).feeds = p.feeds := by
  unfold endJob; (repeat' split) <;> simp
@[simp] theorem f_endJob_districts (j : Job) : (endJob j p).districts = p.districts := by
  unfold endJob; (repeat' split) <;> simp
@[simp] theorem f_endJob_trace (j : Job) : (endJob j p).trace = p.trace := by
  unfold endJob; (repeat' split) <;> simp
@[simp] theorem f_endJob_plans (j : Job) : (endJob j p).plans = p.plans := by
  unfold endJob; (repeat' split) <;> simp
@[simp] theorem f_endJob_register (j : Job) : (endJob j p).register = p.register := by
  unfold endJob; (repeat' split) <;> simp
@[simp] theorem f_endJob_outages (j : Job) : (endJob j p).outages = p.outages := by
  unfold endJob; (repeat' split) <;> simp
@[simp] theorem f_endJob_panel (j : Job) : (endJob j p).panel = p.panel := by
  unfold endJob; (repeat' split) <;> simp

/-! ### makeOffer -/

@[simp] theorem f_makeOffer_clock (j : Job) (c : Nat) : (makeOffer j c p).clock = p.clock := rfl
@[simp] theorem f_makeOffer_lines (j : Job) (c : Nat) : (makeOffer j c p).lines = p.lines := rfl
@[simp] theorem f_makeOffer_outstations (j : Job) (c : Nat) : (makeOffer j c p).outstations = p.outstations := rfl
@[simp] theorem f_makeOffer_points (j : Job) (c : Nat) : (makeOffer j c p).points = p.points := rfl
@[simp] theorem f_makeOffer_segments (j : Job) (c : Nat) : (makeOffer j c p).segments = p.segments := rfl
@[simp] theorem f_makeOffer_valves (j : Job) (c : Nat) : (makeOffer j c p).valves = p.valves := rfl
@[simp] theorem f_makeOffer_feeds (j : Job) (c : Nat) : (makeOffer j c p).feeds = p.feeds := rfl
@[simp] theorem f_makeOffer_districts (j : Job) (c : Nat) : (makeOffer j c p).districts = p.districts := rfl
@[simp] theorem f_makeOffer_trace (j : Job) (c : Nat) : (makeOffer j c p).trace = p.trace := rfl
@[simp] theorem f_makeOffer_plans (j : Job) (c : Nat) : (makeOffer j c p).plans = p.plans := rfl
@[simp] theorem f_makeOffer_register (j : Job) (c : Nat) : (makeOffer j c p).register = p.register := rfl
@[simp] theorem f_makeOffer_outages (j : Job) (c : Nat) : (makeOffer j c p).outages = p.outages := rfl
@[simp] theorem f_makeOffer_panel (j : Job) (c : Nat) : (makeOffer j c p).panel = p.panel := rfl

/-! ### decideLoop -/

@[simp] theorem f_decideLoop_clock (n : Nat) : (decideLoop n p).clock = p.clock := by
  induction n generalizing p with
  | zero => rfl
  | succ n ih => unfold decideLoop; (repeat' split) <;> simp [ih]
@[simp] theorem f_decideLoop_lines (n : Nat) : (decideLoop n p).lines = p.lines := by
  induction n generalizing p with
  | zero => rfl
  | succ n ih => unfold decideLoop; (repeat' split) <;> simp [ih]
@[simp] theorem f_decideLoop_outstations (n : Nat) : (decideLoop n p).outstations = p.outstations := by
  induction n generalizing p with
  | zero => rfl
  | succ n ih => unfold decideLoop; (repeat' split) <;> simp [ih]
@[simp] theorem f_decideLoop_points (n : Nat) : (decideLoop n p).points = p.points := by
  induction n generalizing p with
  | zero => rfl
  | succ n ih => unfold decideLoop; (repeat' split) <;> simp [ih]
@[simp] theorem f_decideLoop_segments (n : Nat) : (decideLoop n p).segments = p.segments := by
  induction n generalizing p with
  | zero => rfl
  | succ n ih => unfold decideLoop; (repeat' split) <;> simp [ih]
@[simp] theorem f_decideLoop_valves (n : Nat) : (decideLoop n p).valves = p.valves := by
  induction n generalizing p with
  | zero => rfl
  | succ n ih => unfold decideLoop; (repeat' split) <;> simp [ih]
@[simp] theorem f_decideLoop_feeds (n : Nat) : (decideLoop n p).feeds = p.feeds := by
  induction n generalizing p with
  | zero => rfl
  | succ n ih => unfold decideLoop; (repeat' split) <;> simp [ih]
@[simp] theorem f_decideLoop_districts (n : Nat) : (decideLoop n p).districts = p.districts := by
  induction n generalizing p with
  | zero => rfl
  | succ n ih => unfold decideLoop; (repeat' split) <;> simp [ih]
@[simp] theorem f_decideLoop_trace (n : Nat) : (decideLoop n p).trace = p.trace := by
  induction n generalizing p with
  | zero => rfl
  | succ n ih => unfold decideLoop; (repeat' split) <;> simp [ih]
@[simp] theorem f_decideLoop_plans (n : Nat) : (decideLoop n p).plans = p.plans := by
  induction n generalizing p with
  | zero => rfl
  | succ n ih => unfold decideLoop; (repeat' split) <;> simp [ih]
@[simp] theorem f_decideLoop_register (n : Nat) : (decideLoop n p).register = p.register := by
  induction n generalizing p with
  | zero => rfl
  | succ n ih => unfold decideLoop; (repeat' split) <;> simp [ih]
@[simp] theorem f_decideLoop_outages (n : Nat) : (decideLoop n p).outages = p.outages := by
  induction n generalizing p with
  | zero => rfl
  | succ n ih => unfold decideLoop; (repeat' split) <;> simp [ih]
@[simp] theorem f_decideLoop_panel (n : Nat) : (decideLoop n p).panel = p.panel := by
  induction n generalizing p with
  | zero => rfl
  | succ n ih => unfold decideLoop; (repeat' split) <;> simp [ih]

/-! ### dispatchDecide -/

@[simp] theorem f_dispatchDecide_clock : (dispatchDecide p).clock = p.clock := by
  unfold dispatchDecide; (repeat' split) <;> simp
@[simp] theorem f_dispatchDecide_lines : (dispatchDecide p).lines = p.lines := by
  unfold dispatchDecide; (repeat' split) <;> simp
@[simp] theorem f_dispatchDecide_outstations : (dispatchDecide p).outstations = p.outstations := by
  unfold dispatchDecide; (repeat' split) <;> simp
@[simp] theorem f_dispatchDecide_points : (dispatchDecide p).points = p.points := by
  unfold dispatchDecide; (repeat' split) <;> simp
@[simp] theorem f_dispatchDecide_segments : (dispatchDecide p).segments = p.segments := by
  unfold dispatchDecide; (repeat' split) <;> simp
@[simp] theorem f_dispatchDecide_valves : (dispatchDecide p).valves = p.valves := by
  unfold dispatchDecide; (repeat' split) <;> simp
@[simp] theorem f_dispatchDecide_feeds : (dispatchDecide p).feeds = p.feeds := by
  unfold dispatchDecide; (repeat' split) <;> simp
@[simp] theorem f_dispatchDecide_districts : (dispatchDecide p).districts = p.districts := by
  unfold dispatchDecide; (repeat' split) <;> simp
@[simp] theorem f_dispatchDecide_trace : (dispatchDecide p).trace = p.trace := by
  unfold dispatchDecide; (repeat' split) <;> simp
@[simp] theorem f_dispatchDecide_plans : (dispatchDecide p).plans = p.plans := by
  unfold dispatchDecide; (repeat' split) <;> simp
@[simp] theorem f_dispatchDecide_register : (dispatchDecide p).register = p.register := by
  unfold dispatchDecide; (repeat' split) <;> simp
@[simp] theorem f_dispatchDecide_outages : (dispatchDecide p).outages = p.outages := by
  unfold dispatchDecide; (repeat' split) <;> simp
@[simp] theorem f_dispatchDecide_panel : (dispatchDecide p).panel = p.panel := by
  unfold dispatchDecide; (repeat' split) <;> simp

/-! ### putIncident -/

@[simp] theorem f_putIncident_clock (i : Nat) (x : Incident) : (putIncident i x p).clock = p.clock := rfl
@[simp] theorem f_putIncident_link (i : Nat) (x : Incident) : (putIncident i x p).link = p.link := rfl
@[simp] theorem f_putIncident_lines (i : Nat) (x : Incident) : (putIncident i x p).lines = p.lines := rfl
@[simp] theorem f_putIncident_outstations (i : Nat) (x : Incident) : (putIncident i x p).outstations = p.outstations := rfl
@[simp] theorem f_putIncident_points (i : Nat) (x : Incident) : (putIncident i x p).points = p.points := rfl
@[simp] theorem f_putIncident_segments (i : Nat) (x : Incident) : (putIncident i x p).segments = p.segments := rfl
@[simp] theorem f_putIncident_valves (i : Nat) (x : Incident) : (putIncident i x p).valves = p.valves := rfl
@[simp] theorem f_putIncident_feeds (i : Nat) (x : Incident) : (putIncident i x p).feeds = p.feeds := rfl
@[simp] theorem f_putIncident_districts (i : Nat) (x : Incident) : (putIncident i x p).districts = p.districts := rfl
@[simp] theorem f_putIncident_trace (i : Nat) (x : Incident) : (putIncident i x p).trace = p.trace := rfl
@[simp] theorem f_putIncident_plans (i : Nat) (x : Incident) : (putIncident i x p).plans = p.plans := rfl
@[simp] theorem f_putIncident_dispatch (i : Nat) (x : Incident) : (putIncident i x p).dispatch = p.dispatch := rfl
@[simp] theorem f_putIncident_outages (i : Nat) (x : Incident) : (putIncident i x p).outages = p.outages := rfl

/-! ### setIncidentState -/

@[simp] theorem f_setIncidentState_clock (i : Nat) (st : IncidentState) (c : IncidentCause) : (setIncidentState i st c p).clock = p.clock := by
  unfold setIncidentState; (repeat' split) <;> simp
@[simp] theorem f_setIncidentState_lines (i : Nat) (st : IncidentState) (c : IncidentCause) : (setIncidentState i st c p).lines = p.lines := by
  unfold setIncidentState; (repeat' split) <;> simp
@[simp] theorem f_setIncidentState_outstations (i : Nat) (st : IncidentState) (c : IncidentCause) : (setIncidentState i st c p).outstations = p.outstations := by
  unfold setIncidentState; (repeat' split) <;> simp
@[simp] theorem f_setIncidentState_points (i : Nat) (st : IncidentState) (c : IncidentCause) : (setIncidentState i st c p).points = p.points := by
  unfold setIncidentState; (repeat' split) <;> simp
@[simp] theorem f_setIncidentState_segments (i : Nat) (st : IncidentState) (c : IncidentCause) : (setIncidentState i st c p).segments = p.segments := by
  unfold setIncidentState; (repeat' split) <;> simp
@[simp] theorem f_setIncidentState_valves (i : Nat) (st : IncidentState) (c : IncidentCause) : (setIncidentState i st c p).valves = p.valves := by
  unfold setIncidentState; (repeat' split) <;> simp
@[simp] theorem f_setIncidentState_feeds (i : Nat) (st : IncidentState) (c : IncidentCause) : (setIncidentState i st c p).feeds = p.feeds := by
  unfold setIncidentState; (repeat' split) <;> simp
@[simp] theorem f_setIncidentState_districts (i : Nat) (st : IncidentState) (c : IncidentCause) : (setIncidentState i st c p).districts = p.districts := by
  unfold setIncidentState; (repeat' split) <;> simp
@[simp] theorem f_setIncidentState_trace (i : Nat) (st : IncidentState) (c : IncidentCause) : (setIncidentState i st c p).trace = p.trace := by
  unfold setIncidentState; (repeat' split) <;> simp
@[simp] theorem f_setIncidentState_plans (i : Nat) (st : IncidentState) (c : IncidentCause) : (setIncidentState i st c p).plans = p.plans := by
  unfold setIncidentState; (repeat' split) <;> simp
@[simp] theorem f_setIncidentState_dispatch (i : Nat) (st : IncidentState) (c : IncidentCause) : (setIncidentState i st c p).dispatch = p.dispatch := by
  unfold setIncidentState; (repeat' split) <;> simp
@[simp] theorem f_setIncidentState_outages (i : Nat) (st : IncidentState) (c : IncidentCause) : (setIncidentState i st c p).outages = p.outages := by
  unfold setIncidentState; (repeat' split) <;> simp

/-! ### makeSafe -/

@[simp] theorem f_makeSafe_clock (i : Nat) (c : IncidentCause) : (makeSafe i c p).clock = p.clock := by
  unfold makeSafe; split
  · rfl
  · dsimp only; split <;> simp
@[simp] theorem f_makeSafe_lines (i : Nat) (c : IncidentCause) : (makeSafe i c p).lines = p.lines := by
  unfold makeSafe; split
  · rfl
  · dsimp only; split <;> simp
@[simp] theorem f_makeSafe_outstations (i : Nat) (c : IncidentCause) : (makeSafe i c p).outstations = p.outstations := by
  unfold makeSafe; split
  · rfl
  · dsimp only; split <;> simp
@[simp] theorem f_makeSafe_points (i : Nat) (c : IncidentCause) : (makeSafe i c p).points = p.points := by
  unfold makeSafe; split
  · rfl
  · dsimp only; split <;> simp
@[simp] theorem f_makeSafe_segments (i : Nat) (c : IncidentCause) : (makeSafe i c p).segments = p.segments := by
  unfold makeSafe; split
  · rfl
  · dsimp only; split <;> simp
@[simp] theorem f_makeSafe_valves (i : Nat) (c : IncidentCause) : (makeSafe i c p).valves = p.valves := by
  unfold makeSafe; split
  · rfl
  · dsimp only; split <;> simp
@[simp] theorem f_makeSafe_feeds (i : Nat) (c : IncidentCause) : (makeSafe i c p).feeds = p.feeds := by
  unfold makeSafe; split
  · rfl
  · dsimp only; split <;> simp
@[simp] theorem f_makeSafe_districts (i : Nat) (c : IncidentCause) : (makeSafe i c p).districts = p.districts := by
  unfold makeSafe; split
  · rfl
  · dsimp only; split <;> simp
@[simp] theorem f_makeSafe_trace (i : Nat) (c : IncidentCause) : (makeSafe i c p).trace = p.trace := by
  unfold makeSafe; split
  · rfl
  · dsimp only; split <;> simp
@[simp] theorem f_makeSafe_plans (i : Nat) (c : IncidentCause) : (makeSafe i c p).plans = p.plans := by
  unfold makeSafe; split
  · rfl
  · dsimp only; split <;> simp
@[simp] theorem f_makeSafe_outages (i : Nat) (c : IncidentCause) : (makeSafe i c p).outages = p.outages := by
  unfold makeSafe; split
  · rfl
  · dsimp only; split <;> simp

/-! ### escalateAt -/

@[simp] theorem f_escalateAt_clock (i t : Nat) : (escalateAt i t p).clock = p.clock := by
  unfold escalateAt; (repeat' split) <;> simp
@[simp] theorem f_escalateAt_lines (i t : Nat) : (escalateAt i t p).lines = p.lines := by
  unfold escalateAt; (repeat' split) <;> simp
@[simp] theorem f_escalateAt_outstations (i t : Nat) : (escalateAt i t p).outstations = p.outstations := by
  unfold escalateAt; (repeat' split) <;> simp
@[simp] theorem f_escalateAt_points (i t : Nat) : (escalateAt i t p).points = p.points := by
  unfold escalateAt; (repeat' split) <;> simp
@[simp] theorem f_escalateAt_segments (i t : Nat) : (escalateAt i t p).segments = p.segments := by
  unfold escalateAt; (repeat' split) <;> simp
@[simp] theorem f_escalateAt_valves (i t : Nat) : (escalateAt i t p).valves = p.valves := by
  unfold escalateAt; (repeat' split) <;> simp
@[simp] theorem f_escalateAt_feeds (i t : Nat) : (escalateAt i t p).feeds = p.feeds := by
  unfold escalateAt; (repeat' split) <;> simp
@[simp] theorem f_escalateAt_districts (i t : Nat) : (escalateAt i t p).districts = p.districts := by
  unfold escalateAt; (repeat' split) <;> simp
@[simp] theorem f_escalateAt_trace (i t : Nat) : (escalateAt i t p).trace = p.trace := by
  unfold escalateAt; (repeat' split) <;> simp
@[simp] theorem f_escalateAt_plans (i t : Nat) : (escalateAt i t p).plans = p.plans := by
  unfold escalateAt; (repeat' split) <;> simp
@[simp] theorem f_escalateAt_dispatch (i t : Nat) : (escalateAt i t p).dispatch = p.dispatch := by
  unfold escalateAt; (repeat' split) <;> simp
@[simp] theorem f_escalateAt_outages (i t : Nat) : (escalateAt i t p).outages = p.outages := by
  unfold escalateAt; (repeat' split) <;> simp

/-! ### followDeadline -/

@[simp] theorem f_followDeadline_clock (i old : Nat) : (followDeadline i old p).clock = p.clock := by
  unfold followDeadline; (repeat' split) <;> simp
@[simp] theorem f_followDeadline_lines (i old : Nat) : (followDeadline i old p).lines = p.lines := by
  unfold followDeadline; (repeat' split) <;> simp
@[simp] theorem f_followDeadline_outstations (i old : Nat) : (followDeadline i old p).outstations = p.outstations := by
  unfold followDeadline; (repeat' split) <;> simp
@[simp] theorem f_followDeadline_points (i old : Nat) : (followDeadline i old p).points = p.points := by
  unfold followDeadline; (repeat' split) <;> simp
@[simp] theorem f_followDeadline_segments (i old : Nat) : (followDeadline i old p).segments = p.segments := by
  unfold followDeadline; (repeat' split) <;> simp
@[simp] theorem f_followDeadline_valves (i old : Nat) : (followDeadline i old p).valves = p.valves := by
  unfold followDeadline; (repeat' split) <;> simp
@[simp] theorem f_followDeadline_feeds (i old : Nat) : (followDeadline i old p).feeds = p.feeds := by
  unfold followDeadline; (repeat' split) <;> simp
@[simp] theorem f_followDeadline_districts (i old : Nat) : (followDeadline i old p).districts = p.districts := by
  unfold followDeadline; (repeat' split) <;> simp
@[simp] theorem f_followDeadline_trace (i old : Nat) : (followDeadline i old p).trace = p.trace := by
  unfold followDeadline; (repeat' split) <;> simp
@[simp] theorem f_followDeadline_plans (i old : Nat) : (followDeadline i old p).plans = p.plans := by
  unfold followDeadline; (repeat' split) <;> simp
@[simp] theorem f_followDeadline_dispatch (i old : Nat) : (followDeadline i old p).dispatch = p.dispatch := by
  unfold followDeadline; (repeat' split) <;> simp
@[simp] theorem f_followDeadline_outages (i old : Nat) : (followDeadline i old p).outages = p.outages := by
  unfold followDeadline; (repeat' split) <;> simp

/-! ### raiseGrade -/

@[simp] theorem f_raiseGrade_clock (i : Nat) (g : Grade) (c : UpgradeCause) (pt : Option Nat) : (raiseGrade i g c pt p).clock = p.clock := by
  unfold raiseGrade; (repeat' split) <;> simp
@[simp] theorem f_raiseGrade_lines (i : Nat) (g : Grade) (c : UpgradeCause) (pt : Option Nat) : (raiseGrade i g c pt p).lines = p.lines := by
  unfold raiseGrade; (repeat' split) <;> simp
@[simp] theorem f_raiseGrade_outstations (i : Nat) (g : Grade) (c : UpgradeCause) (pt : Option Nat) : (raiseGrade i g c pt p).outstations = p.outstations := by
  unfold raiseGrade; (repeat' split) <;> simp
@[simp] theorem f_raiseGrade_points (i : Nat) (g : Grade) (c : UpgradeCause) (pt : Option Nat) : (raiseGrade i g c pt p).points = p.points := by
  unfold raiseGrade; (repeat' split) <;> simp
@[simp] theorem f_raiseGrade_segments (i : Nat) (g : Grade) (c : UpgradeCause) (pt : Option Nat) : (raiseGrade i g c pt p).segments = p.segments := by
  unfold raiseGrade; (repeat' split) <;> simp
@[simp] theorem f_raiseGrade_valves (i : Nat) (g : Grade) (c : UpgradeCause) (pt : Option Nat) : (raiseGrade i g c pt p).valves = p.valves := by
  unfold raiseGrade; (repeat' split) <;> simp
@[simp] theorem f_raiseGrade_feeds (i : Nat) (g : Grade) (c : UpgradeCause) (pt : Option Nat) : (raiseGrade i g c pt p).feeds = p.feeds := by
  unfold raiseGrade; (repeat' split) <;> simp
@[simp] theorem f_raiseGrade_districts (i : Nat) (g : Grade) (c : UpgradeCause) (pt : Option Nat) : (raiseGrade i g c pt p).districts = p.districts := by
  unfold raiseGrade; (repeat' split) <;> simp
@[simp] theorem f_raiseGrade_trace (i : Nat) (g : Grade) (c : UpgradeCause) (pt : Option Nat) : (raiseGrade i g c pt p).trace = p.trace := by
  unfold raiseGrade; (repeat' split) <;> simp
@[simp] theorem f_raiseGrade_plans (i : Nat) (g : Grade) (c : UpgradeCause) (pt : Option Nat) : (raiseGrade i g c pt p).plans = p.plans := by
  unfold raiseGrade; (repeat' split) <;> simp
@[simp] theorem f_raiseGrade_dispatch (i : Nat) (g : Grade) (c : UpgradeCause) (pt : Option Nat) : (raiseGrade i g c pt p).dispatch = p.dispatch := by
  unfold raiseGrade; (repeat' split) <;> simp
@[simp] theorem f_raiseGrade_outages (i : Nat) (g : Grade) (c : UpgradeCause) (pt : Option Nat) : (raiseGrade i g c pt p).outages = p.outages := by
  unfold raiseGrade; (repeat' split) <;> simp

/-! ### bringForward -/

@[simp] theorem f_bringForward_clock (i : Nat) : (bringForward i p).clock = p.clock := by
  unfold bringForward; (repeat' split) <;> simp
@[simp] theorem f_bringForward_lines (i : Nat) : (bringForward i p).lines = p.lines := by
  unfold bringForward; (repeat' split) <;> simp
@[simp] theorem f_bringForward_outstations (i : Nat) : (bringForward i p).outstations = p.outstations := by
  unfold bringForward; (repeat' split) <;> simp
@[simp] theorem f_bringForward_points (i : Nat) : (bringForward i p).points = p.points := by
  unfold bringForward; (repeat' split) <;> simp
@[simp] theorem f_bringForward_segments (i : Nat) : (bringForward i p).segments = p.segments := by
  unfold bringForward; (repeat' split) <;> simp
@[simp] theorem f_bringForward_valves (i : Nat) : (bringForward i p).valves = p.valves := by
  unfold bringForward; (repeat' split) <;> simp
@[simp] theorem f_bringForward_feeds (i : Nat) : (bringForward i p).feeds = p.feeds := by
  unfold bringForward; (repeat' split) <;> simp
@[simp] theorem f_bringForward_districts (i : Nat) : (bringForward i p).districts = p.districts := by
  unfold bringForward; (repeat' split) <;> simp
@[simp] theorem f_bringForward_trace (i : Nat) : (bringForward i p).trace = p.trace := by
  unfold bringForward; (repeat' split) <;> simp
@[simp] theorem f_bringForward_plans (i : Nat) : (bringForward i p).plans = p.plans := by
  unfold bringForward; (repeat' split) <;> simp
@[simp] theorem f_bringForward_dispatch (i : Nat) : (bringForward i p).dispatch = p.dispatch := by
  unfold bringForward; (repeat' split) <;> simp
@[simp] theorem f_bringForward_outages (i : Nat) : (bringForward i p).outages = p.outages := by
  unfold bringForward; (repeat' split) <;> simp

/-! ### pressureConfirm -/

@[simp] theorem f_pressureConfirm_clock (s pt : Nat) : (pressureConfirm s pt p).clock = p.clock := by
  unfold pressureConfirm; (repeat' split) <;> simp
@[simp] theorem f_pressureConfirm_lines (s pt : Nat) : (pressureConfirm s pt p).lines = p.lines := by
  unfold pressureConfirm; (repeat' split) <;> simp
@[simp] theorem f_pressureConfirm_outstations (s pt : Nat) : (pressureConfirm s pt p).outstations = p.outstations := by
  unfold pressureConfirm; (repeat' split) <;> simp
@[simp] theorem f_pressureConfirm_points (s pt : Nat) : (pressureConfirm s pt p).points = p.points := by
  unfold pressureConfirm; (repeat' split) <;> simp
@[simp] theorem f_pressureConfirm_segments (s pt : Nat) : (pressureConfirm s pt p).segments = p.segments := by
  unfold pressureConfirm; (repeat' split) <;> simp
@[simp] theorem f_pressureConfirm_valves (s pt : Nat) : (pressureConfirm s pt p).valves = p.valves := by
  unfold pressureConfirm; (repeat' split) <;> simp
@[simp] theorem f_pressureConfirm_feeds (s pt : Nat) : (pressureConfirm s pt p).feeds = p.feeds := by
  unfold pressureConfirm; (repeat' split) <;> simp
@[simp] theorem f_pressureConfirm_districts (s pt : Nat) : (pressureConfirm s pt p).districts = p.districts := by
  unfold pressureConfirm; (repeat' split) <;> simp
@[simp] theorem f_pressureConfirm_trace (s pt : Nat) : (pressureConfirm s pt p).trace = p.trace := by
  unfold pressureConfirm; (repeat' split) <;> simp
@[simp] theorem f_pressureConfirm_plans (s pt : Nat) : (pressureConfirm s pt p).plans = p.plans := by
  unfold pressureConfirm; (repeat' split) <;> simp
@[simp] theorem f_pressureConfirm_dispatch (s pt : Nat) : (pressureConfirm s pt p).dispatch = p.dispatch := by
  unfold pressureConfirm; (repeat' split) <;> simp
@[simp] theorem f_pressureConfirm_outages (s pt : Nat) : (pressureConfirm s pt p).outages = p.outages := by
  unfold pressureConfirm; (repeat' split) <;> simp

/-! ### setPlanState -/

@[simp] theorem f_setPlanState_clock (i : Nat) (st : PlanState) (v : Option Nat) : (setPlanState i st v p).clock = p.clock := by
  unfold setPlanState; (repeat' split) <;> simp
@[simp] theorem f_setPlanState_lines (i : Nat) (st : PlanState) (v : Option Nat) : (setPlanState i st v p).lines = p.lines := by
  unfold setPlanState; (repeat' split) <;> simp
@[simp] theorem f_setPlanState_outstations (i : Nat) (st : PlanState) (v : Option Nat) : (setPlanState i st v p).outstations = p.outstations := by
  unfold setPlanState; (repeat' split) <;> simp
@[simp] theorem f_setPlanState_points (i : Nat) (st : PlanState) (v : Option Nat) : (setPlanState i st v p).points = p.points := by
  unfold setPlanState; (repeat' split) <;> simp
@[simp] theorem f_setPlanState_segments (i : Nat) (st : PlanState) (v : Option Nat) : (setPlanState i st v p).segments = p.segments := by
  unfold setPlanState; (repeat' split) <;> simp
@[simp] theorem f_setPlanState_valves (i : Nat) (st : PlanState) (v : Option Nat) : (setPlanState i st v p).valves = p.valves := by
  unfold setPlanState; (repeat' split) <;> simp
@[simp] theorem f_setPlanState_feeds (i : Nat) (st : PlanState) (v : Option Nat) : (setPlanState i st v p).feeds = p.feeds := by
  unfold setPlanState; (repeat' split) <;> simp
@[simp] theorem f_setPlanState_districts (i : Nat) (st : PlanState) (v : Option Nat) : (setPlanState i st v p).districts = p.districts := by
  unfold setPlanState; (repeat' split) <;> simp
@[simp] theorem f_setPlanState_trace (i : Nat) (st : PlanState) (v : Option Nat) : (setPlanState i st v p).trace = p.trace := by
  unfold setPlanState; (repeat' split) <;> simp
@[simp] theorem f_setPlanState_register (i : Nat) (st : PlanState) (v : Option Nat) : (setPlanState i st v p).register = p.register := by
  unfold setPlanState; (repeat' split) <;> simp
@[simp] theorem f_setPlanState_dispatch (i : Nat) (st : PlanState) (v : Option Nat) : (setPlanState i st v p).dispatch = p.dispatch := by
  unfold setPlanState; (repeat' split) <;> simp
@[simp] theorem f_setPlanState_outages (i : Nat) (st : PlanState) (v : Option Nat) : (setPlanState i st v p).outages = p.outages := by
  unfold setPlanState; (repeat' split) <;> simp
@[simp] theorem f_setPlanState_panel (i : Nat) (st : PlanState) (v : Option Nat) : (setPlanState i st v p).panel = p.panel := by
  unfold setPlanState; (repeat' split) <;> simp

/-! ### freePlan -/

@[simp] theorem f_freePlan_clock (i : Nat) : (freePlan i p).clock = p.clock := by
  unfold freePlan; split
  · rfl
  · dsimp only; (repeat' split) <;> simp
@[simp] theorem f_freePlan_lines (i : Nat) : (freePlan i p).lines = p.lines := by
  unfold freePlan; split
  · rfl
  · dsimp only; (repeat' split) <;> simp
@[simp] theorem f_freePlan_outstations (i : Nat) : (freePlan i p).outstations = p.outstations := by
  unfold freePlan; split
  · rfl
  · dsimp only; (repeat' split) <;> simp
@[simp] theorem f_freePlan_points (i : Nat) : (freePlan i p).points = p.points := by
  unfold freePlan; split
  · rfl
  · dsimp only; (repeat' split) <;> simp
@[simp] theorem f_freePlan_segments (i : Nat) : (freePlan i p).segments = p.segments := by
  unfold freePlan; split
  · rfl
  · dsimp only; (repeat' split) <;> simp
@[simp] theorem f_freePlan_valves (i : Nat) : (freePlan i p).valves = p.valves := by
  unfold freePlan; split
  · rfl
  · dsimp only; (repeat' split) <;> simp
@[simp] theorem f_freePlan_feeds (i : Nat) : (freePlan i p).feeds = p.feeds := by
  unfold freePlan; split
  · rfl
  · dsimp only; (repeat' split) <;> simp
@[simp] theorem f_freePlan_districts (i : Nat) : (freePlan i p).districts = p.districts := by
  unfold freePlan; split
  · rfl
  · dsimp only; (repeat' split) <;> simp
@[simp] theorem f_freePlan_trace (i : Nat) : (freePlan i p).trace = p.trace := by
  unfold freePlan; split
  · rfl
  · dsimp only; (repeat' split) <;> simp
@[simp] theorem f_freePlan_dispatch (i : Nat) : (freePlan i p).dispatch = p.dispatch := by
  unfold freePlan; split
  · rfl
  · dsimp only; (repeat' split) <;> simp
@[simp] theorem f_freePlan_outages (i : Nat) : (freePlan i p).outages = p.outages := by
  unfold freePlan; split
  · rfl
  · dsimp only; (repeat' split) <;> simp

/-! ### snoop -/

@[simp] theorem f_snoop_clock (vs : List Nat) (e : Option Nat) : (snoop vs e p).clock = p.clock := by
  unfold snoop
  rw [foldl_keeps (fun p => p.clock) _ (fun q a => by simp) _ _]
  split <;> rfl
@[simp] theorem f_snoop_lines (vs : List Nat) (e : Option Nat) : (snoop vs e p).lines = p.lines := by
  unfold snoop
  rw [foldl_keeps (fun p => p.lines) _ (fun q a => by simp) _ _]
  split <;> rfl
@[simp] theorem f_snoop_outstations (vs : List Nat) (e : Option Nat) : (snoop vs e p).outstations = p.outstations := by
  unfold snoop
  rw [foldl_keeps (fun p => p.outstations) _ (fun q a => by simp) _ _]
  split <;> rfl
@[simp] theorem f_snoop_points (vs : List Nat) (e : Option Nat) : (snoop vs e p).points = p.points := by
  unfold snoop
  rw [foldl_keeps (fun p => p.points) _ (fun q a => by simp) _ _]
  split <;> rfl
@[simp] theorem f_snoop_segments (vs : List Nat) (e : Option Nat) : (snoop vs e p).segments = p.segments := by
  unfold snoop
  rw [foldl_keeps (fun p => p.segments) _ (fun q a => by simp) _ _]
  split <;> rfl
@[simp] theorem f_snoop_valves (vs : List Nat) (e : Option Nat) : (snoop vs e p).valves = p.valves := by
  unfold snoop
  rw [foldl_keeps (fun p => p.valves) _ (fun q a => by simp) _ _]
  split <;> rfl
@[simp] theorem f_snoop_feeds (vs : List Nat) (e : Option Nat) : (snoop vs e p).feeds = p.feeds := by
  unfold snoop
  rw [foldl_keeps (fun p => p.feeds) _ (fun q a => by simp) _ _]
  split <;> rfl
@[simp] theorem f_snoop_districts (vs : List Nat) (e : Option Nat) : (snoop vs e p).districts = p.districts := by
  unfold snoop
  rw [foldl_keeps (fun p => p.districts) _ (fun q a => by simp) _ _]
  split <;> rfl
@[simp] theorem f_snoop_register (vs : List Nat) (e : Option Nat) : (snoop vs e p).register = p.register := by
  unfold snoop
  rw [foldl_keeps (fun p => p.register) _ (fun q a => by simp) _ _]
  split <;> rfl
@[simp] theorem f_snoop_dispatch (vs : List Nat) (e : Option Nat) : (snoop vs e p).dispatch = p.dispatch := by
  unfold snoop
  rw [foldl_keeps (fun p => p.dispatch) _ (fun q a => by simp) _ _]
  split <;> rfl
@[simp] theorem f_snoop_outages (vs : List Nat) (e : Option Nat) : (snoop vs e p).outages = p.outages := by
  unfold snoop
  rw [foldl_keeps (fun p => p.outages) _ (fun q a => by simp) _ _]
  split <;> rfl
@[simp] theorem f_snoop_panel (vs : List Nat) (e : Option Nat) : (snoop vs e p).panel = p.panel := by
  unfold snoop
  rw [foldl_keeps (fun p => p.panel) _ (fun q a => by simp) _ _]
  split <;> rfl

/-! ### setOpState -/

@[simp] theorem f_setOpState_clock (v : Nat) (st : OpState) (e : Option Nat) : (setOpState v st e p).clock = p.clock := rfl
@[simp] theorem f_setOpState_link (v : Nat) (st : OpState) (e : Option Nat) : (setOpState v st e p).link = p.link := rfl
@[simp] theorem f_setOpState_lines (v : Nat) (st : OpState) (e : Option Nat) : (setOpState v st e p).lines = p.lines := rfl
@[simp] theorem f_setOpState_outstations (v : Nat) (st : OpState) (e : Option Nat) : (setOpState v st e p).outstations = p.outstations := rfl
@[simp] theorem f_setOpState_points (v : Nat) (st : OpState) (e : Option Nat) : (setOpState v st e p).points = p.points := rfl
@[simp] theorem f_setOpState_segments (v : Nat) (st : OpState) (e : Option Nat) : (setOpState v st e p).segments = p.segments := rfl
@[simp] theorem f_setOpState_feeds (v : Nat) (st : OpState) (e : Option Nat) : (setOpState v st e p).feeds = p.feeds := rfl
@[simp] theorem f_setOpState_districts (v : Nat) (st : OpState) (e : Option Nat) : (setOpState v st e p).districts = p.districts := rfl
@[simp] theorem f_setOpState_trace (v : Nat) (st : OpState) (e : Option Nat) : (setOpState v st e p).trace = p.trace := rfl
@[simp] theorem f_setOpState_plans (v : Nat) (st : OpState) (e : Option Nat) : (setOpState v st e p).plans = p.plans := rfl
@[simp] theorem f_setOpState_register (v : Nat) (st : OpState) (e : Option Nat) : (setOpState v st e p).register = p.register := rfl
@[simp] theorem f_setOpState_dispatch (v : Nat) (st : OpState) (e : Option Nat) : (setOpState v st e p).dispatch = p.dispatch := rfl
@[simp] theorem f_setOpState_outages (v : Nat) (st : OpState) (e : Option Nat) : (setOpState v st e p).outages = p.outages := rfl
@[simp] theorem f_setOpState_panel (v : Nat) (st : OpState) (e : Option Nat) : (setOpState v st e p).panel = p.panel := rfl

/-! ### finishOp -/

@[simp] theorem f_finishOp_clock (v : Nat) : (finishOp v p).clock = p.clock := by
  unfold finishOp; split
  · rfl
  · dsimp only; split <;> simp
@[simp] theorem f_finishOp_lines (v : Nat) : (finishOp v p).lines = p.lines := by
  unfold finishOp; split
  · rfl
  · dsimp only; split <;> simp
@[simp] theorem f_finishOp_outstations (v : Nat) : (finishOp v p).outstations = p.outstations := by
  unfold finishOp; split
  · rfl
  · dsimp only; split <;> simp
@[simp] theorem f_finishOp_points (v : Nat) : (finishOp v p).points = p.points := by
  unfold finishOp; split
  · rfl
  · dsimp only; split <;> simp
@[simp] theorem f_finishOp_segments (v : Nat) : (finishOp v p).segments = p.segments := by
  unfold finishOp; split
  · rfl
  · dsimp only; split <;> simp
@[simp] theorem f_finishOp_feeds (v : Nat) : (finishOp v p).feeds = p.feeds := by
  unfold finishOp; split
  · rfl
  · dsimp only; split <;> simp
@[simp] theorem f_finishOp_districts (v : Nat) : (finishOp v p).districts = p.districts := by
  unfold finishOp; split
  · rfl
  · dsimp only; split <;> simp
@[simp] theorem f_finishOp_trace (v : Nat) : (finishOp v p).trace = p.trace := by
  unfold finishOp; split
  · rfl
  · dsimp only; split <;> simp
@[simp] theorem f_finishOp_plans (v : Nat) : (finishOp v p).plans = p.plans := by
  unfold finishOp; split
  · rfl
  · dsimp only; split <;> simp
@[simp] theorem f_finishOp_register (v : Nat) : (finishOp v p).register = p.register := by
  unfold finishOp; split
  · rfl
  · dsimp only; split <;> simp
@[simp] theorem f_finishOp_outages (v : Nat) : (finishOp v p).outages = p.outages := by
  unfold finishOp; split
  · rfl
  · dsimp only; split <;> simp
@[simp] theorem f_finishOp_panel (v : Nat) : (finishOp v p).panel = p.panel := by
  unfold finishOp; split
  · rfl
  · dsimp only; split <;> simp

/-! ### failOp -/

@[simp] theorem f_failOp_clock (v : Nat) (r : OpFailure) : (failOp v r p).clock = p.clock := by
  unfold failOp; split
  · rfl
  · dsimp only; split <;> simp
@[simp] theorem f_failOp_lines (v : Nat) (r : OpFailure) : (failOp v r p).lines = p.lines := by
  unfold failOp; split
  · rfl
  · dsimp only; split <;> simp
@[simp] theorem f_failOp_outstations (v : Nat) (r : OpFailure) : (failOp v r p).outstations = p.outstations := by
  unfold failOp; split
  · rfl
  · dsimp only; split <;> simp
@[simp] theorem f_failOp_points (v : Nat) (r : OpFailure) : (failOp v r p).points = p.points := by
  unfold failOp; split
  · rfl
  · dsimp only; split <;> simp
@[simp] theorem f_failOp_segments (v : Nat) (r : OpFailure) : (failOp v r p).segments = p.segments := by
  unfold failOp; split
  · rfl
  · dsimp only; split <;> simp
@[simp] theorem f_failOp_feeds (v : Nat) (r : OpFailure) : (failOp v r p).feeds = p.feeds := by
  unfold failOp; split
  · rfl
  · dsimp only; split <;> simp
@[simp] theorem f_failOp_districts (v : Nat) (r : OpFailure) : (failOp v r p).districts = p.districts := by
  unfold failOp; split
  · rfl
  · dsimp only; split <;> simp
@[simp] theorem f_failOp_trace (v : Nat) (r : OpFailure) : (failOp v r p).trace = p.trace := by
  unfold failOp; split
  · rfl
  · dsimp only; split <;> simp
@[simp] theorem f_failOp_plans (v : Nat) (r : OpFailure) : (failOp v r p).plans = p.plans := by
  unfold failOp; split
  · rfl
  · dsimp only; split <;> simp
@[simp] theorem f_failOp_register (v : Nat) (r : OpFailure) : (failOp v r p).register = p.register := by
  unfold failOp; split
  · rfl
  · dsimp only; split <;> simp
@[simp] theorem f_failOp_outages (v : Nat) (r : OpFailure) : (failOp v r p).outages = p.outages := by
  unfold failOp; split
  · rfl
  · dsimp only; split <;> simp
@[simp] theorem f_failOp_panel (v : Nat) (r : OpFailure) : (failOp v r p).panel = p.panel := by
  unfold failOp; split
  · rfl
  · dsimp only; split <;> simp

/-! ### cancelOp -/

@[simp] theorem f_cancelOp_clock (v : Nat) : (cancelOp v p).clock = p.clock := by
  unfold cancelOp; split
  · rfl
  · split
    · dsimp only; split <;> simp
    · rfl
@[simp] theorem f_cancelOp_points (v : Nat) : (cancelOp v p).points = p.points := by
  unfold cancelOp; split
  · rfl
  · split
    · dsimp only; split <;> simp
    · rfl
@[simp] theorem f_cancelOp_segments (v : Nat) : (cancelOp v p).segments = p.segments := by
  unfold cancelOp; split
  · rfl
  · split
    · dsimp only; split <;> simp
    · rfl
@[simp] theorem f_cancelOp_feeds (v : Nat) : (cancelOp v p).feeds = p.feeds := by
  unfold cancelOp; split
  · rfl
  · split
    · dsimp only; split <;> simp
    · rfl
@[simp] theorem f_cancelOp_districts (v : Nat) : (cancelOp v p).districts = p.districts := by
  unfold cancelOp; split
  · rfl
  · split
    · dsimp only; split <;> simp
    · rfl
@[simp] theorem f_cancelOp_trace (v : Nat) : (cancelOp v p).trace = p.trace := by
  unfold cancelOp; split
  · rfl
  · split
    · dsimp only; split <;> simp
    · rfl
@[simp] theorem f_cancelOp_plans (v : Nat) : (cancelOp v p).plans = p.plans := by
  unfold cancelOp; split
  · rfl
  · split
    · dsimp only; split <;> simp
    · rfl
@[simp] theorem f_cancelOp_register (v : Nat) : (cancelOp v p).register = p.register := by
  unfold cancelOp; split
  · rfl
  · split
    · dsimp only; split <;> simp
    · rfl
@[simp] theorem f_cancelOp_outages (v : Nat) : (cancelOp v p).outages = p.outages := by
  unfold cancelOp; split
  · rfl
  · split
    · dsimp only; split <;> simp
    · rfl
@[simp] theorem f_cancelOp_panel (v : Nat) : (cancelOp v p).panel = p.panel := by
  unfold cancelOp; split
  · rfl
  · split
    · dsimp only; split <;> simp
    · rfl

/-! ### orderOp -/

@[simp] theorem f_orderOp_clock (v : Nat) (a : Action) (o : Origin) : (orderOp v a o p).clock = p.clock := by
  unfold orderOp; split
  · rfl
  · dsimp only; (repeat' split) <;> simp
@[simp] theorem f_orderOp_points (v : Nat) (a : Action) (o : Origin) : (orderOp v a o p).points = p.points := by
  unfold orderOp; split
  · rfl
  · dsimp only; (repeat' split) <;> simp
@[simp] theorem f_orderOp_segments (v : Nat) (a : Action) (o : Origin) : (orderOp v a o p).segments = p.segments := by
  unfold orderOp; split
  · rfl
  · dsimp only; (repeat' split) <;> simp
@[simp] theorem f_orderOp_feeds (v : Nat) (a : Action) (o : Origin) : (orderOp v a o p).feeds = p.feeds := by
  unfold orderOp; split
  · rfl
  · dsimp only; (repeat' split) <;> simp
@[simp] theorem f_orderOp_districts (v : Nat) (a : Action) (o : Origin) : (orderOp v a o p).districts = p.districts := by
  unfold orderOp; split
  · rfl
  · dsimp only; (repeat' split) <;> simp
@[simp] theorem f_orderOp_trace (v : Nat) (a : Action) (o : Origin) : (orderOp v a o p).trace = p.trace := by
  unfold orderOp; split
  · rfl
  · dsimp only; (repeat' split) <;> simp
@[simp] theorem f_orderOp_plans (v : Nat) (a : Action) (o : Origin) : (orderOp v a o p).plans = p.plans := by
  unfold orderOp; split
  · rfl
  · dsimp only; (repeat' split) <;> simp
@[simp] theorem f_orderOp_register (v : Nat) (a : Action) (o : Origin) : (orderOp v a o p).register = p.register := by
  unfold orderOp; split
  · rfl
  · dsimp only; (repeat' split) <;> simp
@[simp] theorem f_orderOp_outages (v : Nat) (a : Action) (o : Origin) : (orderOp v a o p).outages = p.outages := by
  unfold orderOp; split
  · rfl
  · dsimp only; (repeat' split) <;> simp
@[simp] theorem f_orderOp_panel (v : Nat) (a : Action) (o : Origin) : (orderOp v a o p).panel = p.panel := by
  unfold orderOp; split
  · rfl
  · dsimp only; (repeat' split) <;> simp

/-! ### cancelPending -/

@[simp] theorem f_cancelPending_clock (i : Nat) : (cancelPending i p).clock = p.clock := by
  unfold cancelPending; (repeat' split) <;> simp [foldl_keeps (fun p => p.clock) (fun p v => cancelOp v p) (fun q a => by simp)]
@[simp] theorem f_cancelPending_points (i : Nat) : (cancelPending i p).points = p.points := by
  unfold cancelPending; (repeat' split) <;> simp [foldl_keeps (fun p => p.points) (fun p v => cancelOp v p) (fun q a => by simp)]
@[simp] theorem f_cancelPending_segments (i : Nat) : (cancelPending i p).segments = p.segments := by
  unfold cancelPending; (repeat' split) <;> simp [foldl_keeps (fun p => p.segments) (fun p v => cancelOp v p) (fun q a => by simp)]
@[simp] theorem f_cancelPending_feeds (i : Nat) : (cancelPending i p).feeds = p.feeds := by
  unfold cancelPending; (repeat' split) <;> simp [foldl_keeps (fun p => p.feeds) (fun p v => cancelOp v p) (fun q a => by simp)]
@[simp] theorem f_cancelPending_districts (i : Nat) : (cancelPending i p).districts = p.districts := by
  unfold cancelPending; (repeat' split) <;> simp [foldl_keeps (fun p => p.districts) (fun p v => cancelOp v p) (fun q a => by simp)]
@[simp] theorem f_cancelPending_trace (i : Nat) : (cancelPending i p).trace = p.trace := by
  unfold cancelPending; (repeat' split) <;> simp [foldl_keeps (fun p => p.trace) (fun p v => cancelOp v p) (fun q a => by simp)]
@[simp] theorem f_cancelPending_outages (i : Nat) : (cancelPending i p).outages = p.outages := by
  unfold cancelPending; (repeat' split) <;> simp [foldl_keeps (fun p => p.outages) (fun p v => cancelOp v p) (fun q a => by simp)]

/-! ### enterIsolated -/

@[simp] theorem f_enterIsolated_clock (i : Nat) : (enterIsolated i p).clock = p.clock := by
  unfold enterIsolated; dsimp only; (repeat' split) <;> simp
@[simp] theorem f_enterIsolated_points (i : Nat) : (enterIsolated i p).points = p.points := by
  unfold enterIsolated; dsimp only; (repeat' split) <;> simp
@[simp] theorem f_enterIsolated_segments (i : Nat) : (enterIsolated i p).segments = p.segments := by
  unfold enterIsolated; dsimp only; (repeat' split) <;> simp
@[simp] theorem f_enterIsolated_feeds (i : Nat) : (enterIsolated i p).feeds = p.feeds := by
  unfold enterIsolated; dsimp only; (repeat' split) <;> simp
@[simp] theorem f_enterIsolated_districts (i : Nat) : (enterIsolated i p).districts = p.districts := by
  unfold enterIsolated; dsimp only; (repeat' split) <;> simp
@[simp] theorem f_enterIsolated_trace (i : Nat) : (enterIsolated i p).trace = p.trace := by
  unfold enterIsolated; dsimp only; (repeat' split) <;> simp
@[simp] theorem f_enterIsolated_outages (i : Nat) : (enterIsolated i p).outages = p.outages := by
  unfold enterIsolated; dsimp only; (repeat' split) <;> simp

/-! ### isolationTest -/

@[simp] theorem f_isolationTest_clock (i : Nat) : (isolationTest i p).clock = p.clock := by
  unfold isolationTest; (repeat' split) <;> simp
@[simp] theorem f_isolationTest_points (i : Nat) : (isolationTest i p).points = p.points := by
  unfold isolationTest; (repeat' split) <;> simp
@[simp] theorem f_isolationTest_segments (i : Nat) : (isolationTest i p).segments = p.segments := by
  unfold isolationTest; (repeat' split) <;> simp
@[simp] theorem f_isolationTest_feeds (i : Nat) : (isolationTest i p).feeds = p.feeds := by
  unfold isolationTest; (repeat' split) <;> simp
@[simp] theorem f_isolationTest_districts (i : Nat) : (isolationTest i p).districts = p.districts := by
  unfold isolationTest; (repeat' split) <;> simp
@[simp] theorem f_isolationTest_trace (i : Nat) : (isolationTest i p).trace = p.trace := by
  unfold isolationTest; (repeat' split) <;> simp
@[simp] theorem f_isolationTest_outages (i : Nat) : (isolationTest i p).outages = p.outages := by
  unfold isolationTest; (repeat' split) <;> simp

/-! ### failureTest -/

@[simp] theorem f_failureTest_clock (i : Nat) (t : Touched) : (failureTest i t p).clock = p.clock := by
  unfold failureTest; (repeat' split) <;> simp
@[simp] theorem f_failureTest_lines (i : Nat) (t : Touched) : (failureTest i t p).lines = p.lines := by
  unfold failureTest; (repeat' split) <;> simp
@[simp] theorem f_failureTest_outstations (i : Nat) (t : Touched) : (failureTest i t p).outstations = p.outstations := by
  unfold failureTest; (repeat' split) <;> simp
@[simp] theorem f_failureTest_points (i : Nat) (t : Touched) : (failureTest i t p).points = p.points := by
  unfold failureTest; (repeat' split) <;> simp
@[simp] theorem f_failureTest_segments (i : Nat) (t : Touched) : (failureTest i t p).segments = p.segments := by
  unfold failureTest; (repeat' split) <;> simp
@[simp] theorem f_failureTest_valves (i : Nat) (t : Touched) : (failureTest i t p).valves = p.valves := by
  unfold failureTest; (repeat' split) <;> simp
@[simp] theorem f_failureTest_feeds (i : Nat) (t : Touched) : (failureTest i t p).feeds = p.feeds := by
  unfold failureTest; (repeat' split) <;> simp
@[simp] theorem f_failureTest_districts (i : Nat) (t : Touched) : (failureTest i t p).districts = p.districts := by
  unfold failureTest; (repeat' split) <;> simp
@[simp] theorem f_failureTest_trace (i : Nat) (t : Touched) : (failureTest i t p).trace = p.trace := by
  unfold failureTest; (repeat' split) <;> simp
@[simp] theorem f_failureTest_register (i : Nat) (t : Touched) : (failureTest i t p).register = p.register := by
  unfold failureTest; (repeat' split) <;> simp
@[simp] theorem f_failureTest_dispatch (i : Nat) (t : Touched) : (failureTest i t p).dispatch = p.dispatch := by
  unfold failureTest; (repeat' split) <;> simp
@[simp] theorem f_failureTest_outages (i : Nat) (t : Touched) : (failureTest i t p).outages = p.outages := by
  unfold failureTest; (repeat' split) <;> simp
@[simp] theorem f_failureTest_panel (i : Nat) (t : Touched) : (failureTest i t p).panel = p.panel := by
  unfold failureTest; (repeat' split) <;> simp

/-! ### breakTest -/

@[simp] theorem f_breakTest_clock (i v : Nat) : (breakTest i v p).clock = p.clock := by
  unfold breakTest; (repeat' split) <;> simp
@[simp] theorem f_breakTest_lines (i v : Nat) : (breakTest i v p).lines = p.lines := by
  unfold breakTest; (repeat' split) <;> simp
@[simp] theorem f_breakTest_outstations (i v : Nat) : (breakTest i v p).outstations = p.outstations := by
  unfold breakTest; (repeat' split) <;> simp
@[simp] theorem f_breakTest_points (i v : Nat) : (breakTest i v p).points = p.points := by
  unfold breakTest; (repeat' split) <;> simp
@[simp] theorem f_breakTest_segments (i v : Nat) : (breakTest i v p).segments = p.segments := by
  unfold breakTest; (repeat' split) <;> simp
@[simp] theorem f_breakTest_valves (i v : Nat) : (breakTest i v p).valves = p.valves := by
  unfold breakTest; (repeat' split) <;> simp
@[simp] theorem f_breakTest_feeds (i v : Nat) : (breakTest i v p).feeds = p.feeds := by
  unfold breakTest; (repeat' split) <;> simp
@[simp] theorem f_breakTest_districts (i v : Nat) : (breakTest i v p).districts = p.districts := by
  unfold breakTest; (repeat' split) <;> simp
@[simp] theorem f_breakTest_trace (i v : Nat) : (breakTest i v p).trace = p.trace := by
  unfold breakTest; (repeat' split) <;> simp
@[simp] theorem f_breakTest_register (i v : Nat) : (breakTest i v p).register = p.register := by
  unfold breakTest; (repeat' split) <;> simp
@[simp] theorem f_breakTest_dispatch (i v : Nat) : (breakTest i v p).dispatch = p.dispatch := by
  unfold breakTest; (repeat' split) <;> simp
@[simp] theorem f_breakTest_outages (i v : Nat) : (breakTest i v p).outages = p.outages := by
  unfold breakTest; (repeat' split) <;> simp
@[simp] theorem f_breakTest_panel (i v : Nat) : (breakTest i v p).panel = p.panel := by
  unfold breakTest; (repeat' split) <;> simp

/-! ### leaveReleaseOf -/

@[simp] theorem f_leaveReleaseOf_clock (i v : Nat) : (leaveReleaseOf i v p).clock = p.clock := by
  unfold leaveReleaseOf; dsimp only; (repeat' split) <;> simp
@[simp] theorem f_leaveReleaseOf_lines (i v : Nat) : (leaveReleaseOf i v p).lines = p.lines := by
  unfold leaveReleaseOf; dsimp only; (repeat' split) <;> simp
@[simp] theorem f_leaveReleaseOf_outstations (i v : Nat) : (leaveReleaseOf i v p).outstations = p.outstations := by
  unfold leaveReleaseOf; dsimp only; (repeat' split) <;> simp
@[simp] theorem f_leaveReleaseOf_points (i v : Nat) : (leaveReleaseOf i v p).points = p.points := by
  unfold leaveReleaseOf; dsimp only; (repeat' split) <;> simp
@[simp] theorem f_leaveReleaseOf_segments (i v : Nat) : (leaveReleaseOf i v p).segments = p.segments := by
  unfold leaveReleaseOf; dsimp only; (repeat' split) <;> simp
@[simp] theorem f_leaveReleaseOf_valves (i v : Nat) : (leaveReleaseOf i v p).valves = p.valves := by
  unfold leaveReleaseOf; dsimp only; (repeat' split) <;> simp
@[simp] theorem f_leaveReleaseOf_feeds (i v : Nat) : (leaveReleaseOf i v p).feeds = p.feeds := by
  unfold leaveReleaseOf; dsimp only; (repeat' split) <;> simp
@[simp] theorem f_leaveReleaseOf_districts (i v : Nat) : (leaveReleaseOf i v p).districts = p.districts := by
  unfold leaveReleaseOf; dsimp only; (repeat' split) <;> simp
@[simp] theorem f_leaveReleaseOf_trace (i v : Nat) : (leaveReleaseOf i v p).trace = p.trace := by
  unfold leaveReleaseOf; dsimp only; (repeat' split) <;> simp
@[simp] theorem f_leaveReleaseOf_dispatch (i v : Nat) : (leaveReleaseOf i v p).dispatch = p.dispatch := by
  unfold leaveReleaseOf; dsimp only; (repeat' split) <;> simp
@[simp] theorem f_leaveReleaseOf_outages (i v : Nat) : (leaveReleaseOf i v p).outages = p.outages := by
  unfold leaveReleaseOf; dsimp only; (repeat' split) <;> simp

/-! ### leaveReleases -/

@[simp] theorem f_leaveReleases_clock (v : Nat) (e : Option Nat) : (leaveReleases v e p).clock = p.clock := by
  exact foldl_keeps (fun p => p.clock) _ (fun q a => by simp) _ _
@[simp] theorem f_leaveReleases_lines (v : Nat) (e : Option Nat) : (leaveReleases v e p).lines = p.lines := by
  exact foldl_keeps (fun p => p.lines) _ (fun q a => by simp) _ _
@[simp] theorem f_leaveReleases_outstations (v : Nat) (e : Option Nat) : (leaveReleases v e p).outstations = p.outstations := by
  exact foldl_keeps (fun p => p.outstations) _ (fun q a => by simp) _ _
@[simp] theorem f_leaveReleases_points (v : Nat) (e : Option Nat) : (leaveReleases v e p).points = p.points := by
  exact foldl_keeps (fun p => p.points) _ (fun q a => by simp) _ _
@[simp] theorem f_leaveReleases_segments (v : Nat) (e : Option Nat) : (leaveReleases v e p).segments = p.segments := by
  exact foldl_keeps (fun p => p.segments) _ (fun q a => by simp) _ _
@[simp] theorem f_leaveReleases_valves (v : Nat) (e : Option Nat) : (leaveReleases v e p).valves = p.valves := by
  exact foldl_keeps (fun p => p.valves) _ (fun q a => by simp) _ _
@[simp] theorem f_leaveReleases_feeds (v : Nat) (e : Option Nat) : (leaveReleases v e p).feeds = p.feeds := by
  exact foldl_keeps (fun p => p.feeds) _ (fun q a => by simp) _ _
@[simp] theorem f_leaveReleases_districts (v : Nat) (e : Option Nat) : (leaveReleases v e p).districts = p.districts := by
  exact foldl_keeps (fun p => p.districts) _ (fun q a => by simp) _ _
@[simp] theorem f_leaveReleases_trace (v : Nat) (e : Option Nat) : (leaveReleases v e p).trace = p.trace := by
  exact foldl_keeps (fun p => p.trace) _ (fun q a => by simp) _ _
@[simp] theorem f_leaveReleases_dispatch (v : Nat) (e : Option Nat) : (leaveReleases v e p).dispatch = p.dispatch := by
  exact foldl_keeps (fun p => p.dispatch) _ (fun q a => by simp) _ _
@[simp] theorem f_leaveReleases_outages (v : Nat) (e : Option Nat) : (leaveReleases v e p).outages = p.outages := by
  exact foldl_keeps (fun p => p.outages) _ (fun q a => by simp) _ _

/-! ### testPlan -/

@[simp] theorem f_testPlan_clock (i : Nat) (t : Touched) : (testPlan i t p).clock = p.clock := by
  simp [testPlan]
@[simp] theorem f_testPlan_points (i : Nat) (t : Touched) : (testPlan i t p).points = p.points := by
  simp [testPlan]
@[simp] theorem f_testPlan_segments (i : Nat) (t : Touched) : (testPlan i t p).segments = p.segments := by
  simp [testPlan]
@[simp] theorem f_testPlan_feeds (i : Nat) (t : Touched) : (testPlan i t p).feeds = p.feeds := by
  simp [testPlan]
@[simp] theorem f_testPlan_districts (i : Nat) (t : Touched) : (testPlan i t p).districts = p.districts := by
  simp [testPlan]
@[simp] theorem f_testPlan_trace (i : Nat) (t : Touched) : (testPlan i t p).trace = p.trace := by
  simp [testPlan]
@[simp] theorem f_testPlan_outages (i : Nat) (t : Touched) : (testPlan i t p).outages = p.outages := by
  simp [testPlan]

/-! ### courseOf -/

@[simp] theorem f_courseOf_clock (t : Touched) : (courseOf t p).clock = p.clock := by
  unfold courseOf
  rw [foldl_keeps (fun p => p.clock) _ (fun q a => by simp) _ _]
  (repeat' split) <;> simp
@[simp] theorem f_courseOf_points (t : Touched) : (courseOf t p).points = p.points := by
  unfold courseOf
  rw [foldl_keeps (fun p => p.points) _ (fun q a => by simp) _ _]
  (repeat' split) <;> simp
@[simp] theorem f_courseOf_segments (t : Touched) : (courseOf t p).segments = p.segments := by
  unfold courseOf
  rw [foldl_keeps (fun p => p.segments) _ (fun q a => by simp) _ _]
  (repeat' split) <;> simp
@[simp] theorem f_courseOf_feeds (t : Touched) : (courseOf t p).feeds = p.feeds := by
  unfold courseOf
  rw [foldl_keeps (fun p => p.feeds) _ (fun q a => by simp) _ _]
  (repeat' split) <;> simp
@[simp] theorem f_courseOf_districts (t : Touched) : (courseOf t p).districts = p.districts := by
  unfold courseOf
  rw [foldl_keeps (fun p => p.districts) _ (fun q a => by simp) _ _]
  (repeat' split) <;> simp
@[simp] theorem f_courseOf_trace (t : Touched) : (courseOf t p).trace = p.trace := by
  unfold courseOf
  rw [foldl_keeps (fun p => p.trace) _ (fun q a => by simp) _ _]
  (repeat' split) <;> simp
@[simp] theorem f_courseOf_outages (t : Touched) : (courseOf t p).outages = p.outages := by
  unfold courseOf
  rw [foldl_keeps (fun p => p.outages) _ (fun q a => by simp) _ _]
  (repeat' split) <;> simp

/-! ### planCourse -/

@[simp] theorem f_planCourse_clock (ts : List Touched) : (planCourse ts p).clock = p.clock := by
  exact foldl_keeps (fun p => p.clock) _ (fun q a => by simp) _ _
@[simp] theorem f_planCourse_points (ts : List Touched) : (planCourse ts p).points = p.points := by
  exact foldl_keeps (fun p => p.points) _ (fun q a => by simp) _ _
@[simp] theorem f_planCourse_segments (ts : List Touched) : (planCourse ts p).segments = p.segments := by
  exact foldl_keeps (fun p => p.segments) _ (fun q a => by simp) _ _
@[simp] theorem f_planCourse_feeds (ts : List Touched) : (planCourse ts p).feeds = p.feeds := by
  exact foldl_keeps (fun p => p.feeds) _ (fun q a => by simp) _ _
@[simp] theorem f_planCourse_districts (ts : List Touched) : (planCourse ts p).districts = p.districts := by
  exact foldl_keeps (fun p => p.districts) _ (fun q a => by simp) _ _
@[simp] theorem f_planCourse_trace (ts : List Touched) : (planCourse ts p).trace = p.trace := by
  exact foldl_keeps (fun p => p.trace) _ (fun q a => by simp) _ _
@[simp] theorem f_planCourse_outages (ts : List Touched) : (planCourse ts p).outages = p.outages := by
  exact foldl_keeps (fun p => p.outages) _ (fun q a => by simp) _ _

/-! ### writePosition -/

@[simp] theorem f_writePosition_clock (v : Nat) (pos : Position) (r : Option End) : ((writePosition v pos r p).1).clock = p.clock := by
  unfold writePosition; split
  · rfl
  · dsimp only; split <;> simp
@[simp] theorem f_writePosition_link (v : Nat) (pos : Position) (r : Option End) : ((writePosition v pos r p).1).link = p.link := by
  unfold writePosition; split
  · rfl
  · dsimp only; split <;> simp
@[simp] theorem f_writePosition_lines (v : Nat) (pos : Position) (r : Option End) : ((writePosition v pos r p).1).lines = p.lines := by
  unfold writePosition; split
  · rfl
  · dsimp only; split <;> simp
@[simp] theorem f_writePosition_outstations (v : Nat) (pos : Position) (r : Option End) : ((writePosition v pos r p).1).outstations = p.outstations := by
  unfold writePosition; split
  · rfl
  · dsimp only; split <;> simp
@[simp] theorem f_writePosition_points (v : Nat) (pos : Position) (r : Option End) : ((writePosition v pos r p).1).points = p.points := by
  unfold writePosition; split
  · rfl
  · dsimp only; split <;> simp
@[simp] theorem f_writePosition_segments (v : Nat) (pos : Position) (r : Option End) : ((writePosition v pos r p).1).segments = p.segments := by
  unfold writePosition; split
  · rfl
  · dsimp only; split <;> simp
@[simp] theorem f_writePosition_feeds (v : Nat) (pos : Position) (r : Option End) : ((writePosition v pos r p).1).feeds = p.feeds := by
  unfold writePosition; split
  · rfl
  · dsimp only; split <;> simp
@[simp] theorem f_writePosition_districts (v : Nat) (pos : Position) (r : Option End) : ((writePosition v pos r p).1).districts = p.districts := by
  unfold writePosition; split
  · rfl
  · dsimp only; split <;> simp
@[simp] theorem f_writePosition_plans (v : Nat) (pos : Position) (r : Option End) : ((writePosition v pos r p).1).plans = p.plans := by
  unfold writePosition; split
  · rfl
  · dsimp only; split <;> simp
@[simp] theorem f_writePosition_register (v : Nat) (pos : Position) (r : Option End) : ((writePosition v pos r p).1).register = p.register := by
  unfold writePosition; split
  · rfl
  · dsimp only; split <;> simp
@[simp] theorem f_writePosition_dispatch (v : Nat) (pos : Position) (r : Option End) : ((writePosition v pos r p).1).dispatch = p.dispatch := by
  unfold writePosition; split
  · rfl
  · dsimp only; split <;> simp
@[simp] theorem f_writePosition_outages (v : Nat) (pos : Position) (r : Option End) : ((writePosition v pos r p).1).outages = p.outages := by
  unfold writePosition; split
  · rfl
  · dsimp only; split <;> simp
@[simp] theorem f_writePosition_panel (v : Nat) (pos : Position) (r : Option End) : ((writePosition v pos r p).1).panel = p.panel := by
  unfold writePosition; split
  · rfl
  · dsimp only; split <;> simp

/-! ### opEndReport -/

@[simp] theorem f_opEndReport_clock (v : Nat) (e : End) : (opEndReport v e p).clock = p.clock := by
  unfold opEndReport; (repeat' split) <;> simp
@[simp] theorem f_opEndReport_lines (v : Nat) (e : End) : (opEndReport v e p).lines = p.lines := by
  unfold opEndReport; (repeat' split) <;> simp
@[simp] theorem f_opEndReport_outstations (v : Nat) (e : End) : (opEndReport v e p).outstations = p.outstations := by
  unfold opEndReport; (repeat' split) <;> simp
@[simp] theorem f_opEndReport_points (v : Nat) (e : End) : (opEndReport v e p).points = p.points := by
  unfold opEndReport; (repeat' split) <;> simp
@[simp] theorem f_opEndReport_segments (v : Nat) (e : End) : (opEndReport v e p).segments = p.segments := by
  unfold opEndReport; (repeat' split) <;> simp
@[simp] theorem f_opEndReport_feeds (v : Nat) (e : End) : (opEndReport v e p).feeds = p.feeds := by
  unfold opEndReport; (repeat' split) <;> simp
@[simp] theorem f_opEndReport_districts (v : Nat) (e : End) : (opEndReport v e p).districts = p.districts := by
  unfold opEndReport; (repeat' split) <;> simp
@[simp] theorem f_opEndReport_trace (v : Nat) (e : End) : (opEndReport v e p).trace = p.trace := by
  unfold opEndReport; (repeat' split) <;> simp
@[simp] theorem f_opEndReport_plans (v : Nat) (e : End) : (opEndReport v e p).plans = p.plans := by
  unfold opEndReport; (repeat' split) <;> simp
@[simp] theorem f_opEndReport_register (v : Nat) (e : End) : (opEndReport v e p).register = p.register := by
  unfold opEndReport; (repeat' split) <;> simp
@[simp] theorem f_opEndReport_outages (v : Nat) (e : End) : (opEndReport v e p).outages = p.outages := by
  unfold opEndReport; (repeat' split) <;> simp
@[simp] theorem f_opEndReport_panel (v : Nat) (e : End) : (opEndReport v e p).panel = p.panel := by
  unfold opEndReport; (repeat' split) <;> simp

/-! ### opSeizedReport -/

@[simp] theorem f_opSeizedReport_clock (v : Nat) : ((opSeizedReport v p).1).clock = p.clock := by
  unfold opSeizedReport; (repeat' split) <;> simp
@[simp] theorem f_opSeizedReport_lines (v : Nat) : ((opSeizedReport v p).1).lines = p.lines := by
  unfold opSeizedReport; (repeat' split) <;> simp
@[simp] theorem f_opSeizedReport_outstations (v : Nat) : ((opSeizedReport v p).1).outstations = p.outstations := by
  unfold opSeizedReport; (repeat' split) <;> simp
@[simp] theorem f_opSeizedReport_points (v : Nat) : ((opSeizedReport v p).1).points = p.points := by
  unfold opSeizedReport; (repeat' split) <;> simp
@[simp] theorem f_opSeizedReport_segments (v : Nat) : ((opSeizedReport v p).1).segments = p.segments := by
  unfold opSeizedReport; (repeat' split) <;> simp
@[simp] theorem f_opSeizedReport_feeds (v : Nat) : ((opSeizedReport v p).1).feeds = p.feeds := by
  unfold opSeizedReport; (repeat' split) <;> simp
@[simp] theorem f_opSeizedReport_districts (v : Nat) : ((opSeizedReport v p).1).districts = p.districts := by
  unfold opSeizedReport; (repeat' split) <;> simp
@[simp] theorem f_opSeizedReport_trace (v : Nat) : ((opSeizedReport v p).1).trace = p.trace := by
  unfold opSeizedReport; (repeat' split) <;> simp
@[simp] theorem f_opSeizedReport_plans (v : Nat) : ((opSeizedReport v p).1).plans = p.plans := by
  unfold opSeizedReport; (repeat' split) <;> simp
@[simp] theorem f_opSeizedReport_register (v : Nat) : ((opSeizedReport v p).1).register = p.register := by
  unfold opSeizedReport; (repeat' split) <;> simp
@[simp] theorem f_opSeizedReport_outages (v : Nat) : ((opSeizedReport v p).1).outages = p.outages := by
  unfold opSeizedReport; (repeat' split) <;> simp
@[simp] theorem f_opSeizedReport_panel (v : Nat) : ((opSeizedReport v p).1).panel = p.panel := by
  unfold opSeizedReport; (repeat' split) <;> simp

/-! ### changeInoperable -/

@[simp] theorem f_changeInoperable_clock (v : Nat) (b : Bool) (c : Cause) : (changeInoperable v b c p).clock = p.clock := by
  unfold changeInoperable; split
  · rfl
  · split <;> simp
@[simp] theorem f_changeInoperable_lines (v : Nat) (b : Bool) (c : Cause) : (changeInoperable v b c p).lines = p.lines := by
  unfold changeInoperable; split
  · rfl
  · split <;> simp
@[simp] theorem f_changeInoperable_outstations (v : Nat) (b : Bool) (c : Cause) : (changeInoperable v b c p).outstations = p.outstations := by
  unfold changeInoperable; split
  · rfl
  · split <;> simp
@[simp] theorem f_changeInoperable_points (v : Nat) (b : Bool) (c : Cause) : (changeInoperable v b c p).points = p.points := by
  unfold changeInoperable; split
  · rfl
  · split <;> simp
@[simp] theorem f_changeInoperable_feeds (v : Nat) (b : Bool) (c : Cause) : (changeInoperable v b c p).feeds = p.feeds := by
  unfold changeInoperable; split
  · rfl
  · split <;> simp
@[simp] theorem f_changeInoperable_districts (v : Nat) (b : Bool) (c : Cause) : (changeInoperable v b c p).districts = p.districts := by
  unfold changeInoperable; split
  · rfl
  · split <;> simp
@[simp] theorem f_changeInoperable_register (v : Nat) (b : Bool) (c : Cause) : (changeInoperable v b c p).register = p.register := by
  unfold changeInoperable; split
  · rfl
  · split <;> simp
@[simp] theorem f_changeInoperable_dispatch (v : Nat) (b : Bool) (c : Cause) : (changeInoperable v b c p).dispatch = p.dispatch := by
  unfold changeInoperable; split
  · rfl
  · split <;> simp
@[simp] theorem f_changeInoperable_outages (v : Nat) (b : Bool) (c : Cause) : (changeInoperable v b c p).outages = p.outages := by
  unfold changeInoperable; split
  · rfl
  · split <;> simp
@[simp] theorem f_changeInoperable_panel (v : Nat) (b : Bool) (c : Cause) : (changeInoperable v b c p).panel = p.panel := by
  unfold changeInoperable; split
  · rfl
  · split <;> simp

/-! ### losePositions -/

@[simp] theorem f_losePositions_clock (os : Nat) : (losePositions os p).clock = p.clock := rfl
@[simp] theorem f_losePositions_link (os : Nat) : (losePositions os p).link = p.link := rfl
@[simp] theorem f_losePositions_lines (os : Nat) : (losePositions os p).lines = p.lines := rfl
@[simp] theorem f_losePositions_outstations (os : Nat) : (losePositions os p).outstations = p.outstations := rfl
@[simp] theorem f_losePositions_points (os : Nat) : (losePositions os p).points = p.points := rfl
@[simp] theorem f_losePositions_segments (os : Nat) : (losePositions os p).segments = p.segments := rfl
@[simp] theorem f_losePositions_feeds (os : Nat) : (losePositions os p).feeds = p.feeds := rfl
@[simp] theorem f_losePositions_districts (os : Nat) : (losePositions os p).districts = p.districts := rfl
@[simp] theorem f_losePositions_trace (os : Nat) : (losePositions os p).trace = p.trace := rfl
@[simp] theorem f_losePositions_plans (os : Nat) : (losePositions os p).plans = p.plans := rfl
@[simp] theorem f_losePositions_register (os : Nat) : (losePositions os p).register = p.register := rfl
@[simp] theorem f_losePositions_dispatch (os : Nat) : (losePositions os p).dispatch = p.dispatch := rfl
@[simp] theorem f_losePositions_outages (os : Nat) : (losePositions os p).outages = p.outages := rfl
@[simp] theorem f_losePositions_panel (os : Nat) : (losePositions os p).panel = p.panel := rfl

/-! ### writeLiveness -/

@[simp] theorem f_writeLiveness_clock (f : Nat) : (writeLiveness f p).clock = p.clock := by
  unfold writeLiveness; split
  · rfl
  · dsimp only; split <;> simp
@[simp] theorem f_writeLiveness_link (f : Nat) : (writeLiveness f p).link = p.link := by
  unfold writeLiveness; split
  · rfl
  · dsimp only; split <;> simp
@[simp] theorem f_writeLiveness_lines (f : Nat) : (writeLiveness f p).lines = p.lines := by
  unfold writeLiveness; split
  · rfl
  · dsimp only; split <;> simp
@[simp] theorem f_writeLiveness_outstations (f : Nat) : (writeLiveness f p).outstations = p.outstations := by
  unfold writeLiveness; split
  · rfl
  · dsimp only; split <;> simp
@[simp] theorem f_writeLiveness_points (f : Nat) : (writeLiveness f p).points = p.points := by
  unfold writeLiveness; split
  · rfl
  · dsimp only; split <;> simp
@[simp] theorem f_writeLiveness_segments (f : Nat) : (writeLiveness f p).segments = p.segments := by
  unfold writeLiveness; split
  · rfl
  · dsimp only; split <;> simp
@[simp] theorem f_writeLiveness_valves (f : Nat) : (writeLiveness f p).valves = p.valves := by
  unfold writeLiveness; split
  · rfl
  · dsimp only; split <;> simp
@[simp] theorem f_writeLiveness_districts (f : Nat) : (writeLiveness f p).districts = p.districts := by
  unfold writeLiveness; split
  · rfl
  · dsimp only; split <;> simp
@[simp] theorem f_writeLiveness_plans (f : Nat) : (writeLiveness f p).plans = p.plans := by
  unfold writeLiveness; split
  · rfl
  · dsimp only; split <;> simp
@[simp] theorem f_writeLiveness_register (f : Nat) : (writeLiveness f p).register = p.register := by
  unfold writeLiveness; split
  · rfl
  · dsimp only; split <;> simp
@[simp] theorem f_writeLiveness_dispatch (f : Nat) : (writeLiveness f p).dispatch = p.dispatch := by
  unfold writeLiveness; split
  · rfl
  · dsimp only; split <;> simp
@[simp] theorem f_writeLiveness_outages (f : Nat) : (writeLiveness f p).outages = p.outages := by
  unfold writeLiveness; split
  · rfl
  · dsimp only; split <;> simp
@[simp] theorem f_writeLiveness_panel (f : Nat) : (writeLiveness f p).panel = p.panel := by
  unfold writeLiveness; split
  · rfl
  · dsimp only; split <;> simp

/-! ### putOutage -/

@[simp] theorem f_putOutage_clock (i : Nat) (x : Outage) : (putOutage i x p).clock = p.clock := rfl
@[simp] theorem f_putOutage_link (i : Nat) (x : Outage) : (putOutage i x p).link = p.link := rfl
@[simp] theorem f_putOutage_lines (i : Nat) (x : Outage) : (putOutage i x p).lines = p.lines := rfl
@[simp] theorem f_putOutage_outstations (i : Nat) (x : Outage) : (putOutage i x p).outstations = p.outstations := rfl
@[simp] theorem f_putOutage_points (i : Nat) (x : Outage) : (putOutage i x p).points = p.points := rfl
@[simp] theorem f_putOutage_segments (i : Nat) (x : Outage) : (putOutage i x p).segments = p.segments := rfl
@[simp] theorem f_putOutage_valves (i : Nat) (x : Outage) : (putOutage i x p).valves = p.valves := rfl
@[simp] theorem f_putOutage_feeds (i : Nat) (x : Outage) : (putOutage i x p).feeds = p.feeds := rfl
@[simp] theorem f_putOutage_districts (i : Nat) (x : Outage) : (putOutage i x p).districts = p.districts := rfl
@[simp] theorem f_putOutage_trace (i : Nat) (x : Outage) : (putOutage i x p).trace = p.trace := rfl
@[simp] theorem f_putOutage_plans (i : Nat) (x : Outage) : (putOutage i x p).plans = p.plans := rfl
@[simp] theorem f_putOutage_register (i : Nat) (x : Outage) : (putOutage i x p).register = p.register := rfl
@[simp] theorem f_putOutage_dispatch (i : Nat) (x : Outage) : (putOutage i x p).dispatch = p.dispatch := rfl

/-! ### setSupply -/

@[simp] theorem f_setSupply_clock (i : Nat) (st : SupplyState) : (setSupply i st p).clock = p.clock := rfl
@[simp] theorem f_setSupply_link (i : Nat) (st : SupplyState) : (setSupply i st p).link = p.link := rfl
@[simp] theorem f_setSupply_lines (i : Nat) (st : SupplyState) : (setSupply i st p).lines = p.lines := rfl
@[simp] theorem f_setSupply_outstations (i : Nat) (st : SupplyState) : (setSupply i st p).outstations = p.outstations := rfl
@[simp] theorem f_setSupply_points (i : Nat) (st : SupplyState) : (setSupply i st p).points = p.points := rfl
@[simp] theorem f_setSupply_valves (i : Nat) (st : SupplyState) : (setSupply i st p).valves = p.valves := rfl
@[simp] theorem f_setSupply_feeds (i : Nat) (st : SupplyState) : (setSupply i st p).feeds = p.feeds := rfl
@[simp] theorem f_setSupply_districts (i : Nat) (st : SupplyState) : (setSupply i st p).districts = p.districts := rfl
@[simp] theorem f_setSupply_trace (i : Nat) (st : SupplyState) : (setSupply i st p).trace = p.trace := rfl
@[simp] theorem f_setSupply_plans (i : Nat) (st : SupplyState) : (setSupply i st p).plans = p.plans := rfl
@[simp] theorem f_setSupply_register (i : Nat) (st : SupplyState) : (setSupply i st p).register = p.register := rfl
@[simp] theorem f_setSupply_dispatch (i : Nat) (st : SupplyState) : (setSupply i st p).dispatch = p.dispatch := rfl
@[simp] theorem f_setSupply_outages (i : Nat) (st : SupplyState) : (setSupply i st p).outages = p.outages := rfl
@[simp] theorem f_setSupply_panel (i : Nat) (st : SupplyState) : (setSupply i st p).panel = p.panel := rfl

/-! ### endOutage -/

@[simp] theorem f_endOutage_clock (i : Nat) : (endOutage i p).clock = p.clock := by
  unfold endOutage; (repeat' split) <;> simp
@[simp] theorem f_endOutage_lines (i : Nat) : (endOutage i p).lines = p.lines := by
  unfold endOutage; (repeat' split) <;> simp
@[simp] theorem f_endOutage_outstations (i : Nat) : (endOutage i p).outstations = p.outstations := by
  unfold endOutage; (repeat' split) <;> simp
@[simp] theorem f_endOutage_points (i : Nat) : (endOutage i p).points = p.points := by
  unfold endOutage; (repeat' split) <;> simp
@[simp] theorem f_endOutage_segments (i : Nat) : (endOutage i p).segments = p.segments := by
  unfold endOutage; (repeat' split) <;> simp
@[simp] theorem f_endOutage_valves (i : Nat) : (endOutage i p).valves = p.valves := by
  unfold endOutage; (repeat' split) <;> simp
@[simp] theorem f_endOutage_feeds (i : Nat) : (endOutage i p).feeds = p.feeds := by
  unfold endOutage; (repeat' split) <;> simp
@[simp] theorem f_endOutage_districts (i : Nat) : (endOutage i p).districts = p.districts := by
  unfold endOutage; (repeat' split) <;> simp
@[simp] theorem f_endOutage_trace (i : Nat) : (endOutage i p).trace = p.trace := by
  unfold endOutage; (repeat' split) <;> simp
@[simp] theorem f_endOutage_plans (i : Nat) : (endOutage i p).plans = p.plans := by
  unfold endOutage; (repeat' split) <;> simp
@[simp] theorem f_endOutage_register (i : Nat) : (endOutage i p).register = p.register := by
  unfold endOutage; (repeat' split) <;> simp
@[simp] theorem f_endOutage_dispatch (i : Nat) : (endOutage i p).dispatch = p.dispatch := by
  unfold endOutage; (repeat' split) <;> simp

/-! ### loseMember -/

@[simp] theorem f_loseMember_clock (i r : Nat) : (loseMember i r p).clock = p.clock := by
  unfold loseMember; (repeat' split) <;> simp
@[simp] theorem f_loseMember_link (i r : Nat) : (loseMember i r p).link = p.link := by
  unfold loseMember; (repeat' split) <;> simp
@[simp] theorem f_loseMember_lines (i r : Nat) : (loseMember i r p).lines = p.lines := by
  unfold loseMember; (repeat' split) <;> simp
@[simp] theorem f_loseMember_outstations (i r : Nat) : (loseMember i r p).outstations = p.outstations := by
  unfold loseMember; (repeat' split) <;> simp
@[simp] theorem f_loseMember_points (i r : Nat) : (loseMember i r p).points = p.points := by
  unfold loseMember; (repeat' split) <;> simp
@[simp] theorem f_loseMember_segments (i r : Nat) : (loseMember i r p).segments = p.segments := by
  unfold loseMember; (repeat' split) <;> simp
@[simp] theorem f_loseMember_valves (i r : Nat) : (loseMember i r p).valves = p.valves := by
  unfold loseMember; (repeat' split) <;> simp
@[simp] theorem f_loseMember_feeds (i r : Nat) : (loseMember i r p).feeds = p.feeds := by
  unfold loseMember; (repeat' split) <;> simp
@[simp] theorem f_loseMember_districts (i r : Nat) : (loseMember i r p).districts = p.districts := by
  unfold loseMember; (repeat' split) <;> simp
@[simp] theorem f_loseMember_trace (i r : Nat) : (loseMember i r p).trace = p.trace := by
  unfold loseMember; (repeat' split) <;> simp
@[simp] theorem f_loseMember_plans (i r : Nat) : (loseMember i r p).plans = p.plans := by
  unfold loseMember; (repeat' split) <;> simp
@[simp] theorem f_loseMember_register (i r : Nat) : (loseMember i r p).register = p.register := by
  unfold loseMember; (repeat' split) <;> simp
@[simp] theorem f_loseMember_dispatch (i r : Nat) : (loseMember i r p).dispatch = p.dispatch := by
  unfold loseMember; (repeat' split) <;> simp

/-! ### restoreSegment -/

@[simp] theorem f_restoreSegment_clock (seg : Nat) : (restoreSegment seg p).clock = p.clock := by
  unfold restoreSegment; split
  · rfl
  · dsimp only; (repeat' split) <;> simp
@[simp] theorem f_restoreSegment_lines (seg : Nat) : (restoreSegment seg p).lines = p.lines := by
  unfold restoreSegment; split
  · rfl
  · dsimp only; (repeat' split) <;> simp
@[simp] theorem f_restoreSegment_outstations (seg : Nat) : (restoreSegment seg p).outstations = p.outstations := by
  unfold restoreSegment; split
  · rfl
  · dsimp only; (repeat' split) <;> simp
@[simp] theorem f_restoreSegment_points (seg : Nat) : (restoreSegment seg p).points = p.points := by
  unfold restoreSegment; split
  · rfl
  · dsimp only; (repeat' split) <;> simp
@[simp] theorem f_restoreSegment_valves (seg : Nat) : (restoreSegment seg p).valves = p.valves := by
  unfold restoreSegment; split
  · rfl
  · dsimp only; (repeat' split) <;> simp
@[simp] theorem f_restoreSegment_feeds (seg : Nat) : (restoreSegment seg p).feeds = p.feeds := by
  unfold restoreSegment; split
  · rfl
  · dsimp only; (repeat' split) <;> simp
@[simp] theorem f_restoreSegment_trace (seg : Nat) : (restoreSegment seg p).trace = p.trace := by
  unfold restoreSegment; split
  · rfl
  · dsimp only; (repeat' split) <;> simp
@[simp] theorem f_restoreSegment_plans (seg : Nat) : (restoreSegment seg p).plans = p.plans := by
  unfold restoreSegment; split
  · rfl
  · dsimp only; (repeat' split) <;> simp
@[simp] theorem f_restoreSegment_register (seg : Nat) : (restoreSegment seg p).register = p.register := by
  unfold restoreSegment; split
  · rfl
  · dsimp only; (repeat' split) <;> simp

/-! ### setSuspect -/

@[simp] theorem f_setSuspect_clock (seg : Nat) (b : Bool) : (setSuspect seg b p).clock = p.clock := by
  unfold setSuspect; simp
@[simp] theorem f_setSuspect_lines (seg : Nat) (b : Bool) : (setSuspect seg b p).lines = p.lines := by
  unfold setSuspect; simp
@[simp] theorem f_setSuspect_outstations (seg : Nat) (b : Bool) : (setSuspect seg b p).outstations = p.outstations := by
  unfold setSuspect; simp
@[simp] theorem f_setSuspect_points (seg : Nat) (b : Bool) : (setSuspect seg b p).points = p.points := by
  unfold setSuspect; simp
@[simp] theorem f_setSuspect_valves (seg : Nat) (b : Bool) : (setSuspect seg b p).valves = p.valves := by
  unfold setSuspect; simp
@[simp] theorem f_setSuspect_feeds (seg : Nat) (b : Bool) : (setSuspect seg b p).feeds = p.feeds := by
  unfold setSuspect; simp
@[simp] theorem f_setSuspect_trace (seg : Nat) (b : Bool) : (setSuspect seg b p).trace = p.trace := by
  unfold setSuspect; simp
@[simp] theorem f_setSuspect_plans (seg : Nat) (b : Bool) : (setSuspect seg b p).plans = p.plans := by
  unfold setSuspect; simp
@[simp] theorem f_setSuspect_register (seg : Nat) (b : Bool) : (setSuspect seg b p).register = p.register := by
  unfold setSuspect; simp
@[simp] theorem f_setSuspect_dispatch (seg : Nat) (b : Bool) : (setSuspect seg b p).dispatch = p.dispatch := by
  unfold setSuspect; simp
@[simp] theorem f_setSuspect_outages (seg : Nat) (b : Bool) : (setSuspect seg b p).outages = p.outages := by
  unfold setSuspect; simp

/-! ### noGasCall -/

@[simp] theorem f_noGasCall_clock (seg : Nat) : (noGasCall seg p).clock = p.clock := by
  unfold noGasCall; dsimp only; (repeat' split) <;> simp
@[simp] theorem f_noGasCall_lines (seg : Nat) : (noGasCall seg p).lines = p.lines := by
  unfold noGasCall; dsimp only; (repeat' split) <;> simp
@[simp] theorem f_noGasCall_outstations (seg : Nat) : (noGasCall seg p).outstations = p.outstations := by
  unfold noGasCall; dsimp only; (repeat' split) <;> simp
@[simp] theorem f_noGasCall_points (seg : Nat) : (noGasCall seg p).points = p.points := by
  unfold noGasCall; dsimp only; (repeat' split) <;> simp
@[simp] theorem f_noGasCall_valves (seg : Nat) : (noGasCall seg p).valves = p.valves := by
  unfold noGasCall; dsimp only; (repeat' split) <;> simp
@[simp] theorem f_noGasCall_feeds (seg : Nat) : (noGasCall seg p).feeds = p.feeds := by
  unfold noGasCall; dsimp only; (repeat' split) <;> simp
@[simp] theorem f_noGasCall_trace (seg : Nat) : (noGasCall seg p).trace = p.trace := by
  unfold noGasCall; dsimp only; (repeat' split) <;> simp
@[simp] theorem f_noGasCall_plans (seg : Nat) : (noGasCall seg p).plans = p.plans := by
  unfold noGasCall; dsimp only; (repeat' split) <;> simp
@[simp] theorem f_noGasCall_register (seg : Nat) : (noGasCall seg p).register = p.register := by
  unfold noGasCall; dsimp only; (repeat' split) <;> simp
@[simp] theorem f_noGasCall_dispatch (seg : Nat) : (noGasCall seg p).dispatch = p.dispatch := by
  unfold noGasCall; dsimp only; (repeat' split) <;> simp

end Sys2Proof.Laws
end

