-- ==== Sys2Proof/WellFormed.lean ====
section
/-!
DEFINITION. Which commands the outside can send: a body fits a frame (01, section 1.2), a line, point, valve, incident
or crew number is one the part has (00, Identifiers).
-/

namespace Sys2Proof

/-- The longest body of a control link frame, 1,020 bytes (01, section 1.2). -/
def bodyFits (body : List Byte) : Bool := body.length ≤ 1020

/-- The operands of a command lie in the ranges of 00, Identifiers, and of 01, section 1.2. The kind of UNKNOWN_KIND
lies in 0x30–0x3F by its type. -/
def WellFormed : Instr → Bool
  | .powerOnReset _ _ _ => true
  | .frameReceived _ => true
  | .frameAbandoned _ _ => true
  | .receiveGapTimeout => true
  | .transmitEnd => true
  | .unknownKind _ _ body => bodyFits body
  | .status _ body => bodyFits body
  | .readTable _ body => bodyFits body
  | .readChanges _ body => bodyFits body
  | .setNotices _ body => bodyFits body
  | .restart _ body => bodyFits body
  | .beginLoad _ body => bodyFits body
  | .endLoad _ body => bodyFits body
  | .setLine _ body => bodyFits body
  | .defineOutstation _ body => bodyFits body
  | .definePoint _ body => bodyFits body
  | .defineDistrict _ body => bodyFits body
  | .defineSegment _ body => bodyFits body
  | .defineValve _ body => bodyFits body
  | .defineFeed _ body => bodyFits body
  | .defineCrew _ body => bodyFits body
  | .setResponse _ body => bodyFits body
  | .setDispatch _ body => bodyFits body
  | .holdLine _ body => bodyFits body
  | .freeLine _ body => bodyFits body
  | .ackPoint _ body => bodyFits body
  | .setBands _ body => bodyFits body
  | .editSegment _ body => bodyFits body
  | .editValve _ body => bodyFits body
  | .editFeed _ body => bodyFits body
  | .valveReport _ body => bodyFits body
  | .plan _ body => bodyFits body
  | .execute _ body => bodyFits body
  | .reissue _ body => bodyFits body
  | .abort _ body => bodyFits body
  | .release _ body => bodyFits body
  | .dropPlan _ body => bodyFits body
  | .operate _ body => bodyFits body
  | .call _ body => bodyFits body
  | .incidentUpdate _ body => bodyFits body
  | .crewState _ body => bodyFits body
  | .answerOffer _ body => bodyFits body
  | .assign _ body => bodyFits body
  | .crewReport _ body => bodyFits body
  | .purge _ body => bodyFits body
  | .relightReport _ body => bodyFits body
  | .dismiss _ body => bodyFits body
  | .clearSuspect _ body => bodyFits body
  | .lampForce _ body => bodyFits body
  | .lampTest _ body => bodyFits body
  | .silence _ body => bodyFits body
  | .setSupervision _ body => bodyFits body
  | .keepalive _ body => bodyFits body
  | .quietTimeEnd line => line < 4
  | .fieldFrameSent line => line < 4
  | .replyWindowExpiry line => line < 4
  | .replyGapTimeout line => line < 4
  | .fieldReplyReceived line _ _ => line < 4
  | .cyclePeriodExpiry line => line < 4
  | .rideThroughExpiry n => n < 256
  | .jobStart => true
  | .supplyTraceComplete => true
  | .planJobComplete => true
  | .travelExpiry n => n < 768
  | .escalation n => n < 128
  | .offerExpiry n => n < 48
  | .packAcknowledge => true
  | .lampTestExpiry => true
  | .keepaliveExpiry => true
  | .receivedByte _ _ => true
  | .fieldReplyByte line _ _ => line < 4
  | .packLowLevel => true
  | .packReturnHigh => true

end Sys2Proof
end

