-- ==== Sys2Proof/Tests/Slice0.lean ====
section
/-!
SUPPORT. Tests of the model's own: checks of well-formedness, values that the spec works out, and for each statement
with hypotheses a state and operands that meet them.
-/

namespace Sys2Proof.Tests

-- One at a time: each evaluation in the kernel waits on the declarations before it, and waiting ones hold a thread each.
set_option Elab.async false

open Sys2Proof Sys2Proof.Machine

/-! ## Well-formedness refuses what the outside cannot send -/

theorem test_wf_long_body : WellFormed (.status 0 (List.replicate 1021 0)) = false := by
  simp only [WellFormed, bodyFits, List.length_replicate]; decide
theorem test_wf_longest_body : WellFormed (.status 0 (List.replicate 1020 0)) = true := by
  simp only [WellFormed, bodyFits, List.length_replicate]; decide
theorem test_wf_line : WellFormed (.quietTimeEnd 4) = false := by decide
theorem test_wf_reply_line : WellFormed (.fieldReplyByte 4 0 false) = false := by decide
theorem test_wf_point : WellFormed (.rideThroughExpiry 256) = false := by decide
theorem test_wf_valve : WellFormed (.travelExpiry 768) = false := by decide
theorem test_wf_incident : WellFormed (.escalation 128) = false := by decide
theorem test_wf_crew : WellFormed (.offerExpiry 48) = false := by decide
theorem test_wf_crew_last : WellFormed (.offerExpiry 47) = true := by decide

/-- The rows of the table give no bits: no word spells a command. -/
theorem test_no_word (nbits w : Nat) : decodeTableWord nbits w = none := rfl

/-! ## Values that the spec works out -/

/-- 01, section 1.2: the check over 0x31 to 0x39. -/
theorem test_check_value : crc16 [0x31, 0x32, 0x33, 0x34, 0x35, 0x36, 0x37, 0x38, 0x39] = 0x29B1#16 := by decide +kernel

/-- The settings of the main of 03, section 3.6. -/
def coldMain : PressureSettings :=
  { z := 819, f := 4095, p0 := 0, p1 := 7500, k := 4, fallLimit := 100, l2 := 3600, l1 := 3800, h1 := 4600, h2 := 4800
    hyst := 50, rideThrough := 120 }

/-- Its state before part time 3,000. -/
def coldBefore : PressureState :=
  { value := some 3800, filter := 60800, filtered := some 3800
    history := [3900, 3880, 3860, 3845, 3830, 3820, 3810, 3800], falling := true }

/-- Its state after the samples of the table up to 3,090. -/
def coldAt (samples : List (Nat × Nat)) : PressureState :=
  samples.foldl (fun st e => (pressureSample coldMain e.1 .good st e.2).2) coldBefore

/-- 03, section 3.6, the row of 3,000. -/
theorem test_cold_first : coldAt [(3000, 2457)] =
    { value := some 3750, filter := 60600, filtered := some 3788
      history := [3880, 3860, 3845, 3830, 3820, 3810, 3800, 3788], falling := true
      candidate := some ⟨.low, 3000, 3120⟩ } := by decide +kernel

/-- 03, section 3.6, the row of 3,090: a step truncated toward zero on the way, and the candidate re-banded. -/
theorem test_cold_last : coldAt [(3000, 2457), (3030, 2400), (3060, 2300), (3090, 2300)] =
    { value := some 3391, filter := 57448, filtered := some 3591
      history := [3830, 3820, 3810, 3800, 3788, 3746, 3657, 3591], falling := true
      candidate := some ⟨.lowTrip, 3000, 3120⟩ } := by decide +kernel

/-- 03, section 3.6, the row of 3,121: easing does not pass L2 + h. -/
theorem test_cold_eases : easeTo coldMain .lowTrip 3630 = .lowTrip := by decide

/-- 03, section 3.6: 717 is the lowest GOOD count. -/
theorem test_cold_margin : (convert coldMain 717).1 = .good ∧ (convert coldMain 716).1 = .faultUnder := by decide +kernel

/-- R18: HELLO is on its way at the reset release, with number 0. -/
theorem test_reset_hello : State.reset.part.link.tx = some (.notice ⟨0, 0, .hello .power 19200⟩) := rfl

/-! ## A small town -/

/-- Settings with ordered bands. -/
def cfg : PressureSettings :=
  { z := 100, f := 4000, p0 := 0, p1 := 5000, k := 4, fallLimit := 0, l2 := 500, l1 := 1000, h1 := 4000, h2 := 4500
    hyst := 100, rideThrough := 30 }

/-- The state of a point that is riding through toward LOW_TRIP, its time come. -/
def riding : PressureState :=
  { value := some 400, filter := 6400, filtered := some 400, history := [400], candidate := some ⟨.lowTrip, 60, 90⟩ }

/-- A pressure point, no feed's outlet. -/
def pressurePoint : Point :=
  { outstation := 0, input := 0, district := 0, group := 0, quality := .good, body := .pressure none cfg riding }

/-- A discrete point with a pending edge. -/
def alarmPoint : Point :=
  { outstation := 0, input := 3, district := 0, group := 1, quality := .good
    body := .discrete { mode := .rise, debounce := 1, level := some true, pending := true } }

/-- An actuated valve from segment 0 to 1. -/
def valve0 : Valve :=
  { endA := 0, endB := 1, actuated := true, outstation := 1, slot := 0, normal := .opened, position := .opened
    lastEnd := .opened, travelLimit := 60 }

/-- A hand valve from segment 1 to 2. -/
def valve1 : Valve :=
  { endA := 1, endB := 2, actuated := false, outstation := 0, slot := 0, normal := .opened, position := .opened
    lastEnd := .opened, travelLimit := 60 }

/-- A segment of the town. -/
def segment (valves : List Nat) : Segment :=
  { district := 0, tier := .lp, customers := 10, priority := 1, valves := valves }

/-- An incident that waits for a crew. -/
def leak : Incident :=
  { kind := .leak, grade := .b, segment := some 1, district := 0, state := .opened, openedTime := 10, stateTime := 10
    deadline := 14410, nextEscalation := some 14410 }

/-- A plan that shuts segment 1 in. -/
def plan0 : Plan :=
  { state := .ready, target := 1, incident := none, requested := 50, stateTime := 60, area := [1], closeList := [0]
    holdList := [1] }

/-- An emergency crew. -/
def crew0 : Crew := { kind := .emergency, home := 0, state := .available }

/-- A fitter crew. -/
def crew1 : Crew := { kind := .fitter, home := 0, state := .offShift }

/-- The control link of the town: every class enabled, the transmitter busy with HELLO. -/
def townLink : Link :=
  { rate := 19200, resetCause := .power, seq := 1, enables := 0xFF, partState := .running
    tx := some (.notice (helloAt .power 19200)) }

/-- A running part 100 s after its reset. -/
def town : State where
  pending := []
  part :=
    { clock := 9600000
      link := townLink
      outstations := ⟨[(0, { kind := .station, comm := .online }), (1, { kind := .actuator, comm := .online })]⟩
      points := ⟨[(0, pressurePoint), (1, alarmPoint)]⟩
      segments := ⟨[(0, segment [0]), (1, segment [0, 1]), (2, segment [1])]⟩
      valves := ⟨[(0, valve0), (1, valve1)]⟩
      feeds := ⟨[(0, { segment := 0, outlet := none, inService := true, live := true })]⟩
      districts := ⟨[(0, { lamp := 0, openIncidents := 1 })]⟩
      plans := ⟨[(0, plan0)]⟩
      register := { incidents := ⟨[(0, leak)]⟩ }
      dispatch := { crews := ⟨[(0, crew0), (1, crew1)]⟩ } }

/-- The town with something changed. -/
def changed (f : Part → Part) : State := town.withPart (f town.part)

/-- The town with one line in a phase. -/
def lined (l : Line) : State := changed fun p => { p with lines := { p.lines with fl0 := l } }

/-- The town with its plan in a state. -/
def planned (f : Plan → Plan) : State := changed fun p => p.onPlan 0 f

/-- The town with an operation on a valve. -/
def operated (v : Nat) (o : Operation) : State := changed fun p => p.onValve v fun x => { x with operation := some o }

/-- The town while it is still loading. -/
def loadingTown : State := town.withLink { townLink with partState := .loading }

/-- The town unloaded, as after a reset. -/
def bare : State := ⟨[], Part.released .power 19200 0 0⟩

theorem town_ready : town.ready := ⟨rfl, rfl⟩
theorem town_free : town.slotFree := rfl
theorem town_loading : loadingTown.loading := ⟨rfl, rfl⟩
theorem bare_free : bare.slotFree := rfl

theorem town_tables : town.part.tablesOk := by unfold Part.tablesOk; decide

theorem town_legal : town.part.Legal where
  link := by unfold Link.inRange; decide
  settled := ⟨fun _ h => (by cases h), fun h => (by cases h)⟩
  lines := by unfold Lines.inRange Line.inRange; decide
  tables := town_tables

/-! ## The machine and the link: the hypotheses of the statements are met -/

theorem witness_legal_step : ∃ t, step ⟨[.jobStart], town.part⟩ = .next t := ⟨_, rfl⟩

theorem witness_holds : town.part.HoldsKept where
  noOpen := by
    intro v valve hv _ o ho
    simp only [town, Table.get?, findEntry] at hv
    split at hv
    · cases hv; cases ho
    · split at hv <;> cases hv
      cases ho
  released := by
    intro id q hq hs
    simp only [town, Table.get?, findEntry] at hq
    split at hq <;> cases hq
    cases hs

/-- What holds of every entry of a table holds of a record that is found. -/
theorem every {α : Type} {t : Table α} {k : Nat} {v : α} (P : Nat → α → Prop) (h : ∀ e ∈ t.entries, P e.1 e.2)
    (hg : t.get? k = some v) : P k v := h _ (Laws.mem_of_get? t k v hg)

theorem witness_agreement : town.part.RecordsAgree where
  tables := town_tables
  outages :=
    { member := fun _ _ h => every (fun _ x => x.outage.isSome = true ↔ x.supply ≠ .supplied) (by decide) h
      active := fun _ _ _ h ho => by
        rw [every (fun _ x => x.outage = none) (by decide) h] at ho; cases ho
      relit := fun _ _ h =>
        every (fun _ x => x.relit ≤ x.customers ∧ (x.relit ≠ 0 → x.supply = .purged ∨ x.supply = .relighting)) (by decide) h
      sums := fun _ _ h => by cases h
      ended := fun _ _ h => by cases h }
  districts := fun _ _ h => every (fun d r =>
    r.openIncidents = town.part.register.incidents.count (fun _ i => decide (i.district = d ∧ i.state ≠ .closed)) ∧
      r.activeOutages = town.part.outages.count (fun o x => x.ended.isNone && town.part.memberIn o d) ∧
      r.suspects = town.part.segments.count (fun _ x => decide (x.district = d) && x.suspect)) (by decide) h
  plans :=
    { holders := fun _ _ _ h => by
        rw [every (fun _ x => x.holders = []) (by decide) h]
        refine ⟨fun h => (nomatch h), fun ⟨q, hq, hs, _⟩ => ?_⟩
        rw [every (fun _ x => x.state = .ready) (by decide) hq] at hs
        exact absurd hs (by decide)
      queued := by decide
      requested := fun _ => by
        refine ⟨fun h => (nomatch h), fun ⟨q, hq, hs⟩ => ?_⟩
        rw [every (fun _ x => x.state = .ready) (by decide) hq] at hs; cases hs
      computing := fun _ => by
        refine ⟨fun h => (nomatch h), fun ⟨q, hq, hs⟩ => ?_⟩
        rw [every (fun _ x => x.state = .ready) (by decide) hq] at hs; cases hs }
  incidents :=
    { one := fun _ _ _ _ ha hb _ _ _ _ =>
        (every (fun id _ => id = 0) (by decide) ha).trans (every (fun id _ => id = 0) (by decide) hb).symm
      listed := fun _ _ h => by cases h
      named := fun _ _ h => by
        rw [every (fun _ i => i.calls = []) (by decide) h]
        exact ⟨List.nodup_nil, Nat.zero_le _, fun _ hn => by cases hn⟩ }
  crews :=
    { one := fun _ _ _ _ _ ha _ hc _ => by
        rw [every (fun _ c => c.job = none) (by decide) ha] at hc; cases hc
      busy := fun _ _ h => every (fun _ c => c.job.isSome = true ↔ c.state = .offered ∨ c.state = .assigned ∨
        c.state = .onSite) (by decide) h
      leaks := fun _ _ _ h hs => absurd hs (every (fun _ c => c.state ≠ .offered) (by decide) h)
      relights := fun _ _ _ h hs => absurd hs (every (fun _ c => c.state ≠ .offered) (by decide) h) }
  rest := fun h => absurd rfl h

/-- A part with some request slots taken. -/
def slots (executing : Option ExecSlot) (waiting : Option Request) (replies : List Reply) : State :=
  town.withLink { townLink with executing := executing, waiting := waiting, replies := replies }

/-- A reply that LINK_FULL made. -/
def full : Reply := ⟨1, 0, .linkFull, []⟩

/-- A STATUS request. -/
def ask : Request := ⟨1, 7, []⟩

theorem witness_slots :
    ((slots (some ⟨ask, true⟩) none []).part.link.executing = some ⟨ask, true⟩ ∧
      (slots (some ⟨ask, true⟩) none []).part.link.waiting = none) ∧
    ((slots (some ⟨ask, true⟩) (some ask) [full, full]).part.link.waiting = some ask ∧
      (slots (some ⟨ask, true⟩) (some ask) [full, full]).part.link.linkFulls < 3) ∧
    3 ≤ (slots (some ⟨ask, true⟩) (some ask) [full, full, full]).part.link.linkFulls := by decide

theorem witness_answer :
    (town.begun 1 7 []).link.executing = some ⟨ask, false⟩ ∧ (town.begun 1 7 []).link.tx.isSome = true ∧
    (({ town with part := { town.part with link := { townLink with tx := none } } } : State).begun 1 7 []).link.tx = none ∧
    (town.begun 1 7 []).link.replies = [] := by decide

/-- The town with other received bytes. -/
def heard (rx : List RxByte) : State := town.withLink { townLink with rxBuffer := rx, lastRx := 9600000 }

/-- Received bytes, none with a framing error. -/
def good (bs : List Byte) : List RxByte := bs.map fun b => ⟨b, false⟩

theorem witness_hunting : town.part.link.rxBuffer = [] ∧ (0x00 : Byte) ≠ 0xC3 ∧ ([] : List Byte).length ≤ 1020 := by decide

theorem witness_collecting :
    (heard (good [0xC3])).part.link.rxBuffer ≠ [] ∧
    (heard (good [0xC3])).part.link.gapOver (heard (good [0xC3])).part.clock = false ∧
    verdict (good [0xC3] ++ [⟨0x00, false⟩]) = .open_ := by decide

theorem witness_abandoned :
    verdict (good [0xC3, 0x00] ++ [⟨0x00, true⟩]) = .bad ∧ verdict (good [0xC3, 0x03] ++ [⟨0xFD, false⟩]) = .bad ∧
    (∀ x ∈ (good [0xC3, 0x03] ++ [RxByte.mk 0xFD false]).drop 1, x.byte ≠ linkStart ∨ x.stopLow = true) ∧
    { townLink with rxBuffer := good [0xC3], lastRx := 0 }.gapOver 1921 = true := by decide

/-- A start stands among the bytes after the start of the one abandoned: its candidate is open, complete, bad, or has
waited too long as well. -/
theorem witness_reexamined :
    (verdict (good [0xC3, 0xC3] ++ [⟨0x00, false⟩]) = .bad ∧ verdict (good [0xC3, 0x00]) = .open_ ∧
      verdict (good [0xC3]) = .open_) ∧
    (verdict (good ([0xC3, 0, 3] ++ (linkFrame 1 7 []).dropLast) ++ [⟨(linkFrame 1 7 []).getLastD 0, false⟩]) = .bad ∧
      (∀ x ∈ good [0, 3], x.byte ≠ linkStart ∨ x.stopLow = true) ∧ verdict (good (linkFrame 1 7 [])) = .complete ∧
      (requestOf (good (linkFrame 1 7 []))).kind = 1 ∧
      ∀ k, k < (linkFrame 1 7 []).length - 1 → verdict (good ((linkFrame 1 7 []).take (k + 1))) = .open_) ∧
    (verdict (good [0xC3, 0, 0xC3] ++ [⟨0, true⟩]) = .bad ∧ verdict (good [0xC3] ++ [⟨0, true⟩]) = .bad) ∧
    (heard (good [0xC3, 0, 0xC3])).part.link.rxBuffer.drop 1 = good [0] ++ good [0xC3] := by decide +kernel

theorem witness_other_kind :
    verdict (good [0xC3, 0, 0, 0x40, 0, 0x89] ++ [⟨0x0C, false⟩]) = .complete ∧
    0x3F < (requestOf (good [0xC3, 0, 0, 0x40, 0, 0x89] ++ [⟨0x0C, false⟩])).kind := by decide +kernel

/-- A notice of the POINT class. -/
def edge : Notice := .discreteEdge 1 0 1 true false

theorem witness_notices :
    (townLink.enables.getLsbD NoticeClass.point.bit = true ∧ townLink.notices.length < 64 ∧ townLink.tx.isSome = true) ∧
    { townLink with enables := 0xFE }.enables.getLsbD NoticeClass.point.bit = false ∧
    64 ≤ { townLink with notices := List.replicate 64 ⟨0, 0, edge⟩ }.notices.length :=
  ⟨by decide, by decide, ge_of_eq List.length_replicate⟩

theorem witness_idle_transmitter : { townLink with tx := none }.notices = [] ∧ { townLink with tx := none }.replies = [] ∧
    townLink.executing = none := by decide

/-- The link while a reply is being sent. -/
def replying (r : Reply) (waiting : Option Request) : Link :=
  { townLink with tx := some (.reply r), executing := some ⟨ask, true⟩, waiting := waiting }

theorem witness_transmit_end :
    (replying ⟨1, 7, .ok, []⟩ (some ask)).tx = some (.reply ⟨1, 7, .ok, []⟩) ∧ Status.ok ≠ .linkFull ∧
    ¬ ((1 : Nat) = 0x05 ∧ Status.ok = .ok) ∧ (replying ⟨1, 7, .ok, []⟩ (some ask)).waiting = some ask ∧
    (replying ⟨1, 7, .ok, []⟩ none).waiting = none ∧ (replying ⟨5, 7, .ok, []⟩ none).tx = some (.reply ⟨5, 7, .ok, []⟩) ∧
    { townLink with tx := none }.tx = none := by decide

theorem witness_settled : town.part.link.settled := town_legal.settled

theorem witness_refusal : (runRequest ⟨0x12, 0, [4]⟩ town.part).status.refusal = true := by decide

theorem witness_general : bare.slotFree ∧ bare.part.link.partState = .unloaded ∧ town.ready ∧
    town.part.segments.wf 512 = true := ⟨rfl, rfl, town_ready, by decide⟩

theorem witness_status : town.part.link.inRange ∧ town.part.tablesOk ∧ town.part.link.rate < 4294967296 :=
  ⟨town_legal.link, town_tables, by decide⟩

theorem witness_read_table : town.slotFree ∧ tableRoom 6 = some 16 ∧ 1 ≤ 16 ∧ 16 ≤ 16 ∧ 0 + 16 ≤ 16 :=
  ⟨rfl, by decide⟩

/-! ## Settings and definitions -/

theorem witness_set_line : town.slotFree ∧ town.part.link.partState ≠ .unloaded ∧ 3 < 4 ∧
    [1200, 2400, 4800, 9600, 19200, 38400].contains 38400 = true ∧ 20 ≤ 500 ∧ 500 ≤ 500 ∧ 1 ≤ 60 ∧ 60 ≤ 60 ∧ 2 ≤ 8 ∧
    8 ≤ 8 := ⟨rfl, by decide⟩

theorem witness_units : loadingTown.loading ∧ (3 < 4 ∧ 1 ≤ 16 ∧ 16 ≤ 16 ∧ 1 ≤ 1) ∧ (31 < 32 ∧ 31 < 32) ∧
    (63 < 64 ∧ 511 < 512 ∧ (∀ pt, (none : Option Nat) = some pt → pt < 256)) ∧ (47 < 48 ∧ 31 < 32) :=
  ⟨town_loading, by decide, by decide, ⟨by decide, by decide, fun _ h => by cases h⟩, by decide⟩

theorem witness_model : loadingTown.loading ∧
    ([767, 0].Nodup ∧ [767, 0] ≠ [] ∧ [767, 0].length ≤ 8 ∧ (∀ v ∈ [767, 0], v < 768) ∧ 65535 ≤ 65535) ∧
    (767 < 768 ∧ 510 ≠ 511 ∧ 10 ≤ 900 ∧ 900 ≤ 900) ∧ (cfg.inRange = true ∧ cfg.p1 ≤ 65535) ∧ (15 < 16 ∧ 3 < 4 ∧ 8 ≤ 8) :=
  ⟨town_loading, by decide, by decide, by decide, by decide⟩

/-- A description that fails: a point of an outstation that is not defined. -/
def badTown : State := loadingTown.withPart { loadingTown.part with outstations := ⟨[]⟩ }

theorem witness_end_load : loadingTown.loading ∧ (loadingTown.begun 0x07 0 []).loadFault = none ∧ badTown.loading ∧
    (badTown.begun 0x07 0 []).loadFault = some (1, 0, .undefinedRef) :=
  ⟨town_loading, by decide, ⟨rfl, rfl⟩, by decide⟩

theorem witness_started : loadingTown.part.tablesOk ∧ loadingTown.part.outstationsOf 0 = [0, 1] ∧
    (∀ e ∈ loadingTown.part.outstations.entries, e.2.comm ≠ .held) ∧ loadingTown.part.outstationsOf 1 = [] ∧
    (loadingTown.part.line 0).queue = [] ∧ (loadingTown.part.line 0).phase = .idle := by
  unfold Part.tablesOk; decide +kernel

/-! ## Field lines -/

theorem witness_hold_line : town.ready ∧ 3 < 4 ∧ (town.part.line 3).cond ≠ .held := ⟨town_ready, by decide⟩

/-- R39: the notices of a HOLD_LINE come before that of the operation that the lower drop's loss fails. -/
theorem test_hold_line_order :
    ((holdLine 0 { (operated 0 ⟨.toClose, .host, .field, .acting, 90, 95, some 150⟩).part with
        outstations := ⟨[(1, { kind := .actuator, comm := .online }), (2, { kind := .actuator, comm := .suspect })]⟩ }).link.notices.map
      (·.notice)).take 3 =
    [.outstationState 1 .online .held 0 .hold, .outstationState 2 .suspect .held 0 .hold,
      .valveFailed 0 .toClose .host .field .comms] := by decide +kernel

theorem witness_hold_order : town.part.outstations.wf 64 = true ∧ town.part.outstationsOf 0 = [0, 1] ∧
    (∀ e ∈ town.part.outstations.entries, e.2.comm ≠ .held) ∧ (town.part.line 0).queue = [] := by decide

theorem witness_free_line : (lined { cond := .held, holdFlag := true }).ready ∧
    ((lined { cond := .held, holdFlag := true }).part.line 0).cond = .held ∧
    (lined { cond := .held, holdFlag := true }).part.outstationsOf 0 ≠ [] := ⟨⟨rfl, rfl⟩, by decide⟩

/-- A HELD line whose quiet time runs, and one whose quiet time has passed. -/
theorem witness_free_quiet :
    ((lined { cond := .held, phase := .quiet 9599801 9600 }).part.line 0).phase = .quiet 9599801 9600 ∧
    town.part.clock < 9599801 + 2 * charTicks 9600 ∧ 9599800 + 2 * charTicks 9600 ≤ town.part.clock ∧
    town.part.points.get? 0 = some pressurePoint ∧ pressurePoint.outstation = 0 ∧
    town.part.valves.get? 0 = some valve0 ∧ valve0.actuated = true := by decide +kernel

/-- A CLOSE command for valve 0. -/
def close0 : Command := { valve := 0, outstation := 1, slot := 0, action := .toClose, origin := some .host }

/-- A line whose quiet time, two characters at 9,600 bit/s or 200 units, has just passed. -/
def quietLine (cond : LineCond) (queue : List Command) (nextDrop : Nat) : State :=
  lined { cond := cond, queue := queue, nextDrop := nextDrop, cycleStart := 9600000, phase := .quiet 9599800 9600 }

theorem witness_quiet :
    ((quietLine .waiting [close0] 1).part.line 0).phase = .quiet 9599800 9600 ∧
    9599800 + 2 * charTicks 9600 ≤ (quietLine .waiting [close0] 1).part.clock ∧
    ((quietLine .waiting [close0] 1).part.line 0).queue = close0 :: [] ∧ close0.bit = none ∧
    ((quietLine .waiting [close0] 1).part.line 0).run < 4 ∧
    (quietLine .waiting [close0] 1).part.outstations.get? 1 = some { kind := .actuator, comm := .online } ∧
    ((quietLine .cycling [] 2).part.line 0).commandDue = false ∧
    nextTurn 0 (quietLine .cycling [] 2).part = some 1 ∧ nextTurn 0 (quietLine .cycling [] 3).part = none ∧
    (quietLine .cycling [] 3).part.periodOver 0 = false ∧ ((quietLine .waiting [] 3).part.line 0).commandDue = false ∧
    (quietLine .cycling [] 2).part.outstations.wf 64 = true := by decide +kernel

/-- The town with both outstations OFFLINE, and a line in a cycle other than 0. -/
def silent (cond : LineCond) (phase : LinePhase) : State :=
  (lined { cond := cond, cycle := 3, cycleStart := 9120000, phase := phase }).withPart
    { (lined { cond := cond, cycle := 3, cycleStart := 9120000, phase := phase }).part with
      outstations := ⟨[(0, { kind := .station, comm := .offline }), (1, { kind := .actuator, comm := .offline })]⟩ }

/-- A command sent before; the period over with a turn to come in the next cycle; and with none. -/
theorem witness_next_at_once :
    ({ close0 with bit := some false } : Command).bit = some false ∧
    nextTurn 0 (silent .cycling (.quiet 9599800 9600)).part = none ∧
    (silent .cycling (.quiet 9599800 9600)).part.periodOver 0 = true ∧
    nextTurn 0 ((silent .cycling (.quiet 9599800 9600)).part.onLine 0 fun l =>
      { l with cond := .cycling, cycle := 4, cycleStart := 9600000, cyclePeriod := l.period, nextDrop := 1 }) = none ∧
    nextTurn 0 ((lined { cond := .cycling, cycleStart := 9120000, nextDrop := 3 }).part.onLine 0 fun l =>
      { l with cond := .cycling, cycle := 1, cycleStart := 9600000, cyclePeriod := l.period, nextDrop := 1 }) = some 0 ∧
    (lined { cond := .cycling, cycleStart := 9120000, nextDrop := 3 }).part.periodOver 0 = true := by decide +kernel

/-- A line that has waited out its period of 5 s. -/
def waited (phase : LinePhase) : State := lined { cond := .waiting, cycle := 7, cycleStart := 9120000, phase := phase }

theorem witness_cycle :
    ((waited .idle).part.line 0).cond = .waiting ∧ 9120000 + 5 * 96000 ≤ (waited .idle).part.clock ∧
    ((waited .idle).part.line 0).commandDue = false ∧
    nextTurn 0 ((waited .idle).part.onLine 0 fun l =>
      { l with cond := .cycling, cycle := 0, cycleStart := 9600000, cyclePeriod := l.period, nextDrop := 1 }) = some 0 ∧
    ((waited (.quiet 0 9600)).part.line 0).phase ≠ .idle ∧ (town.part.line 0).cond ≠ .waiting := by decide +kernel

theorem witness_cycle_passed_over : ((silent .waiting .idle).part.line 0).cond = .waiting ∧
    nextTurn 0 ((silent .waiting .idle).part.onLine 0 fun l =>
      { l with cond := .cycling, cycle := 4, cycleStart := 9600000, cyclePeriod := l.period, nextDrop := 1 }) = none ∧
    ((silent .waiting (.quiet 0 9600)).part.line 0).phase ≠ .idle := by decide +kernel

/-- A poll of outstation 0 under way. -/
def poll0 : Txn := { outstation := 0, isCommand := false, bit := false, frame := [], rate := 9600, window := 100 }

/-- The command of `close0` under way. -/
def command0 : Txn := { outstation := 1, isCommand := true, bit := false, frame := [], rate := 9600, window := 100 }

theorem witness_timed :
    ((lined { cond := .cycling, phase := .sending poll0 }).part.line 0).phase = .sending poll0 ∧
    town.part.outstations.get? 0 = some { kind := .station, comm := .online } ∧
    (0 + 1 < (town.part.line (poll0.outstation / 16)).limit) ∧ 9590400 + poll0.window * 96 ≤ town.part.clock ∧
    ¬ 9590401 + poll0.window * 96 ≤ town.part.clock ∧ 9599699 + 3 * charTicks poll0.rate < town.part.clock ∧
    town.part.clock ≤ 9599700 + 3 * charTicks poll0.rate ∧ command0.isCommand = true ∧ close0.withdrawn = false ∧
    close0.noAnswers + 1 < 3 := by decide +kernel

/-- A line that awaits the reply to a command, with an operation on valve 0. -/
def unanswered (c : Command) (o : Outstation) : Part :=
  { town.part with
    valves := ⟨[(0, { valve0 with operation := some ⟨.toClose, .host, .field, .pending, 90, 95, none⟩ }), (1, valve1)]⟩
    outstations := ⟨[(0, { kind := .station, comm := .online }), (1, o)]⟩
    lines := { town.part.lines with fl0 := { cond := .waiting, queue := [c], phase := .awaiting command0 9590400 } } }

/-- The commands that a NO_ANSWER meets: the second and the third, of one whose outstation stays and one that it loses,
withdrawn, and a STOP. -/
theorem witness_no_answer :
    ((unanswered close0 { kind := .actuator, comm := .online }).line 0).txn? = some command0 ∧
    ({ close0 with noAnswers := 1 } : Command).noAnswers + 1 < 3 ∧ 3 ≤ ({ close0 with noAnswers := 2 } : Command).noAnswers + 1 ∧
    ({ close0 with withdrawn := true } : Command).withdrawn = true ∧ ({ close0 with action := .stop } : Command).action = .stop ∧
    ((countNoAnswer 1 (unanswered close0 { kind := .actuator, comm := .suspect, failures := 1 })).outstations.get? 1).map
      (·.comm) = some .suspect ∧
    ((countNoAnswer 1 (unanswered close0 { kind := .actuator, comm := .suspect, failures := 7 })).outstations.get? 1).map
      (·.comm) = some .offline ∧
    ((unanswered close0 { kind := .actuator, comm := .online }).op? 0).map (·.state) = some .pending := by decide +kernel

/-- The states of an outstation that a NO_ANSWER counts for, at and below the limit, and the two that it does not. -/
theorem witness_failures : (town.part.line 0).limit = 3 ∧ ¬ (town.part.line 0).limit ≤ 1 + 1 ∧ (town.part.line 0).limit ≤ 2 + 1 ∧
    CommState.unknown ≠ .offline ∧ CommState.suspect ≠ .held ∧ CommState.online ≠ .offline := by decide

theorem witness_offline : (unanswered close0 { kind := .actuator, comm := .offline }).tablesOk ∧
    (unanswered close0 { kind := .actuator, comm := .offline }).outstations.get? 1 =
      some { kind := .actuator, comm := .offline } ∧
    (unanswered close0 { kind := .actuator, comm := .offline }).op? 0 =
      some ⟨.toClose, .host, .field, .pending, 90, 95, none⟩ := by
  unfold Part.tablesOk; decide +kernel

theorem witness_reply_bytes :
    town.part.clock ≤ 9590400 + poll0.window * 96 ∧ (0x00 : Byte) ≠ 0x96 ∧ [(0x96 : Byte), 1].length + 1 < 4 ∧
    (u8 ([0x96, 1, 0x81] ++ [64]) 3 ≤ 64 ∧ [(0x96 : Byte), 1, 0x81].length + 1 < 6 + u8 ([0x96, 1, 0x81] ++ [64]) 3) ∧
    (town.part.line 0).txn? = none := by decide +kernel

/-- A closing of valve 0 by its actuator, not yet accepted. -/
def closing (state : OpState) (expiry : Option Nat) : Operation :=
  { action := .toClose, origin := .host, mode := .field, state := state, ordered := 90, stateTime := 95
    travelExpiry := expiry }

/-- The line as the last byte of the ACCEPT for `close0` comes. -/
def accepting : State :=
  (operated 0 (closing .pending none)).withPart { (operated 0 (closing .pending none)).part with
    lines := { town.part.lines with fl0 := { cond := .waiting, queue := [{ close0 with bit := some false }]
                                             phase := .collecting command0 [0x96, 2, 0x82, 1, 0, 0x0F] 9599700 } } }

theorem witness_accept :
    [0x96, 2, 0x82, 1, 0, 0x0F] ++ [(0xA3 : Byte)] = fieldFrame (byte (1 % 16 + 1)) 0x82 [flag false] ∧
    (accepting.part.line 0).phase = .collecting command0 [0x96, 2, 0x82, 1, 0, 0x0F] 9599700 ∧
    accepting.part.clock ≤ 9599700 + 3 * charTicks 9600 ∧
    (accepting.part.line 0).queue = { close0 with bit := some false } :: [] ∧
    accepting.part.outstations.get? 1 = some { kind := .actuator, comm := .online } ∧
    accepting.part.valves.get? 0 = some { valve0 with operation := some (closing .pending none) } := by decide +kernel

theorem witness_answer_station : poll0.Answers .station (fieldFrame 1 0x81 ((List.replicate 8 4095).flatMap be16 ++ be16 3))
    (.data (.station (List.replicate 8 4095) 3)) := .station (List.replicate 8 4095) 3 rfl rfl rfl (by decide)

theorem witness_answer_actuator : { poll0 with outstation := 1 }.Answers .actuator (fieldFrame 2 0x81 ([1, 2, 4, 0] ++ be16 0))
    (.data (.actuator ([1, 2, 4, 0].map slotStatus) 0)) := .actuator [1, 2, 4, 0] 0 rfl rfl rfl

theorem witness_answer_command : command0.Answers .actuator (fieldFrame 2 0x82 [flag false]) .accept ∧
    command0.Answers .actuator (fieldFrame 2 0x8E []) .busy ∧ command0.Answers .actuator (fieldFrame 2 0x8F []) .reject :=
  ⟨.accept rfl, .busy, .reject rfl⟩

/-- An ACCEPT answers no POLL. -/
theorem witness_ill_formed (out : Outcome) : ¬ poll0.Answers .station (fieldFrame 1 0x82 [0]) out := by
  generalize hf : fieldFrame 1 0x82 [0] = f
  intro h
  cases h <;> simp [fieldFrame, poll0] at *

theorem witness_transaction_ends : (accepting.part.line 0).txn? = some command0 ∧ close0.action ≠ .stop ∧
    ({ close0 with withdrawn := true } : Command).withdrawn = true ∧ (closing .pending none).mode = .field ∧
    3 + 1 = ({ kind := .actuator, busy := 3 } : Outstation).busy + 1 ∧
    ((lined { cond := .cycling, phase := .collecting poll0 [0x96] 9599700 }).part.line 0).txn? = some poll0 := by
  decide +kernel

/-! ## Points -/

theorem witness_counts : cfg.z < cfg.f ∧ cfg.p0 < cfg.p1 ∧ 4095 ≤ 4095 ∧ 1 ≤ cfg.k ∧ cfg.k ≤ 16 ∧
    (pressureSample cfg 100 .good riding 4000).1 = .good ∧ (pressureSample cfg 100 .good riding 0).1 = .good ∧
    (pressureSample { cfg with f := 3900 } 100 .good riding 4095).1 = .faultOver ∧
    (pressureSample { cfg with z := 200 } 100 .good riding 0).1 = .faultUnder := by decide +kernel

theorem witness_bands : ordered cfg = true ∧ (indicated cfg 500).worse .low = true ∧ indicated cfg 501 = .low ∧
    (indicated cfg 1001).worse .low = false ∧ indicated cfg 1001 ≠ .low ∧ (indicated cfg 4500).worse .normal = true := by
  decide

/-- A candidate that is re-banded, made, and passed by; each band's easing; and a full history. -/
theorem witness_band_steps : (indicated cfg 400).worse .low = true ∧ 0 < cfg.rideThrough ∧
    { cfg with rideThrough := 0 }.rideThrough = 0 ∧ (indicated cfg 2000).worse .lowTrip = false ∧
    indicated cfg 2000 ≠ .lowTrip ∧ (indicated cfg 4100).worse .highTrip = false ∧ indicated cfg 4100 ≠ .highTrip ∧
    (List.replicate 8 1000).length = 8 ∧ riding.history.length ≤ 8 ∧
    (pressureSample { cfg with f := 3900 } 100 .good riding 4095).1 ≠ .good := by decide +kernel

/-- A discrete point before its first level, at its level, and on its way to and at the debounce count. -/
theorem witness_discrete :
    ({ mode := .rise, debounce := 3, level := some false, stable := 1 } : Discrete).stable + 1 < 3 ∧
    3 ≤ ({ mode := .rise, debounce := 3, level := some false, stable := 2 } : Discrete).stable + 1 ∧
    ({ mode := .rise, debounce := 3 } : Discrete).level = none := by decide

theorem witness_delivery : town.part.points.get? 0 = some pressurePoint ∧
    (ReplyData.counts (.station (List.replicate 8 400) 0))[pressurePoint.input]? = some 400 ∧
    (pressureSample cfg 100 .good riding 400).2.band = riding.band ∧
    (pressureSample { cfg with rideThrough := 0 } 100 .good { riding with candidate := none } 400).2.band ≠ riding.band := by
  decide +kernel

theorem witness_ride_through :
    town.part.points.get? 0 = some pressurePoint ∧ riding.candidate = some ⟨.lowTrip, 60, 90⟩ ∧ 90 ≤ town.part.time ∧
    town.part.feeds.wf 64 = true ∧ (town.part.feeds.entries.all fun e => e.2.outlet != some 0) = true := by decide +kernel

theorem witness_data_reply : town.part.tablesOk ∧
    town.part.outstations.get? 1 = some { kind := .actuator, comm := .online } ∧
    (∀ e ∈ town.part.feeds.entries, e.2.live = deriveLive town.part.points e.2) ∧
    ([1, 0, 0, 0].map slotStatus)[valve0.slot]? = some (slotStatus 1) ∧
    ∀ e ∈ town.part.valves.entries, e.2.actuated = true → e.2.outstation = 1 → e.2.slot = valve0.slot → e.1 = 0 :=
  ⟨town_tables, by decide, by decide +kernel, rfl, by decide⟩

/-- A point of segment 1 whose expiry begins a confirmation, and the incident that it raises, its new deadline to come,
passed, or no earlier. -/
theorem witness_confirmation :
    Point.beginsFor { pressurePoint with body := .pressure (some 1) cfg { riding with falling := true } }
      { pressurePoint with body := .pressure (some 1) cfg { riding with falling := true, band := .lowTrip } } = some 1 ∧
    (leak.kind = .leak ∧ leak.segment = some 1 ∧ leak.state = .opened ∧ leak.grade ≠ .a) ∧
    (∀ e ∈ town.part.register.incidents.entries, e.1 = 0) ∧ town.part.register.incidents.wf 128 = true ∧
    (min leak.deadline (leak.openedTime + town.part.response .a) < leak.deadline ∧ leak.level = 0 ∧
      town.part.time < leak.openedTime + town.part.response .a) ∧
    ¬ min 50 (leak.openedTime + town.part.response .a) < 50 ∧ IncidentState.madeSafe ≠ .onSite := by decide +kernel

theorem witness_points : town.ready ∧ town.part.points.wf 256 = true ∧ 16 ≤ (List.replicate 16 1).length ∧
    (∀ id ∈ [1, 0, 1], id < 256 ∧ town.part.points.has id = true) ∧
    ordered { cfg with l2 := 400, l1 := 900, h1 := 3000, h2 := 4000, hyst := 0, rideThrough := 600 } = true :=
  ⟨town_ready, by decide⟩

/-! ## The network, its traces and its plans -/

theorem witness_edits : town.ready ∧ town.part.segments.get? 0 = some (segment [0]) ∧ (segment [0]).supply = .supplied ∧
    u16 [1, 255, 0, 1, 0, 1] 0 = 511 ∧ town.part.feeds.has 0 = true ∧ 63 < 64 := ⟨town_ready, by decide⟩

theorem witness_edit_valve : town.ready ∧ town.part.tablesOk ∧ town.part.valves.get? 0 = some valve0 ∧
    valve0.inoperable ≠ true ∧ valve0.inoperable = false := ⟨town_ready, town_tables, by decide⟩

/-- A closing of valve 1 by a crew. -/
def byCrew (state : OpState) : Operation :=
  { action := .toClose, origin := .host, mode := .crew, state := state, ordered := 90, stateTime := 95 }

theorem witness_valve_report : (operated 1 (byCrew .acting)).ready ∧
    (operated 1 (byCrew .acting)).part.valves.get? 1 = some { valve1 with operation := some (byCrew .acting) } ∧
    valve1.actuated = false ∧ (byCrew .acting).live = true ∧ (byCrew .acting).action.target = endOf 1 ∧
    endOf 1 ≠ valve1.lastEnd := ⟨⟨rfl, rfl⟩, by decide⟩

/-- The view of the town. -/
def view : View := town.part.takeView true

/-- The engine with a supply trace under way, all valves shut in the view. -/
def tracing : State := changed fun p => { p with trace :=
  { engine := .supplyJob .edit, view := some { view with ends := [(0, .closed), (1, .closed)] } } }

theorem witness_jobs : town.part.trace.engine = .idle ∧ town.part.trace.pendingCause = none ∧
    town.part.trace.planQueue = [] ∧ tracing.part.trace.engine ≠ .idle ∧ town.part.plans.get? 0 = some plan0 ∧
    (computePlan town.part view 2).failure = none ∧ (computePlan town.part view 0).failure = some .feedInside := by
  decide +kernel

theorem witness_ends : town.part.endsDefined := by
  constructor
  · intro v valve h
    simp only [town, Table.get?, findEntry] at h
    split at h
    · cases h; decide
    · split at h <;> cases h
      decide
  · intro f fd h
    simp only [town, Table.get?, findEntry] at h
    split at h <;> cases h
    decide

/-- A computation for a target with n open valves, each to another segment, some of them inoperable. -/
def wide (n : Nat) (inoperable : List Nat) : PlanResult := computePlan
  { town.part with
    feeds := ⟨[]⟩
    segments := ⟨(0, segment (List.range n)) :: (List.range n).map fun v => (v + 1, segment [v])⟩
    valves := ⟨(List.range n).map fun v => (v, { valve0 with endB := v + 1 })⟩ }
  ⟨(List.range n).map fun v => (v, .opened), inoperable, []⟩ 0

/-- Each way a computation ends. -/
theorem witness_computations :
    (wide 33 (List.range 33)).failure = some .tooLarge ∧ (wide 33 (List.range 33)).area.length = 32 ∧
    (wide 65 []).failure = some .tooLarge ∧
    (wide 65 []).close.length = 65 ∧
    (computePlan town.part view 0).failure = some .feedInside ∧
    (computePlan town.part view 1).failure = none ∧ (computePlan town.part view 1).impact = some ⟨2, 20, 2⟩ := by
  decide +kernel

theorem witness_trace : tracing.part.tablesOk ∧ tracing.part.trace.engine = .supplyJob .edit ∧
    tracing.part.outages.firstFree 64 = some 0 ∧
    (tracing.part.segments.idsWhere fun id x =>
      (findEntry id (supplyTrace tracing.part { view with ends := [(0, .closed), (1, .closed)] } [] [])).isNone &&
        decide (x.supply ≠ .off) && x.outage.isNone) = [1, 2] := by
  unfold Part.tablesOk; decide +kernel

/-- A full register of outages, ENDED or ACTIVE. -/
def fullOutages (ended : Option Nat) : Table Outage :=
  ⟨(List.range 64).map fun o => (o, { cause := .load, item := none, plan := none, opened := o, ended := ended })⟩

theorem witness_full_outages : (fullOutages (some 9)).wf 64 = true ∧ (fullOutages (some 9)).firstFree 64 = none ∧
    (fullOutages none).firstFree 64 = none ∧ ((fullOutages (some 9)).get? 0).bind (·.ended) = some 9 ∧
    (∀ e ∈ (fullOutages none).entries, e.2.ended = none ∧ (e.2.opened < 63 ∨ e.1 ≤ 63)) := by decide +kernel

theorem witness_plan : town.ready ∧ town.part.segments.has 2 = true ∧ town.part.plans.firstFree 16 = some 1 ∧
    (town.part.plans.any fun _ q => decide (q.target = 2) && q.state.standsInTheWay) = false ∧
    town.part.register.incidents.get? 0 = some leak ∧ leak.state ≠ .closed := ⟨town_ready, by decide⟩

theorem witness_execute : town.ready ∧ town.part.plans.get? 0 = some plan0 ∧ plan0.state = .ready ∧
    (plan0.closeList ++ plan0.holdList).Nodup ∧ town.part.liveFeedIn plan0.area = none ∧
    town.part.busyValve plan0 = none ∧ town.part.fullValve plan0 = none := ⟨town_ready, by decide⟩

/-- The town with its plan executed and standing in a state. -/
def executed (state : PlanState) (release : List Nat) : State :=
  planned fun q => { q with state := state, releaseList := release }

theorem witness_reissue : (executed .blocked []).ready ∧
    (executed .blocked []).part.plans.get? 0 = some { plan0 with state := .blocked } ∧
    [0].filter ((executed .blocked []).begun 0x1C 0 [0]).closeQualifies ≠ [] ∧
    [0].filter ((operated 0 (closing (.failed .travel) none)).begun 0x1C 0 [0]).openQualifies ≠ [] :=
  ⟨⟨rfl, rfl⟩, by decide⟩

/-- The town with its plan isolated and valve 0 held by it. -/
def isolated : State :=
  (executed .isolated []).withPart ((executed .isolated []).part.onValve 0 fun x => { x with holders := [0] })

theorem witness_release : isolated.ready ∧ isolated.part.plans.get? 0 = some { plan0 with state := .isolated } ∧
    isolated.part.incidentRepaired plan0 = true ∧ (isolated.begun 0x1E 0 [0]).reopened 0 plan0 = [0] ∧
    isolated.part.op? 0 = none ∧ ((executed .isolated []).begun 0x1E 0 [0]).reopened 0 plan0 = [] :=
  ⟨⟨rfl, rfl⟩, by decide⟩

/-- The town with its plan EXECUTING for the incident, and an operation of the plan on valve 0. -/
def underWay (mode : Mode) (state : OpState) : State :=
  (executed .executing []).withPart { (executed .executing []).part with
    plans := ⟨[(0, { plan0 with state := .executing, incident := some 0 })]⟩
    register := { town.part.register with incidents := ⟨[(0, { leak with planLink := some 0 })]⟩ }
    valves := ⟨[(0, { valve0 with
      holders := [0]
      operation := some { closing state none with origin := .plan 0, mode := mode } }), (1, { valve1 with holders := [0] })]⟩
    lines := { town.part.lines with fl0 := { cond := .waiting, queue := [{ close0 with origin := some (.plan 0) }] } } }

theorem witness_abort : (underWay .field .pending).ready ∧
    ((underWay .field .pending).part.op? 0).map (·.state) = some .pending ∧
    ((underWay .field .acting).part.op? 0).map (·.state) = some .acting ∧
    ((underWay .crew .pending).part.op? 0).map (·.mode) = some .crew ∧
    (underWay .field .pending).part.register.incidents.get? 0 = some { leak with planLink := some 0 } ∧
    ((underWay .field .pending).part.line 0).txn? = none ∧
    ((lined { cond := .waiting, queue := [close0], phase := .awaiting command0 9590400 }).part.line 0).txn? = some command0 ∧
    (executed .executing []).part.plans.get? 0 = some { plan0 with state := .executing } ∧ plan0.incident = none :=
  ⟨⟨rfl, rfl⟩, by decide⟩

theorem witness_operate : town.ready ∧ town.part.valves.get? 1 = some valve1 ∧ valve1.holders = [] ∧
    valve1.inoperable = false ∧ town.part.opLive 1 = false ∧
    (operated 0 (closing .acting (some 100))).part.op? 0 = some (closing .acting (some 100)) ∧
    100 ≤ (operated 0 (closing .acting (some 100))).part.time ∧ town.part.time < 101 := ⟨town_ready, by decide +kernel⟩

/-- The two modes, a full queue for the command, a command to be sent, and a valve on a release list alone. -/
theorem witness_ordering : (valve0.actuated = true ∧ town.part.answers valve0.outstation = true) ∧ valve1.actuated = false ∧
    (offerCommand close0 (lined { cond := .waiting, queue := List.replicate 8 { close0 with valve := 5 } }).part).2 = true ∧
    (offerCommand close0 town.part).2 = false ∧ town.part.plans.wf 16 = true ∧
    (executed .releasing [1]).part.plans.get? 0 = some { plan0 with state := .releasing, releaseList := [1] } ∧
    [1].filter (· != 1) = [] ∧ ((lined { cond := .waiting, queue := [close0] }).part.line 0).queue = close0 :: [] := by
  decide +kernel

/-- Line 0 of the town with a queue of commands. -/
def queued (queue : List Command) : Part := (lined { cond := .waiting, queue := queue }).part

/-- A STOP for valve 0. -/
def stop0 : Command := { close0 with action := .stop, origin := none }

/-- The places that a command offered may take, and the reasons not to place it. -/
theorem witness_offered_commands :
    ((lined { cond := .held, holdFlag := true }).part.line 0).holdFlag = true ∧ (queued []).answers 1 = true ∧
    (queued [close0, stop0]).answers 1 = true ∧ ((queued [stop0]).line 0).queue.drop ((queued [stop0]).line 0).inTxn = [] ++ stop0 :: [] ∧
    close0 ∈ ((queued [close0]).line 0).queue ∧ 8 ≤ ((queued (List.replicate 8 { close0 with valve := 5 })).line 0).queue.length ∧
    ((queued [close0]).line 0).commandDue = true ∧ ((queued [close0]).line 0).phase = .idle := by decide +kernel

/-- What a slot report meets: an end reached, torque on the way, neither; a crew's operation. -/
theorem witness_slot_reports : (slotStatus 2).position.2 = some (closing .acting none).action.target ∧
    (slotStatus 4).position.2 ≠ some (closing .acting none).action.target ∧ (slotStatus 4).torque = true ∧
    (slotStatus 0).torque = false ∧ (slotStatus 2).position.2 = some (byCrew .pending).action.target := by decide

/-- An EXECUTING plan that waits for a CLOSE whose travel time is over. -/
theorem witness_travel_blocks :
    (executed .executing []).part.plans.get? 0 = some { plan0 with state := .executing } ∧ 0 ∈ plan0.closeList ∧
    valve0.lastEnd = .opened ∧ { closing .acting (some 100) with origin := .plan 0 }.travelExpiry = some 100 := by decide

/-- The town with its plan in a state, a release list, valve 1 as given, and valve 0 last CLOSED with a PENDING CLOSE of
the plan; the plan has both valves on its close list and is linked to the incident. -/
def course (state : PlanState) (release : List Nat) (one : Valve) : State := changed fun p => { p with
  plans := ⟨[(0, { plan0 with
    state := state, incident := some 0, closeList := [0, 1], holdList := [], releaseList := release })]⟩
  valves := ⟨[(0, { valve0 with
    lastEnd := .closed, operation := some { closing .pending none with origin := .plan 0 } }), (1, one)]⟩ }

/-- An operation of the plan by a crew on valve 1. -/
def crewOp (a : Action) : Operation := { byCrew .acting with action := a, origin := .plan 0 }

/-- The part after a command. -/
def after (c : Instr) (s : State) : Part :=
  match exec c s with
  | .next t => t.part
  | _ => s.part

/-- R117: the last valve reported CLOSED isolates the plan, cancels the PENDING CLOSE and makes the incident safe. -/
theorem test_isolates :
    let q := after (.valveReport 0 [0, 1, 1]) (course .blocked [] valve1)
    (q.plans.get? 0).map (·.state) = some .isolated ∧ (q.op? 0).map (·.state) = some (.failed .cancelled) ∧
    (q.register.incidents.get? 0).map (·.state) = some .madeSafe := by decide +kernel

/-- The plan EXECUTING with three valves to close: valve 0 last CLOSED and acting, valve 1 on slot 1 still OPEN, valve 2
last CLOSED with a PENDING CLOSE. -/
def threeValves : Part := { town.part with
  plans := ⟨[(0, { plan0 with state := .executing, closeList := [0, 1, 2], holdList := [] })]⟩
  valves := ⟨[(0, { valve0 with lastEnd := .closed, operation := some { closing .acting (some 150) with origin := .plan 0 } }),
    (1, { valve1 with actuated := true, outstation := 1, slot := 1 }),
    (2, { valve1 with lastEnd := .closed, operation := some { crewOp .toClose with state := .pending } })]⟩ }

/-- Its answer: slot 0 at torque, slot 1 CLOSED. -/
def torqueAndClosed : List SlotStatus := [4, 2, 0, 0].map slotStatus

/-- R116: a reply whose slot 0 stops at torque and whose slot 1 shuts the plan in takes it to BLOCKED and then ISOLATED,
and the notice of the CLOSE that it cancels comes before both. -/
theorem test_cancelled_first :
    ((dataReply 1 (.actuator torqueAndClosed 0) threeValves).link.notices.filterMap fun n => match n.notice with
      | .valveFailed v _ _ _ why => some (v, some why, none)
      | .planState _ _ st _ _ _ _ => some (0, none, some st)
      | _ => none) =
    [(0, some .torque, none), (2, some .cancelled, none), (0, none, some .blocked), (0, none, some .isolated)] := by
  decide +kernel

/-- The hypotheses on the operations after that reply: one reported and not cut, one cut that no slot reports; a part whose
line awaits the reply. -/
theorem witness_reply_operations :
    let q := dataReply 1 (.actuator torqueAndClosed 0) threeValves
    let reports := torqueAndClosed.zipIdx.filterMap fun e => ((threeValves.valves.idsWhere fun _ x =>
      x.actuated && decide (x.outstation = 1) && decide (x.slot = e.2)).head?).map fun v => (v, e.1)
    reports.map (·.1) = [0, 1] ∧ threeValves.op? 0 = some { closing .acting (some 150) with origin := .plan 0 } ∧
    ¬ { closing .acting (some 150) with origin := .plan 0 }.closePending ∧
    threeValves.op? 2 = some { crewOp .toClose with state := .pending } ∧ { crewOp .toClose with state := .pending }.closePending ∧ q.shut [0, 1, 2] ∧
    (threeValves.plans.get? 0).map (·.state) = some .executing ∧ (q.op? 0).map (·.state) = some (.failed .torque) ∧
    (q.op? 2).map (·.state) = some (.failed .cancelled) := by decide +kernel

theorem witness_good_reply : threeValves.tablesOk ∧ threeValves.outstations.has 1 = true ∧
    ((lined { cond := .waiting, phase := .awaiting poll0 9590400 }).part.line (1 / 16)).phase ≠ .idle ∧
    (dataReply 1 (.actuator torqueAndClosed 0) (lined { cond := .waiting, phase := .awaiting poll0 9590400 }).part).outstations =
      (countGood 1 (lined { cond := .waiting, phase := .awaiting poll0 9590400 }).part).outstations := by
  unfold Part.tablesOk; decide +kernel

/-- R117, R121: a reopened valve breaks the isolation, and a DONE reopening leaves the release list, to FREE with the
last. -/
theorem test_reopens :
    let plan := fun (s : State) => (after (.valveReport 0 [0, 1, 0]) s).plans.get? 0
    let one := { valve1 with lastEnd := .closed, operation := some (crewOp .toOpen) }
    (plan (course .isolated [] { valve1 with lastEnd := .closed })).map (fun q => (q.state, q.blocking)) =
      some (.blocked, some 1) ∧
    (plan (course .releasing [0, 1] one)).map (·.releaseList) = some [0] ∧ plan (course .releasing [1] one) = none := by decide +kernel

/-- The hypotheses on plans whose valve is reported: shut by the report or not, broken, reopened, SEIZED. -/
theorem witness_course : (course .executing [] valve1).ready ∧ (course .executing [] valve1).part.tablesOk ∧
    (course .executing [] valve1).part.plans.wf 16 = true ∧ ¬ (course .executing [] valve1).part.shut [0, 1] ∧
    (course .executing [] { valve1 with lastEnd := .closed }).part.shut [0, 1] ∧ leak.exposed ∧
    ¬ { leak with state := .repaired }.exposed ∧
    (course .executing [] valve1).part.register.incidents.get? 0 = some leak ∧
    ((course .executing [] valve1).part.op? 0).map (fun o => (o.origin, o.mode)) = some (.plan 0, .field) ∧
    { closing .pending none with origin := .plan 0 }.closePending ∧
    (course .executing [] { valve1 with operation := some (crewOp .toClose) }).part.op? 1 = some (crewOp .toClose) ∧
    (crewOp .toClose).live = true ∧ valve1.inoperable = false ∧ valve1.actuated = false := by
  refine ⟨⟨rfl, rfl⟩, ?_, by decide +kernel⟩
  unfold Part.tablesOk; decide +kernel

/-- The ISOLATED plan with a crew's CLOSE in a state on both valves: it alone holds valve 0, another plan holds valve 1. -/
def shared (st : OpState) : State := changed fun p => { p with
  plans := ⟨[(0, { plan0 with state := .isolated, closeList := [0, 1], holdList := [] })]⟩
  valves := ⟨[(0, { valve0 with
      lastEnd := .closed, holders := [0], operation := some { crewOp .toClose with state := st } }),
    (1, { valve1 with
      lastEnd := .closed, holders := [0, 1], operation := some { crewOp .toClose with state := st } })]⟩ }

/-- R120: an ACTING operation is cancelled on every close-list valve, a PENDING one stays on a valve that is not reopened. -/
theorem test_release_cancels :
    ((after (.release 0 [0]) (shared .acting)).op? 1).map (·.state) = some (.failed .cancelled) ∧
    ((after (.release 0 [0]) (shared .pending)).op? 1).map (·.state) = some .pending ∧
    ((after (.release 0 [0]) (shared .pending)).op? 0).map (·.action) = some .toOpen ∧
    (after (.release 0 [0]) (shared .pending)).link.notices.any (fun n =>
      n.notice = .valveFailed 0 .toClose (.plan 0) .crew .cancelled) = true ∧
    (after (.release 0 [0]) (shared .pending)).link.notices.any (fun n =>
      n.notice = .valveFailed 1 .toClose (.plan 0) .crew .cancelled) = false ∧
    (shared .pending).ready := ⟨by decide +kernel, by decide +kernel, by decide +kernel, by decide +kernel,
      by decide +kernel, ⟨rfl, rfl⟩⟩

/-- A plan job runs while valve 0, which the READY plan uses, changes. -/
theorem witness_snoop : plan0.snooped [0] 100 = { plan0 with state := .stale, stateTime := 100 } ∧
    plan0.snooped [2] 100 = plan0 ∧ plan0.without [0] = some plan0 ∧
    Plan.without { plan0 with state := .releasing, releaseList := [0] } [0] = none ∧
    (changed fun p => { p with trace := { p.trace with engine := .planJob 5 } }).part.trace.engine = .planJob 5 := by decide

/-- The outcomes that a reply with slot 0 CLOSED or OPEN has for the plan of valve 0 alone. -/
def alone (state : PlanState) (end_ : End) (op : Option Operation) : Part := { town.part with
  plans := ⟨[(0, { plan0 with state := state, releaseList := [0, 1] })]⟩
  valves := ⟨[(0, { valve0 with lastEnd := end_, operation := op }), (1, valve1)]⟩ }

theorem witness_slots_move_plans :
    (dataReply 1 (.actuator ([2, 0, 0, 0].map slotStatus) 0) (alone .executing .opened none)).shut [0] ∧
    (dataReply 1 (.actuator ([1, 0, 0, 0].map slotStatus) 0) (alone .isolated .closed none)).lastEnd? 0 = some .opened ∧
    ((dataReply 1 (.actuator ([1, 0, 0, 0].map slotStatus) 0) (alone .releasing .closed
      (some ⟨.toOpen, .plan 0, .field, .acting, 90, 95, some 150⟩))).op? 0).map (fun o => (o.origin, o.action, o.state)) =
      some (.plan 0, .toOpen, .done) ∧
    valve0.actuated = true ∧ valve0.outstation = 1 ∧ valve0.slot < [2, 0, 0, 0].length := by decide +kernel

/-- A travel expiry with the close list already shut. -/
theorem witness_travel_isolates : (alone .executing .closed (some { closing .acting (some 100) with origin := .plan 0 })).shut
    plan0.closeList ∧ 0 ∈ plan0.closeList ∧
    (alone .executing .closed (some { closing .acting (some 100) with origin := .plan 0 })).plans.get? 0 =
      some { plan0 with state := .executing, releaseList := [0, 1] } := by decide

/-- The town with its line's queue full, and two more plans, READY and RELEASING, that use valve 0. -/
def crowded (state : PlanState) (end_ : End) : State := changed fun p => { p with
  plans := ⟨[(0, { plan0 with state := state }), (1, plan0),
    (2, { plan0 with state := .releasing, incident := some 0, releaseList := [0] })]⟩
  valves := ⟨[(0, { valve0 with lastEnd := end_ }), (1, valve1)]⟩
  register := { p.register with incidents := ⟨[(0, { leak with planLink := some 2 })]⟩ }
  trace := { p.trace with engine := .planJob 5 }
  lines := { p.lines with fl0 := { cond := .cycling, queue := List.replicate 8 { close0 with valve := 5 } } } }

/-- A CLOSE that fails as it is ordered, with the close list shut or not; a READY plan and a RELEASING one beside. -/
theorem witness_crowded :
    ((((crowded .ready .opened).begun 0x1B 0 [0]).ordered 0 .toClose [0]).op? 0).map (·.state) = some (.failed .comms) ∧
    ((((crowded .blocked .opened).begun 0x1C 0 [0]).ordered 0 .toClose [0]).op? 0).map (·.state) = some (.failed .comms) ∧
    ¬ (crowded .ready .opened).part.shut [0] ∧ (crowded .ready .closed).part.shut [0] ∧
    (crowded .ready .opened).part.plans.wf 16 = true ∧ (crowded .ready .opened).part.busyValve plan0 = none ∧
    (crowded .ready .opened).part.fullValve plan0 = none ∧ (crowded .ready .opened).part.liveFeedIn plan0.area = none ∧
    (crowded .blocked .opened).part.closeQualifies 0 = true := by decide +kernel

/-- R109, R111, R121: the CLOSE that found the queue full blocks the plan, the READY plan is STALE, the RELEASING one is
FREE, and the valves are in the change set. -/
theorem test_execute_crowded :
    let q := after (.execute 0 [0]) (crowded .ready .opened)
    (q.plans.get? 0).map (fun x => (x.state, x.blocking)) = some (.blocked, some 0) ∧
    (q.plans.get? 1).map (·.state) = some .stale ∧ q.plans.get? 2 = none ∧ q.trace.changeSet = [0, 1] ∧
    (q.register.incidents.get? 0).map (·.planLink) = some none := by decide +kernel

/-! ## Incidents, crews and outages -/

theorem witness_call : town.ready ∧ town.part.districts.has 0 = true ∧ town.part.segments.has 1 = true ∧
    town.part.districtOf 1 = 0 ∧ town.part.register.incidents.wf 128 = true ∧
    town.part.register.incidents.firstFree 128 = some 1 ∧
    (town.part.register.incidents.idsWhere fun _ i =>
      decide (i.state ≠ .closed ∧ i.segment = some 1 ∧ (some 1 = (none : Option Nat) → i.district = 0))) = [0] ∧
    (town.part.register.incidents.idsWhere fun _ i =>
      decide (i.state ≠ .closed ∧ i.segment = none ∧ ((none : Option Nat) = none → i.district = 0))) = [] :=
  ⟨town_ready, by decide +kernel⟩

/-- A full register of incidents. -/
def fullIncidents (state : IncidentState) : Table Incident :=
  ⟨(List.range 128).map fun n => (n, { leak with segment := some (100 + n), state := state, stateTime := 10 })⟩

theorem witness_full_incidents : (fullIncidents .closed).firstFree 128 = none ∧ (fullIncidents .closed).wf 128 = true ∧
    (fullIncidents .closed).get? 0 = some { leak with segment := some 100, state := .closed } ∧
    (∀ e ∈ (fullIncidents .closed).entries, 10 ≤ e.2.stateTime ∧ 0 ≤ e.1) ∧
    (∀ e ∈ (fullIncidents .opened).entries, e.2.state ≠ .closed) := by decide +kernel

/-- A merged call of grade A brings the deadline forward, to come or passed; a confirming point; the lowest grade. -/
theorem witness_merges : Grade.code .a < leak.grade.code ∧ town.part.response .a = 3600 ∧
    min leak.deadline (leak.openedTime + town.part.response .a) < leak.deadline ∧
    town.part.time < leak.openedTime + town.part.response .a ∧
    ({ leak with openedTime := 0, deadline := 4000 } : Incident).deadline < 9000 ∧ 0 < town.part.response .a ∧
    ¬ Grade.code .c < leak.grade.code ∧ { riding with band := .low, falling := true }.falling = true := by decide +kernel

/-- A segment with two no-gas calls, half an hour back. -/
def quietStreet : Segment := { segment [1] with noGas := [0, 50] }

theorem witness_suspicion : town.part.segments.get? 2 = some (segment [1]) ∧ quietStreet.noGas.length ≤ 3 ∧
    quietStreet.outage = none ∧ town.ready :=
  ⟨by decide, by decide, rfl, town_ready⟩

theorem witness_suspect :
    ((quietStreet.noGas ++ [100]).drop (quietStreet.noGas.length + 1 - 3)).length = 3 ∧
    (quietStreet.noGas ++ [100]).getLastD 0 ≤ (quietStreet.noGas ++ [100]).headD 0 + 1800 ∧
    quietStreet.suspect = false ∧ { quietStreet with suspect := true }.suspect = true ∧
    ({ quietStreet with outage := some 0 } : Segment).outage = some 0 := by decide

/-- The town with its incident in a state. -/
def responding (state : IncidentState) : State := changed fun p => { p with register :=
  { p.register with incidents := ⟨[(0, { leak with state := state })]⟩ } }

theorem witness_incident_update : (responding .onSite).ready ∧
    (responding .onSite).part.register.incidents.get? 0 = some { leak with state := .onSite } ∧
    ((responding .onSite).begun 0x22 0 [0, 2]).planHolding 0 = none ∧ (responding .repaired).ready :=
  ⟨⟨rfl, rfl⟩, by decide, by decide, ⟨rfl, rfl⟩⟩

theorem witness_deadlines : town.slotFree ∧ town.part.link.partState = .running ∧
    loadingTown.part.link.partState = .loading ∧ 10 ≤ 1440 ∧ 5 ≤ 60 ∧
    { leak with nextEscalation := some 100 }.nextEscalation = some 100 ∧ 100 ≤ town.part.time ∧ town.part.time < 101 :=
  ⟨rfl, by decide +kernel⟩

/-- A deadline brought forward to come, and one that has passed by the new response time. -/
theorem witness_brought_forward : min leak.deadline (leak.openedTime + 60 * 10) < leak.deadline ∧ leak.level = 0 ∧
    town.part.time < leak.openedTime + 60 * 10 ∧
    { town.part with clock := 610 * 96000 }.time = leak.openedTime + 60 * 10 := by decide +kernel

theorem witness_crew_state : town.slotFree ∧ town.part.dispatch.crews.get? 1 = some crew1 ∧ crew1.state = .offShift ∧
    u8 [47, 1] 0 ≤ 47 ∧ u8 [47, 1] 1 ≤ 1 := ⟨rfl, by decide⟩

theorem witness_arbiter : town.part.dispatch.crews.wf 48 = true ∧ town.part.link.partState = .running ∧
    town.part.panel.supervision.unattended = false ∧ town.part.winner = some ⟨.leak, 0⟩ ∧
    bare.part.link.partState ≠ .running ∧ bare.part.winner = none := by decide +kernel

/-- The town with a grade A incident. -/
def grave : State := changed fun p => { p with register :=
  { p.register with incidents := ⟨[(0, leak), (1, { leak with grade := .a, segment := some 2 })]⟩ } }

theorem witness_grade_a : grave.part.winner = some ⟨.leak, 1⟩ ∧ grave.part.chooseCrew ⟨.leak, 1⟩ = some 0 ∧
    town.part.chooseCrew ⟨.leak, 0⟩ = some 0 ∧ grave.part.demand .leak = [0, 1] ∧ 0 ∈ grave.part.suitable ⟨.leak, 1⟩ := by
  decide +kernel

/-- The town with crew 0 in a state, with a job and an expiry. -/
def crewed (state : CrewState) (expiry : Option Nat) : State := changed fun p => { p with dispatch :=
  { p.dispatch with crews := ⟨[(0, { crew0 with state := state, job := some ⟨.leak, 0⟩, expiry := expiry })]⟩ } }

theorem witness_offers : (crewed .offered (some 100)).ready ∧
    (crewed .offered (some 100)).part.dispatch.crews.get? 0 =
      some { crew0 with state := .offered, job := some ⟨.leak, 0⟩, expiry := some 100 } ∧
    100 ≤ town.part.time ∧ town.part.time < 101 ∧ JobClass.leak = classOf 0 ∧ 30 ≤ 600 ∧ 600 ≤ 600 :=
  ⟨⟨rfl, rfl⟩, by decide +kernel⟩

theorem witness_end_job : (crewed .assigned none).part.dispatch.crews.wf 48 = true ∧
    (∀ e ∈ (crewed .assigned none).part.dispatch.crews.entries, e.2.job = some ⟨.leak, 0⟩ → e.1 = 0) ∧
    ∀ e ∈ town.part.dispatch.crews.entries, e.2.job ≠ some ⟨.leak, 0⟩ := by decide

theorem witness_jobs_of_crews : town.ready ∧ town.part.dispatch.crews.get? 0 = some crew0 ∧
    crew0.kind.serves .leak = true ∧ 0 ∈ town.part.demand .leak ∧ town.part.dispatch.crews.wf 48 = true ∧
    0 < JobClass.room .leak ∧ (crewed .assigned none).ready ∧ (crewed .onSite none).ready ∧
    (crewed .offered none).part.dispatch.crews.wf 48 = true :=
  ⟨town_ready, by decide, by decide, by decide, by decide, by decide, ⟨rfl, rfl⟩, ⟨rfl, rfl⟩, by decide⟩

/-- Two crews on the air, the second with an offer of the incident. -/
def rivals : State := changed fun p => { p with dispatch := { p.dispatch with
  crews := ⟨[(0, crew0), (1, { crew0 with state := .offered, job := some ⟨.leak, 0⟩, expiry := some 200 })]⟩ } }

/-- The town with crew 0 on a job of any class, the item waiting or in hand. -/
def working (state : CrewState) (j : Job) (op : OpState) (supply : SupplyState) : State := changed fun p => { p with
  valves := ⟨[(0, valve0), (1, { valve1 with operation := some (byCrew op) })]⟩
  segments := p.segments.set 2 { segment [1] with supply := supply, outage := some 0 }
  dispatch := { p.dispatch with crews := ⟨[(0, { crew0 with state := state, job := some j })]⟩ } }

/-- The jobs that end with their items: of an incident made safe or closed, of a segment that is restored or goes OFF. -/
theorem witness_freed :
    ((after (.incidentUpdate 0 [0, 0]) (crewed .offered (some 200))).dispatch.crews.get? 0).map (fun c => (c.state, c.job)) =
      some (.available, none) ∧
    ((crewed .offered (some 200)).part.register.incidents.get? 0).map (·.state) = some .opened ∧
    (crewed .offered (some 200)).part.dispatch.crews.wf 48 = true ∧
    (∀ a ∈ (crewed .offered (some 200)).part.dispatch.crews.entries,
      ∀ b ∈ (crewed .offered (some 200)).part.dispatch.crews.entries, a.2.job = b.2.job → a.1 = b.1) ∧
    ((after (.relightReport 0 [0, 2, 0, 10, 1]) (working .assigned ⟨.relight, 2⟩ .pending .relighting)).dispatch.crews.get? 0).map
      (·.job) ≠ some (some ⟨.relight, 2⟩) ∧
    ((working .onSite ⟨.relight, 2⟩ .pending .relighting).part.dispatch.crews.get? 0).map (·.job) =
      some (some ⟨.relight, 2⟩) := by decide +kernel

/-- A RELIGHTING segment that a trace takes OFF under its crew. -/
theorem witness_trace_frees :
    let s := (working .onSite ⟨.relight, 2⟩ .pending .relighting).withPart
      { (working .onSite ⟨.relight, 2⟩ .pending .relighting).part with trace := tracing.part.trace }
    s.part.tablesOk ∧ s.part.trace.engine = .supplyJob .edit ∧
    (s.part.dispatch.crews.get? 0).map (·.job) = some (some ⟨.relight, 2⟩) ∧
    ((after .supplyTraceComplete s).segments.get? 2).map (·.supply) = some .off ∧
    ((after .supplyTraceComplete s).dispatch.crews.get? 0).map (·.job) ≠ some (some ⟨.relight, 2⟩) := by
  unfold Part.tablesOk; decide +kernel

theorem witness_other_offer : rivals.ready ∧ rivals.part.register.incidents.get? 0 = some leak ∧ leak.state = .opened ∧
    rivals.part.dispatch.crews.get? 0 = some crew0 ∧
    (∀ e ∈ rivals.part.dispatch.crews.entries, e.2.job = some ⟨.leak, 0⟩ → e.1 = 1) := ⟨⟨rfl, rfl⟩, by decide⟩

/-- The items of the three classes as a crew takes them and as it leaves them. -/
theorem witness_classes :
    ((working .offered ⟨.valve, 1⟩ .pending .purged).part.op? 1).map (·.state) = some .pending ∧
    ((working .assigned ⟨.valve, 1⟩ .acting .purged).part.op? 1).map (·.state) = some .acting ∧
    ((working .offered ⟨.relight, 2⟩ .pending .purged).part.segments.get? 2).map (·.supply) = some .purged ∧
    ((working .onSite ⟨.relight, 2⟩ .pending .relighting).part.segments.get? 2).map (·.supply) = some .relighting ∧
    (responding .assigned).part.register.incidents.get? 0 = some { leak with state := .assigned } ∧
    JobClass.relight = classOf 2 ∧ 2 < JobClass.room .relight ∧ JobClass.valve = classOf 1 ∧ 1 < JobClass.room .valve ∧
    (segment [1]).relit < (segment [1]).customers := by decide +kernel

/-- The town with segment 2 in a supply state. -/
def lost (st : SupplyState) (customers : Nat) (pressure : Option Band) : Segment :=
  { segment [1] with supply := st, customers := customers, priority := 0, pressure := pressure, relit := 3 }

theorem witness_relight : town.ready ∧
    (town.part.onSegment 2 fun _ => lost .recharged 0 none).segments.get? 2 = some (lost .recharged 0 none) ∧
    (town.part.fitToPurge 2 (lost .recharged 10 none)) = true ∧
    (town.part.fitToPurge 2 (lost .recharged 10 (some .normal))) = true ∧
    (lost .relighting 10 none).relit + 6 < (lost .relighting 10 none).customers ∧
    (lost .purged 10 none).customers ≤ (lost .purged 10 none).relit + 7 := ⟨town_ready, by decide⟩

/-- The town with segment 2 RELIGHTING, the only member of outage 0, and with segment 1 in it too. -/
def relighting (others : Bool) : State := changed fun p => { p with
  segments := ⟨[(0, segment [0]), (1, if others then { segment [0, 1] with supply := .off, outage := some 0 } else segment [0, 1]),
    (2, { lost .relighting 10 none with outage := some 0 })]⟩
  outages := ⟨[(0, { cause := .load, item := none, plan := none, opened := 10, members := if others then 2 else 1 })]⟩ }

theorem witness_restored : (relighting true).ready ∧ (relighting false).part.segments.wf 512 = true ∧
    ((relighting true).part.outages.get? 0).map (·.members) = some 2 ∧
    ((relighting false).part.outages.get? 0).map (·.members) = some 1 ∧
    (lost .relighting 10 none).customers ≤ (lost .relighting 10 none).relit + 7 := ⟨⟨rfl, rfl⟩, by decide⟩

/-- An outage that has ended. -/
def past : Outage := { cause := .load, item := none, plan := none, opened := 10, ended := some 90 }

theorem witness_dismiss : (changed fun p => { p with outages := ⟨[(63, past)]⟩ }).slotFree ∧
    (changed fun p => { p with outages := ⟨[(63, past)]⟩ }).part.outages.get? 63 = some past ∧
    past.ended = some 90 ∧ u8 [63] 0 ≤ 63 := ⟨rfl, by decide⟩

/-! ## The panel -/

theorem witness_panel : town.ready ∧ town.part.unattended = false ∧ town.part.panel.testEnd = none ∧ 35 < 36 ∧
    { town.part.panel with testEnd := some 100 }.testEnd = some 100 ∧ 100 ≤ town.part.time ∧ town.part.time < 101 :=
  ⟨town_ready, by decide +kernel⟩

theorem witness_pack : town.part.link.partState = .running ∧
    { town.part.panel with pack := .low 9598080 }.pack = .low 9598080 ∧ 9598080 + 1920 ≤ town.part.clock ∧
    town.part.clock < 9598081 + 1920 ∧ bare.part.link.partState ≠ .running := by decide +kernel

/-- The town with its lamps up to date, one forced. -/
def lit : Part := { refreshLamps town.part with panel := { (refreshLamps town.part).panel with forces := ⟨[(3, .slow)]⟩ } }

theorem witness_lamps : lit.tablesOk ∧ lit.panel.conditions = lit.lampConditions ∧ lit.link.partState = .running ∧
    lit.panel.testEnd = none ∧ lit.panel.forces.get? 3 = some .slow ∧ lit.panel.forces.get? 0 = none ∧
    lit.lampConditions.getD 0 .off = .slow ∧ (∀ e ∈ lit.districts.entries, e.2.lamp = 0 → e.1 = 0) := by
  unfold Part.tablesOk; decide +kernel

/-- The incident of the town escalates: a lamp rises into FAST. -/
theorem witness_rise :
    (lit.lampConditions.getD 0 .off ≠ .fast) ∧
    { lit with register := { lit.register with incidents := ⟨[(0, { leak with level := 1 })]⟩ } }.lampConditions.getD 0 .off =
      .fast := by decide +kernel

/-- Supervision under way. -/
def watching : Supervision := { enabled := true, expiry := some 100, lastToken := some 0x5A }

theorem witness_supervision : town.ready ∧ be16 300 = [1, 44] ∧ watching.enabled = true ∧
    watching.lastToken ≠ some 0xA5 ∧ watching.unattended = false ∧ watching.expiry = some 100 ∧ 100 ≤ town.part.time ∧
    { watching with unattended := true, returnCount := 1 }.returnCount ≠ 0 := ⟨town_ready, by decide +kernel⟩

end Sys2Proof.Tests
end

section
/-!
The execution of a request that finds the executing slot empty (R6, R7), and SET_NOTICES (R13).
-/

namespace Sys2Proof.Proofs

open Sys2Proof Sys2Proof.Machine

/-! ## The tests of R7 -/

section
variable {kind : Nat} {tag : Byte} {body : List Byte} {h : Handler} (hk : handlerOf kind = some h) (p : Part)
include hk

theorem runRequest_of_badLength (hl : h.lengthOk body = false) :
    runRequest ⟨kind, tag, body⟩ p = ⟨.badLength, [], p⟩ := by
  simp [runRequest, hk, hl, refuse]

theorem runRequest_of_admitted (hl : h.lengthOk body = true) (ha : h.admitted p.link.partState = true) :
    runRequest ⟨kind, tag, body⟩ p = h.act body p := by
  simp [runRequest, hk, hl, ha]

end

/-! ## A request that begins at once -/

@[simp] theorem begun_enables (s : State) (kind : Nat) (tag : Byte) (body : List Byte) :
    (s.begun kind tag body).link.enables = s.part.link.enables := rfl

/-- R6: a request that finds the slot empty executes on the part as it begins, and what its tests and rule come to is
its answer. -/
theorem request_of_slotFree {kind : Nat} {tag : Byte} {body : List Byte} {s : State} {a : Answer} (hs : s.slotFree)
    (hr : runRequest ⟨kind, tag, body⟩ (s.begun kind tag body) = a) :
    request kind tag body s = .next (s.answered a.part a.status a.result) := by
  have empty : s.part.link.executing = none := hs
  subst hr
  simp only [request, onPart, requestArrives, empty]
  rfl

/-! ## SET_NOTICES -/

theorem exec_setNotices (tag : Byte) (body : List Byte) (s : State) :
    exec (.setNotices tag body) s = request 0x04 tag body s := rfl

theorem handlerOf_setNotices : handlerOf 0x04 = some setNoticesRule := rfl

@[simp] theorem setNoticesRule_lengthOk (body : List Byte) :
    setNoticesRule.lengthOk body = decide (body.length = 1) := rfl

@[simp] theorem setNoticesRule_admitted (st : PartState) : setNoticesRule.admitted st = true := rfl

theorem setNoticesRule_act (m : Byte) (p : Part) :
    setNoticesRule.act [m] p = ⟨.ok, [p.link.enables], { p with link := { p.link with enables := m } }⟩ := rfl

theorem enabled_eq_bit {n : Notice} {c : NoticeClass} (hc : n.cls = some c) (l : Link) :
    l.enabled n = l.enables.getLsbD c.bit := by
  simp [Link.enabled, hc]

theorem released_enables (cause : ResetCause) (rate errors lost : Nat) :
    (Part.released cause rate errors lost).link.enables = 0 := rfl

/-- Any length but one byte fails the length test of R7. -/
theorem exec_setNotices_of_length_ne {tag : Byte} {body : List Byte} {s : State} (hs : s.slotFree)
    (hl : body.length ≠ 1) :
    exec (.setNotices tag body) s = .next (s.answered (s.begun 0x04 tag body) .badLength []) := by
  rw [exec_setNotices]
  exact request_of_slotFree hs (runRequest_of_badLength handlerOf_setNotices _ (by simp [hl]))

/-- One byte passes both tests of R7, and the answer is that of the rule. -/
theorem exec_setNotices_of_byte (tag m : Byte) {s : State} (hs : s.slotFree) :
    exec (.setNotices tag [m]) s = .next (s.answered
      { s.begun 0x04 tag [m] with link := { (s.begun 0x04 tag [m]).link with enables := m } } .ok
      [s.part.link.enables]) := by
  have answer : runRequest ⟨0x04, tag, [m]⟩ (s.begun 0x04 tag [m]) = setNoticesRule.act [m] (s.begun 0x04 tag [m]) :=
    runRequest_of_admitted handlerOf_setNotices _ (by simp) (by simp)
  rw [setNoticesRule_act, begun_enables] at answer
  rw [exec_setNotices]
  exact request_of_slotFree hs answer

/-- Settles O18: SET_NOTICES by the outcome of its length test, the enables by the class of a notice, and a reset by the
enables of a released part. -/
theorem setNoticesSetsTheEnables : Obligations.SetNoticesSetsTheEnables := by
  refine ⟨fun tag body s hs => ⟨exec_setNotices_of_length_ne hs, ?_⟩, fun l _ _ hc => enabled_eq_bit hc l, rfl,
    released_enables⟩
  rintro m rfl
  exact exec_setNotices_of_byte tag m hs

end Sys2Proof.Proofs
end

section
/-!
Stages 1 and 2 of a pressure sample: the conversion of a count (R49) and the filter (R50).
-/

namespace Sys2Proof.Proofs

open Sys2Proof Sys2Proof.Machine

/-! ## The conversion (R49) -/

/-- The value of a count inside the span: P0 plus the scaled difference, rounded to nearest with halves up. -/
def scaledValue (cfg : PressureSettings) (count : Nat) : Nat :=
  cfg.p0 + ((count - cfg.z) * (cfg.p1 - cfg.p0) + (cfg.f - cfg.z) / 2) / (cfg.f - cfg.z)

section
variable {cfg : PressureSettings} {count : Nat}

theorem convert_inside (hz : cfg.z ≤ count) (hf : count ≤ cfg.f) :
    convert cfg count = (.good, some (scaledValue cfg count)) := by
  simp [convert, scaledValue, Nat.not_lt.mpr hz, hf]

theorem convert_below_within_margin (hz : count < cfg.z) (hm : cfg.z ≤ count + (cfg.f - cfg.z) / 32) :
    convert cfg count = (.good, some cfg.p0) := by
  simp [convert, hz, hm]

theorem convert_below_margin (hm : count + (cfg.f - cfg.z) / 32 < cfg.z) :
    convert cfg count = (.faultUnder, none) := by
  have hz : count < cfg.z := by omega
  simp [convert, hz, Nat.not_le.mpr hm]

theorem convert_above_within_margin (span : cfg.z < cfg.f) (hf : cfg.f < count)
    (hm : count ≤ cfg.f + (cfg.f - cfg.z) / 32) : convert cfg count = (.good, some cfg.p1) := by
  have hz : cfg.z ≤ count := by omega
  simp [convert, Nat.not_lt.mpr hz, Nat.not_le.mpr hf, hm]

theorem convert_above_margin (span : cfg.z < cfg.f) (hm : cfg.f + (cfg.f - cfg.z) / 32 < count) :
    convert cfg count = (.faultOver, none) := by
  have hz : cfg.z ≤ count := by omega
  have hf : cfg.f < count := by omega
  simp [convert, Nat.not_lt.mpr hz, Nat.not_le.mpr hf, Nat.not_le.mpr hm]

theorem le_scaledValue : cfg.p0 ≤ scaledValue cfg count := Nat.le_add_right ..

/-- The rounding adds less than one span, so the scaled difference does not pass P1 − P0. -/
theorem scaledValue_le (span : cfg.z < cfg.f) (range : cfg.p0 ≤ cfg.p1) (hf : count ≤ cfg.f) :
    scaledValue cfg count ≤ cfg.p1 := by
  have pos : 0 < cfg.f - cfg.z := by omega
  have product : (count - cfg.z) * (cfg.p1 - cfg.p0) ≤ (cfg.p1 - cfg.p0) * (cfg.f - cfg.z) := by
    rw [Nat.mul_comm]
    exact Nat.mul_le_mul_left _ (by omega)
  have scaled : ((count - cfg.z) * (cfg.p1 - cfg.p0) + (cfg.f - cfg.z) / 2) / (cfg.f - cfg.z) ≤ cfg.p1 - cfg.p0 := by
    rw [← Nat.lt_succ_iff, Nat.div_lt_iff_lt_mul pos, Nat.succ_mul]
    omega
  unfold scaledValue
  omega

theorem scaledValue_cast (span : cfg.z < cfg.f) (range : cfg.p0 ≤ cfg.p1) (hz : cfg.z ≤ count) :
    (scaledValue cfg count : Int) = cfg.p0 + (((count : Int) - cfg.z) * ((cfg.p1 : Int) - cfg.p0) +
      ((cfg.f : Int) - cfg.z) / 2) / ((cfg.f : Int) - cfg.z) := by
  simp [scaledValue, Nat.cast_sub hz, Nat.cast_sub range, Nat.cast_sub span.le]

/-- What a conversion can come to: a GOOD value between P0 and P1, or a fault with the count beyond a margin. -/
theorem convert_cases (span : cfg.z < cfg.f) (range : cfg.p0 ≤ cfg.p1) :
    (∃ v, convert cfg count = (.good, some v) ∧ cfg.p0 ≤ v ∧ v ≤ cfg.p1) ∨
    (convert cfg count = (.faultUnder, none) ∧ count + (cfg.f - cfg.z) / 32 < cfg.z) ∨
    (convert cfg count = (.faultOver, none) ∧ cfg.f + (cfg.f - cfg.z) / 32 < count) := by
  rcases Nat.lt_or_ge count cfg.z with hz | hz
  · rcases Nat.lt_or_ge (count + (cfg.f - cfg.z) / 32) cfg.z with hm | hm
    · exact .inr (.inl ⟨convert_below_margin hm, hm⟩)
    · exact .inl ⟨_, convert_below_within_margin hz hm, le_rfl, range⟩
  · rcases Nat.lt_or_ge cfg.f count with hf | hf
    · rcases Nat.lt_or_ge (cfg.f + (cfg.f - cfg.z) / 32) count with hm | hm
      · exact .inr (.inr ⟨convert_above_margin span hm, hm⟩)
      · exact .inl ⟨_, convert_above_within_margin span hf hm, range, le_rfl⟩
    · exact .inl ⟨_, convert_inside hz hf, le_scaledValue, scaledValue_le span range hf⟩

end

/-! ## A sample by the outcome of its conversion -/

@[simp] theorem enter_value (st : PressureState) (b : Band) : (st.enter b).value = st.value := rfl
@[simp] theorem enter_filter (st : PressureState) (b : Band) : (st.enter b).filter = st.filter := rfl
@[simp] theorem enter_filtered (st : PressureState) (b : Band) : (st.enter b).filtered = st.filtered := rfl
@[simp] theorem leaveGood_value (st : PressureState) : st.leaveGood.value = st.value := rfl
@[simp] theorem leaveGood_filter (st : PressureState) : st.leaveGood.filter = st.filter := rfl
@[simp] theorem leaveGood_filtered (st : PressureState) : st.leaveGood.filtered = st.filtered := rfl

section
variable {cfg : PressureSettings} {count : Nat} (now : Nat) (q : Quality) (st : PressureState)

/-- A count with a value makes the point GOOD, and the value goes through the filter. -/
theorem pressureSample_of_value {v : Nat} (h : convert cfg count = (.good, some v)) :
    (pressureSample cfg now q st count).1 = .good ∧
    (pressureSample cfg now q st count).2.value = some v ∧
    (pressureSample cfg now q st count).2.filter = filterStep cfg (q = .good) st.filter v ∧
    (pressureSample cfg now q st count).2.filtered = some (filteredOf (filterStep cfg (q = .good) st.filter v)) := by
  simp only [pressureSample, h]
  refine ⟨trivial, ?_⟩
  split <;> simp

/-- A fault sets the quality and holds the value and the filter. -/
theorem pressureSample_of_fault {fault : Quality} (h : convert cfg count = (fault, none)) :
    (pressureSample cfg now q st count).1 = fault ∧
    (pressureSample cfg now q st count).2.value = st.value ∧
    (pressureSample cfg now q st count).2.filter = st.filter ∧
    (pressureSample cfg now q st count).2.filtered = st.filtered := by
  simp only [pressureSample, h]
  refine ⟨trivial, ?_⟩
  split <;> simp

end

section
variable {cfg : PressureSettings} {count : Nat} {now : Nat} {q : Quality} {st : PressureState}

/-- A sample is GOOD just when its count has a value, and that value lies between P0 and P1. -/
theorem convert_of_good_sample (span : cfg.z < cfg.f) (range : cfg.p0 ≤ cfg.p1)
    (good : (pressureSample cfg now q st count).1 = .good) :
    ∃ v, convert cfg count = (.good, some v) ∧ cfg.p0 ≤ v ∧ v ≤ cfg.p1 := by
  rcases convert_cases (count := count) span range with value | ⟨below, -⟩ | ⟨above, -⟩
  · exact value
  · simp [(pressureSample_of_fault now q st below).1] at good
  · simp [(pressureSample_of_fault now q st above).1] at good

/-- A sample that is not GOOD is a fault of its conversion. -/
theorem convert_of_fault_sample (span : cfg.z < cfg.f) (range : cfg.p0 ≤ cfg.p1)
    (fault : (pressureSample cfg now q st count).1 ≠ .good) :
    convert cfg count = ((pressureSample cfg now q st count).1, none) := by
  rcases convert_cases (count := count) span range with ⟨v, value, -⟩ | ⟨below, -⟩ | ⟨above, -⟩
  · exact absurd (pressureSample_of_value now q st value).1 fault
  · rw [(pressureSample_of_fault now q st below).1, below]
  · rw [(pressureSample_of_fault now q st above).1, above]

/-- A sample is FAULT_UNDER only for a count below the margin at Z. -/
theorem lt_of_faultUnder_sample (span : cfg.z < cfg.f) (range : cfg.p0 ≤ cfg.p1)
    (fault : (pressureSample cfg now q st count).1 = .faultUnder) : count + (cfg.f - cfg.z) / 32 < cfg.z := by
  rcases convert_cases (count := count) span range with ⟨v, value, -⟩ | ⟨-, low⟩ | ⟨above, -⟩
  · simp [(pressureSample_of_value now q st value).1] at fault
  · exact low
  · simp [(pressureSample_of_fault now q st above).1] at fault

/-- A sample is FAULT_OVER only for a count above the margin at F. -/
theorem lt_of_faultOver_sample (span : cfg.z < cfg.f) (range : cfg.p0 ≤ cfg.p1)
    (fault : (pressureSample cfg now q st count).1 = .faultOver) : cfg.f + (cfg.f - cfg.z) / 32 < count := by
  rcases convert_cases (count := count) span range with ⟨v, value, -⟩ | ⟨below, -⟩ | ⟨-, high⟩
  · simp [(pressureSample_of_value now q st value).1] at fault
  · simp [(pressureSample_of_fault now q st below).1] at fault
  · exact high

end

/-- Settles O30: each row of the table of R49 is one lemma about the conversion, carried through the sample. -/
theorem countsAreConverted : Obligations.CountsAreConverted := by
  intro cfg now q st count span range _
  refine ⟨fun hz hf => ?_, fun hm hz => ?_, fun hf hm => ?_, fun hm => ?_, fun hm => ?_, fun hm below => ?_,
    fun hm above => ?_, fun good => ?_⟩
  · have inside := convert_inside (cfg := cfg) (count := count) (by omega) (by omega)
    obtain ⟨good, value, -⟩ := pressureSample_of_value now q st inside
    exact ⟨good, by rw [value]; exact congrArg some (scaledValue_cast span range.le (by omega))⟩
  · have near := convert_below_within_margin (cfg := cfg) (count := count) hz (by omega)
    obtain ⟨good, value, -⟩ := pressureSample_of_value now q st near
    exact ⟨good, value⟩
  · have near := convert_above_within_margin (cfg := cfg) (count := count) span hf (by omega)
    obtain ⟨good, value, -⟩ := pressureSample_of_value now q st near
    exact ⟨good, value⟩
  · have far := convert_below_margin (cfg := cfg) (count := count) (by omega)
    obtain ⟨fault, value, -⟩ := pressureSample_of_fault now q st far
    exact ⟨fault, value⟩
  · have far := convert_above_margin (cfg := cfg) (count := count) span (by omega)
    obtain ⟨fault, value, -⟩ := pressureSample_of_fault now q st far
    exact ⟨fault, value⟩
  · have low := lt_of_faultUnder_sample span range.le below
    omega
  · have high := lt_of_faultOver_sample span range.le above
    omega
  · obtain ⟨v, value, low, high⟩ := convert_of_good_sample span range.le good
    exact ⟨v, (pressureSample_of_value now q st value).2.1, low, high⟩

/-! ## The filter (R50) -/

/-- The step toward a value above lies between 0 and the difference. -/
theorem weighted_bounds_of_nonneg {d : Int} {k : Nat} (hk : k ≤ 16) (hd : 0 ≤ d) :
    0 ≤ Int.tdiv (d * k) 16 ∧ Int.tdiv (d * k) 16 ≤ d := by
  have nonneg : 0 ≤ d * k := Int.mul_nonneg hd (Int.natCast_nonneg k)
  have le : d * k ≤ d * 16 := Int.mul_le_mul_of_nonneg_left (by omega) hd
  rw [Int.tdiv_eq_ediv_of_nonneg nonneg]
  omega

/-- The step toward a value below lies between the difference and 0: truncation is toward zero on this side too. -/
theorem weighted_bounds_of_nonpos {d : Int} {k : Nat} (hk : k ≤ 16) (hd : d ≤ 0) :
    d ≤ Int.tdiv (d * k) 16 ∧ Int.tdiv (d * k) 16 ≤ 0 := by
  have mirrored := weighted_bounds_of_nonneg hk (Int.neg_nonneg.mpr hd)
  rw [Int.neg_mul, Int.neg_tdiv] at mirrored
  omega

section
variable {cfg : PressureSettings} {s v : Nat}

theorem filterStep_restart : filterStep cfg false s v = v * 16 := rfl

/-- The state after a step is the sum of R50: the step does not take it below 0. -/
theorem filterStep_cast (hk : cfg.k ≤ 16) :
    (filterStep cfg true s v : Int) = s + Int.tdiv (((v : Int) * 16 - s) * cfg.k) 16 := by
  have nonneg : 0 ≤ (s : Int) + Int.tdiv (((v : Int) * 16 - s) * cfg.k) 16 := by
    rcases Int.le_total 0 ((v : Int) * 16 - s) with up | down
    · have := weighted_bounds_of_nonneg hk up
      omega
    · have := weighted_bounds_of_nonpos hk down
      omega
  exact Int.toNat_of_nonneg nonneg

/-- A state below 16v rises and does not pass it. -/
theorem filterStep_rises (hk : cfg.k ≤ 16) (h : s ≤ v * 16) :
    s ≤ filterStep cfg true s v ∧ filterStep cfg true s v ≤ v * 16 := by
  have := weighted_bounds_of_nonneg hk (d := (v : Int) * 16 - s) (by omega)
  have := filterStep_cast (s := s) (v := v) hk
  omega

/-- A state above 16v falls and does not pass it. -/
theorem filterStep_falls (hk : cfg.k ≤ 16) (h : v * 16 ≤ s) :
    v * 16 ≤ filterStep cfg true s v ∧ filterStep cfg true s v ≤ s := by
  have := weighted_bounds_of_nonpos hk (d := (v : Int) * 16 - s) (by omega)
  have := filterStep_cast (s := s) (v := v) hk
  omega

theorem filterStep_of_k_eq (hk : cfg.k = 16) (wasGood : Bool) : filterStep cfg wasGood s v = v * 16 := by
  cases wasGood with
  | false => rfl
  | true =>
    have cast := filterStep_cast (s := s) (v := v) hk.le
    rw [hk, Nat.cast_ofNat, Int.mul_tdiv_cancel _ (by decide)] at cast
    omega

/-- A range of daPa that holds the value, and the state where it is kept, holds the new state. -/
theorem filterStep_bounds {wasGood : Bool} {lo hi : Nat} (hk : cfg.k ≤ 16) (low : lo ≤ v) (high : v ≤ hi)
    (hs : wasGood = true → lo * 16 ≤ s ∧ s ≤ hi * 16) :
    lo * 16 ≤ filterStep cfg wasGood s v ∧ filterStep cfg wasGood s v ≤ hi * 16 := by
  cases wasGood with
  | false =>
    rw [filterStep_restart]
    omega
  | true =>
    obtain ⟨hlo, hhi⟩ := hs rfl
    rcases Nat.le_total s (v * 16) with up | down
    · have := filterStep_rises hk up
      omega
    · have := filterStep_falls hk down
      omega

end

@[simp] theorem filteredOf_sixteenths (v : Nat) : filteredOf (v * 16) = v := by
  unfold filteredOf
  omega

theorem filteredOf_bounds {s lo hi : Nat} (low : lo * 16 ≤ s) (high : s ≤ hi * 16) :
    lo ≤ filteredOf s ∧ filteredOf s ≤ hi := by
  unfold filteredOf
  omega

/-- Settles O31: a fault holds the filter, and a GOOD sample steps it toward its value, which lies in P0 to P1. -/
theorem theFilterMovesTowardTheValue : Obligations.TheFilterMovesTowardTheValue := by
  intro cfg now q st count span range _ hk
  refine ⟨fun fault => ?_, fun good => ?_⟩
  · have held := pressureSample_of_fault now q st (convert_of_fault_sample span range.le fault)
    exact held.2.2
  · obtain ⟨v, conversion, low, high⟩ := convert_of_good_sample span range.le good
    obtain ⟨-, value, filter, filtered⟩ := pressureSample_of_value now q st conversion
    dsimp only
    rw [filter, filtered]
    refine ⟨v, value, rfl, fun was => ?_, fun was => ?_, fun full => ?_, fun inside => ?_⟩
    · simp [was, filterStep_restart]
    · simp only [was, decide_true]
      exact ⟨filterStep_cast hk, fun up => filterStep_rises hk (by omega),
        fun down => filterStep_falls hk (by omega)⟩
    · rw [filterStep_of_k_eq full]
      exact ⟨rfl, congrArg some (filteredOf_sixteenths v)⟩
    · obtain ⟨lower, upper⟩ := filterStep_bounds (wasGood := q = .good) hk low high (by simpa using inside)
      exact ⟨lower, upper, filteredOf_bounds lower upper⟩

end Sys2Proof.Proofs
end

section
/-!
CREW_STATE (R146).
-/

namespace Sys2Proof.Proofs

open Sys2Proof Sys2Proof.Machine

/-! ## What the request rests on -/

/-- R7: a part state that does not admit the kind is the second test. -/
theorem runRequest_of_refusedState {kind : Nat} {tag : Byte} {body : List Byte} {h : Handler}
    (hk : handlerOf kind = some h) (p : Part) (hl : h.lengthOk body = true) (ha : h.admitted p.link.partState = false) :
    runRequest ⟨kind, tag, body⟩ p = ⟨.refusedState, [], p⟩ := by
  simp [runRequest, hk, hl, ha, refuse]

theorem onCrew_of_get? {p : Part} {id : Nat} {c : Crew} (hc : p.dispatch.crews.get? id = some c) (f : Crew → Crew) :
    p.onCrew id f = { p with dispatch := { p.dispatch with crews := p.dispatch.crews.set id (f c) } } := by
  simp [Part.onCrew, Table.modify, hc]

/-! ## The rule by the outcome of its tests -/

theorem handlerOf_crewState : handlerOf 0x23 = some crewStateRule := rfl

@[simp] theorem crewStateRule_lengthOk (body : List Byte) :
    crewStateRule.lengthOk body = decide (body.length = 2) := rfl

@[simp] theorem crewStateRule_admitted (st : PartState) : crewStateRule.admitted st = decide (st = .running) := rfl

/-- The state that a CREW_STATE body asks for. -/
def askedCrewState (body : List Byte) : CrewState := if u8 body 1 = 0 then .offShift else .available

section
variable {body : List Byte} {p : Part}

theorem crewStateRule_act_of_out_of_range (hr : 47 < u8 body 0 ∨ 1 < u8 body 1) :
    crewStateRule.act body p = ⟨.refusedRange, [], p⟩ := by
  simp [crewStateRule, hr, refuse]

variable (hi : u8 body 0 ≤ 47) (ha : u8 body 1 ≤ 1)
include hi ha

theorem out_of_range_eq_false : (decide (47 < u8 body 0) || decide (1 < u8 body 1)) = false := by simp [hi, ha]

theorem crewStateRule_act_of_undefined (hc : p.dispatch.crews.get? (u8 body 0) = none) :
    crewStateRule.act body p = ⟨.notFound, [], p⟩ := by
  simp only [crewStateRule, out_of_range_eq_false hi ha, hc]
  rfl

variable {c : Crew} (hc : p.dispatch.crews.get? (u8 body 0) = some c)
include hc

/-- For a defined crew the rule tests the crew's state alone. -/
theorem crewStateRule_act_of_defined : crewStateRule.act body p =
    if c.state != .offShift && c.state != .available then ⟨.refusedBusy, [], p⟩
    else if c.state = askedCrewState body then ⟨.ok, [], p⟩
    else ⟨.ok, [], dispatchDecide
      (p.onCrew (u8 body 0) fun c => { c with state := askedCrewState body, declined := none })⟩ := by
  simp only [crewStateRule, out_of_range_eq_false hi ha, hc]
  rfl

theorem crewStateRule_act_of_busy (busy : c.state = .offered ∨ c.state = .assigned ∨ c.state = .onSite) :
    crewStateRule.act body p = ⟨.refusedBusy, [], p⟩ := by
  rw [crewStateRule_act_of_defined hi ha hc]
  rcases busy with offered | assigned | onSite <;> simp [*]

variable (free : c.state = .offShift ∨ c.state = .available)
include free

theorem crewStateRule_act_of_free : crewStateRule.act body p =
    if c.state = askedCrewState body then ⟨.ok, [], p⟩
    else ⟨.ok, [], dispatchDecide
      (p.onCrew (u8 body 0) fun c => { c with state := askedCrewState body, declined := none })⟩ := by
  rw [crewStateRule_act_of_defined hi ha hc]
  rcases free with offShift | available <;> simp [*]

theorem crewStateRule_act_of_already (same : c.state = askedCrewState body) :
    crewStateRule.act body p = ⟨.ok, [], p⟩ := by
  rw [crewStateRule_act_of_free hi ha hc free, if_pos same]

theorem crewStateRule_act_of_change (change : c.state ≠ askedCrewState body) :
    crewStateRule.act body p = ⟨.ok, [], dispatchDecide { p with dispatch := { p.dispatch with
      crews := p.dispatch.crews.set (u8 body 0) { c with state := askedCrewState body, declined := none } } }⟩ := by
  rw [crewStateRule_act_of_free hi ha hc free, if_neg change, onCrew_of_get? hc]

end

/-! ## The request by the outcome of the tests of R7 -/

section
variable {tag : Byte} {body : List Byte} {s : State} (hs : s.slotFree)
include hs

theorem exec_crewState {a : Answer} (hr : runRequest ⟨0x23, tag, body⟩ (s.begun 0x23 tag body) = a) :
    exec (.crewState tag body) s = .next (s.answered a.part a.status a.result) :=
  request_of_slotFree hs hr

theorem exec_crewState_of_length_ne (hl : body.length ≠ 2) :
    exec (.crewState tag body) s = .next (s.answered (s.begun 0x23 tag body) .badLength []) :=
  exec_crewState hs (runRequest_of_badLength handlerOf_crewState _ (by simp [hl]))

theorem exec_crewState_of_not_running (hl : body.length = 2)
    (hp : (s.begun 0x23 tag body).link.partState ≠ .running) :
    exec (.crewState tag body) s = .next (s.answered (s.begun 0x23 tag body) .refusedState []) :=
  exec_crewState hs (runRequest_of_refusedState handlerOf_crewState _ (by simp [hl]) (by simp [hp]))

/-- A body of 2 bytes in RUNNING passes both tests, and the answer is that of the rule. -/
theorem exec_crewState_of_running (hl : body.length = 2) (hp : (s.begun 0x23 tag body).link.partState = .running)
    {a : Answer} (act : crewStateRule.act body (s.begun 0x23 tag body) = a) :
    exec (.crewState tag body) s = .next (s.answered a.part a.status a.result) :=
  exec_crewState hs ((runRequest_of_admitted handlerOf_crewState _ (by simp [hl]) (by simp [hp])).trans act)

end

/-- Settles O52: the two tests of R7, and then the rule by the range of its operands and the state of the crew. -/
theorem crewStatePutsACrewOnOrOffShift : Obligations.CrewStatePutsACrewOnOrOffShift := by
  intro tag body s hs
  refine ⟨exec_crewState_of_length_ne hs, exec_crewState_of_not_running hs, fun hl hp => ?_⟩
  have answer {a : Answer} := exec_crewState_of_running hs hl hp (a := a)
  refine ⟨fun out => answer (crewStateRule_act_of_out_of_range out), fun hi ha => ⟨fun undefined => ?_, fun c hc => ?_⟩⟩
  · exact answer (crewStateRule_act_of_undefined hi ha undefined)
  · refine ⟨fun busy => ?_, fun free => ⟨fun same => ?_, fun change => ?_⟩⟩
    · exact answer (crewStateRule_act_of_busy hi ha hc busy)
    · exact answer (crewStateRule_act_of_already hi ha hc free same)
    · exact answer (crewStateRule_act_of_change hi ha hc free change)

end Sys2Proof.Proofs
end

section
/-!
DISMISS (R170).
-/

namespace Sys2Proof.Proofs

open Sys2Proof Sys2Proof.Machine

/-! ## A request that begins at once, by the outcome of the tests of R7 -/

section
variable {kind : Nat} {h : Handler} (hk : handlerOf kind = some h) (tag : Byte) {body : List Byte} {s : State}
  (hs : s.slotFree)
include hk hs

theorem request_of_badLength (hl : h.lengthOk body = false) :
    request kind tag body s = .next (s.answered (s.begun kind tag body) .badLength []) :=
  request_of_slotFree hs (runRequest_of_badLength hk _ hl)

theorem request_of_refusedState (hl : h.lengthOk body = true)
    (ha : h.admitted (s.begun kind tag body).link.partState = false) :
    request kind tag body s = .next (s.answered (s.begun kind tag body) .refusedState []) :=
  request_of_slotFree hs (runRequest_of_refusedState hk _ hl ha)

theorem request_of_admitted (hl : h.lengthOk body = true)
    (ha : h.admitted (s.begun kind tag body).link.partState = true) {a : Answer}
    (act : h.act body (s.begun kind tag body) = a) :
    request kind tag body s = .next (s.answered a.part a.status a.result) :=
  request_of_slotFree hs ((runRequest_of_admitted hk _ hl ha).trans act)

end

/-! ## The rule by the outcome of its tests -/

theorem exec_dismiss (tag : Byte) (body : List Byte) (s : State) :
    exec (.dismiss tag body) s = request 0x29 tag body s := rfl

theorem handlerOf_dismiss : handlerOf 0x29 = some dismissRule := rfl

@[simp] theorem dismissRule_lengthOk (body : List Byte) : dismissRule.lengthOk body = decide (body.length = 1) := rfl

@[simp] theorem dismissRule_admitted (st : PartState) : dismissRule.admitted st = decide (st = .running) := rfl

section
variable {body : List Byte} {p : Part}

theorem dismissRule_act_of_out_of_range (out : 63 < u8 body 0) :
    dismissRule.act body p = ⟨.refusedRange, [], p⟩ :=
  if_pos out

variable (inRange : u8 body 0 ≤ 63)
include inRange

theorem dismissRule_act_of_free (free : p.outages.get? (u8 body 0) = none) :
    dismissRule.act body p = ⟨.notFound, [], p⟩ := by
  simp only [dismissRule, inRange.not_gt, if_false, free]
  rfl

variable {o : Outage} (used : p.outages.get? (u8 body 0) = some o)
include used

/-- For a used outage the rule tests whether it has ended, and nothing else. -/
theorem dismissRule_act_of_used : dismissRule.act body p =
    if o.ended.isNone then ⟨.refusedState, [], p⟩
    else ⟨.ok, [], { p with outages := p.outages.erase (u8 body 0) }⟩ := by
  simp only [dismissRule, inRange.not_gt, if_false, used]
  rfl

theorem dismissRule_act_of_active (active : o.ended = none) :
    dismissRule.act body p = ⟨.refusedState, [], p⟩ := by
  simp [dismissRule_act_of_used inRange used, active]

theorem dismissRule_act_of_ended {t : Nat} (ended : o.ended = some t) :
    dismissRule.act body p = ⟨.ok, [], { p with outages := p.outages.erase (u8 body 0) }⟩ := by
  simp [dismissRule_act_of_used inRange used, ended]

end

/-- Settles O57: the two tests of R7, and then the rule by the range of its operand and the state of the outage. -/
theorem dismissFreesAnEndedOutage : Obligations.DismissFreesAnEndedOutage := by
  intro tag body s hs
  simp only [exec_dismiss]
  refine ⟨fun hl => request_of_badLength handlerOf_dismiss tag hs (by simp [hl]),
    fun hl hp => request_of_refusedState handlerOf_dismiss tag hs (by simp [hl]) (by simp [hp]), fun hl hp => ?_⟩
  have answer {a : Answer} :=
    request_of_admitted handlerOf_dismiss tag hs (body := body) (a := a) (by simp [hl]) (by simp [hp])
  refine ⟨fun out => answer (dismissRule_act_of_out_of_range out),
    fun inRange free => answer (dismissRule_act_of_free inRange free), fun o inRange used =>
      ⟨fun active => ?_, fun t ended => ⟨?_, Laws.get?_erase_same _ _⟩⟩⟩
  · exact answer (dismissRule_act_of_active inRange used active)
  · exact answer (dismissRule_act_of_ended inRange used ended)

end Sys2Proof.Proofs
end


section
/-!
What the execution of a request comes to (R7, R9): a refusal that leaves the part, or the action of its kind under the
tests that it has passed. Each invariant of the part is proved over these actions, and no proof walks the 47 rules again.
-/

namespace Sys2Proof.Proofs

open Sys2Proof Sys2Proof.Machine

-- One declaration after another: the many small walks below, all at once, each take a thread's memory.
set_option Elab.async false

/-- The actions of the requests: what the rule of a kind makes of a part, with the tests that it has passed. -/
inductive Acts (p : Part) : Part → Prop
  | readChanges (ids : List Nat) : p.link.partState = .running → Acts p { p with
      segments := p.segments.map fun id s => if ids.contains id then { s with changed := false } else s }
  | setNotices (m : BitVec 8) : Acts p { p with link := { p.link with enables := m } }
  | beginLoad : p.link.partState = .unloaded → Acts p { p with link := { p.link with partState := .loading } }
  | endLoad : p.link.partState = .loading → p.loadFault = none → Acts p (enterRunning p)
  | setLine (n rate window period limit : Nat) : n ≤ 3 →
      Acts p (p.onLine n fun l => { l with rate := rate, window := window, period := period, limit := limit })
  | defineOutstation (id : Nat) (kind : OsKind) : p.link.partState = .loading → id < 64 →
      Acts p { p with outstations := p.outstations.set id { kind := kind } }
  | definePoint (id os input district group : Nat) (body : PointBody) : p.link.partState = .loading → id < 256 →
      (∀ seg c st, body = .pressure seg c st → st = {}) → Acts p { p with
        points := p.points.set id
          { outstation := os, input := input, district := district, group := group, body := body } }
  | defineDistrict (id lamp : Nat) : p.link.partState = .loading → id < 32 →
      Acts p { p with districts := p.districts.set id { lamp := lamp } }
  | defineSegment (id district : Nat) (tier : Tier) (customers priority : Nat) (valves : List Nat) :
      p.link.partState = .loading → id < 512 → Acts p { p with
        segments := p.segments.set id
          { district := district, tier := tier, customers := customers, priority := priority, valves := valves } }
  | defineValve (id endA endB : Nat) (actuated : Bool) (os slot : Nat) (normal : End) (limit : Nat) :
      p.link.partState = .loading → id < 768 → Acts p { p with
        valves := p.valves.set id
          { endA := endA, endB := endB, actuated := actuated, outstation := os, slot := slot, normal := normal
            position := normal.position, lastEnd := normal, travelLimit := limit } }
  | defineFeed (id segment : Nat) (outlet : Option Nat) (inService : Bool) : p.link.partState = .loading → id < 64 →
      Acts p { p with feeds := p.feeds.set id { segment := segment, outlet := outlet, inService := inService } }
  | defineCrew (id : Nat) (kind : CrewKind) (home : Nat) (state : CrewState) : p.link.partState = .loading → id < 48 →
      (state = .offShift ∨ state = .available) → Acts p { p with
        dispatch := { p.dispatch with crews := p.dispatch.crews.set id { kind := kind, home := home, state := state } } }
  | setResponse (a b c interval : Nat) : p.link.partState ≠ .unloaded → Acts p (bringAllForward { p with
      register := { p.register with responseA := a, responseB := b, responseC := c, interval := interval } })
  | setDispatch (reloads : PerClass) (time : Nat) : p.link.partState ≠ .unloaded → Acts p (dispatchDecide { p with
      dispatch := { p.dispatch with reloads := reloads, levels := reloads, offerTime := time } })
  | holdLine (n : Nat) : p.link.partState = .running → n ≤ 3 → (p.line n).cond ≠ .held →
      Acts p (dispatchDecide (holdLine n p))
  | freeLine (n : Nat) : p.link.partState = .running → n ≤ 3 → (p.line n).cond = .held → Acts p (freeLine n p)
  | ackPoint (ids : List Nat) : p.link.partState = .running → Acts p (refreshLamps (ids.foldl ackOne (p, 0)).1)
  | setBands (id : Nat) (pt : Point) (seg : Option Nat) (c c' : PressureSettings) (st : PressureState) :
      p.link.partState = .running → p.points.get? id = some pt → pt.body = .pressure seg c st →
      Acts p (putPoint id { pt with body := .pressure seg c' { st with candidate := none } } p)
  | editSegment (id : Nat) (s : Segment) (customers priority : Nat) : p.link.partState = .running →
      p.segments.get? id = some s → priority ≤ customers → s.supply = .supplied →
      Acts p (p.onSegment id fun s => { s with customers := customers, priority := priority })
  | editValve (v : Nat) (b : Bool) : p.link.partState = .running → Acts p (changeInoperable v b .edit p)
  | editFeed (id : Nat) (f : Feed) (inService : Bool) : p.link.partState = .running → p.feeds.get? id = some f →
      Acts p (writeLiveness id { p with feeds := p.feeds.set id { f with inService := inService } })
  | seizureReported (v : Nat) : p.link.partState = .running → Acts p (seizureReported v p)
  | endReported (v : Nat) (e : End) : p.link.partState = .running → Acts p (endReported v e p)
  | requestPlan (id target : Nat) (incident : Option Nat) : p.link.partState = .running →
      p.plans.firstFree 16 = some id → p.planIncidentRefusal incident = none → Acts p (requestPlan id target incident p)
  | dropPlan (id : Nat) (q : Plan) : p.link.partState = .running → p.plans.get? id = some q →
      (q.state = .ready ∨ q.state = .stale ∨ q.state = .failed) → Acts p (freePlan id p)
  | executePlan (id : Nat) (q : Plan) : p.link.partState = .running → p.plans.get? id = some q → q.state = .ready →
      p.busyValve q = none → p.fullValve q = none → Acts p (executePlan id q p)
  | reissuePlan (id : Nat) (q : Plan) : p.link.partState = .running → p.plans.get? id = some q →
      (q.state = .blocked ∨ q.state = .releasing) → Acts p (reissuePlan id q p)
  | abortPlan (id : Nat) (q : Plan) : p.link.partState = .running → p.plans.get? id = some q →
      (q.state = .executing ∨ q.state = .blocked ∨ q.state = .isolated) → Acts p (abortPlan id q p)
  | releasePlan (id : Nat) (q : Plan) : p.link.partState = .running → p.plans.get? id = some q →
      q.state = .isolated → Acts p (releasePlan id q p)
  | operateValve (v : Nat) (valve : Valve) (a : Action) : p.link.partState = .running → p.valves.get? v = some valve →
      (a = .toOpen → valve.holders = []) → p.opLive v = false → Acts p (operateValve v a p)
  | noGasCall (s : Nat) : p.link.partState = .running → Acts p (noGasCall s p)
  | mergeCall (id : Nat) (i : Incident) (c : TakenCall) : p.link.partState = .running → p.incident? id = some i →
      p.candidateFor c = some id → Acts p (mergeCall id i c p).part
  | openIncident (id : Nat) (c : TakenCall) : p.link.partState = .running → p.candidateFor c = none →
      p.entryToOpen = some id → (∀ s, c.segment = some s → p.districtOf s = c.district) → Acts p (openIncident id c p).part
  | makeSafe (id : Nat) (i : Incident) : p.link.partState = .running → p.incident? id = some i →
      (i.state = .opened ∨ i.state = .assigned ∨ i.state = .onSite) → Acts p (dispatchDecide (makeSafe id .host p))
  | repair (id : Nat) (i : Incident) : p.link.partState = .running → p.incident? id = some i →
      (i.state = .onSite ∨ i.state = .madeSafe) → Acts p (dispatchDecide (setIncidentState id .repaired .host p))
  | closeIncident (id : Nat) (i : Incident) : p.link.partState = .running → p.incident? id = some i →
      i.state ≠ .closed → Acts p (dispatchDecide (closeIncident id i p))
  | crewState (id : Nat) (c : Crew) (state : CrewState) : p.link.partState = .running →
      p.dispatch.crews.get? id = some c → (c.state = .offShift ∨ c.state = .available) →
      (state = .offShift ∨ state = .available) →
      Acts p (dispatchDecide (p.onCrew id fun c => { c with state := state, declined := none }))
  | acceptOffer (id : Nat) (c : Crew) (j : Job) : p.link.partState = .running → p.dispatch.crews.get? id = some c →
      c.state = .offered → c.job = some j → Acts p (acceptOffer id j p)
  | declineOffer (id : Nat) (c : Crew) (j : Job) : p.link.partState = .running → p.dispatch.crews.get? id = some c →
      c.state = .offered → c.job = some j → Acts p (withdrawOffer id j .declined p)
  | assignCrew (id : Nat) (c : Crew) (j : Job) : p.link.partState = .running → p.dispatch.crews.get? id = some c →
      (c.state = .available ∨ c.state = .offered) → p.assignable j = true → Acts p (assignCrew id j p)
  | crewArrives (id : Nat) (c : Crew) : p.link.partState = .running → p.dispatch.crews.get? id = some c →
      c.state = .assigned → Acts p (crewArrives id c p)
  | crewClears (id : Nat) (c : Crew) : p.link.partState = .running → p.dispatch.crews.get? id = some c →
      (c.state = .assigned ∨ c.state = .onSite) → Acts p (crewClears id c p).part
  | purgeSegment (id : Nat) (s : Segment) : p.link.partState = .running → p.segments.get? id = some s →
      s.supply = .recharged → Acts p (purgeSegment id s p)
  | relightSegment (id : Nat) (s : Segment) (n : Nat) : p.link.partState = .running → p.segments.get? id = some s →
      (s.supply = .relighting ∨ s.supply = .purged) → Acts p (relightSegment id s n p)
  | dismiss (id : Nat) (o : Outage) : p.link.partState = .running → p.outages.get? id = some o → o.ended.isSome = true →
      Acts p { p with outages := p.outages.erase id }
  | clearSuspect (id : Nat) (s : Segment) : p.link.partState = .running → p.segments.get? id = some s →
      Acts p (if s.suspect then setSuspect id false (p.onSegment id fun s => { s with noGas := [] })
        else p.onSegment id fun s => { s with noGas := [] })
  | lampForce (lamp : Nat) (f : Option Lamp) : p.link.partState = .running → lamp < 36 →
      Acts p (p.onPanel fun a => { a with forces := setForce lamp f a.forces })
  | lampTest : p.link.partState = .running → Acts p (p.onPanel fun a => { a with testEnd := some (p.time + lampTestSeconds) })
  | silence : p.link.partState = .running → Acts p (p.onPanel fun a => { a with horn := false })
  | setSupervision (period : Nat) : p.link.partState = .running → Acts p (superviseWith period p)
  | keepalive (token : Byte) : p.link.partState = .running → Acts p (acceptToken token p)

/-- An answer of the owning blocks: no LINK_FULL, and either a refusal, which leaves the part, or an action. -/
structure Answer.Proper (p : Part) (a : Answer) : Prop where
  notFull : a.status ≠ .linkFull
  outcome : (a.status.refusal = true ∧ a.part = p) ∨ (a.status.refusal = false ∧ (a.part = p ∨ Acts p a.part))

section
variable {p q : Part}

theorem Answer.Proper.refuse {st : Status} (res : List Byte) (hr : st.refusal = true) (hf : st ≠ .linkFull) :
    Answer.Proper p ⟨st, res, p⟩ := ⟨hf, .inl ⟨hr, rfl⟩⟩

theorem Answer.Proper.same {st : Status} (res : List Byte) (hr : st.refusal = false) (hf : st ≠ .linkFull := by decide) :
    Answer.Proper p ⟨st, res, p⟩ := ⟨hf, .inr ⟨hr, .inl rfl⟩⟩

theorem Answer.Proper.done {st : Status} (res : List Byte) (hr : st.refusal = false) (hf : st ≠ .linkFull) (h : Acts p q) :
    Answer.Proper p ⟨st, res, q⟩ := ⟨hf, .inr ⟨hr, .inr h⟩⟩

theorem Answer.Proper.ok (res : List Byte) (h : Acts p q) : Answer.Proper p (okWith res q) :=
  .done res rfl (by decide) h

theorem Answer.Proper.accepted (res : List Byte) (h : Acts p q) : Answer.Proper p ⟨.accepted, res, q⟩ :=
  .done res rfl (by decide) h

end

end Sys2Proof.Proofs
end


section
/-!
Every rule of R7 answers as `Answer.Proper` says: one lemma for each request kind.
-/

namespace Sys2Proof.Proofs

open Sys2Proof Sys2Proof.Machine

-- One declaration after another: the many small walks below, all at once, each take a thread's memory.
set_option Elab.async false

/-- A refusal of `split`'s branches. -/
theorem proper_refuse {p : Part} {st : Status} (h : st.refusal = true ∧ st ≠ .linkFull := by decide) :
    Answer.Proper p (refuse st p) := .refuse [] h.1 h.2

theorem proper_refuseWith {p : Part} {st : Status} (res : List Byte) (h : st.refusal = true ∧ st ≠ .linkFull := by decide) :
    Answer.Proper p (refuseWith st res p) := .refuse res h.1 h.2

/-- A byte of a body is below 256. -/
theorem u8_lt (b : List Byte) (o : Nat) : u8 b o < 256 := (b.getD o 0).isLt

/-- A request over one plan answers as its rule for a plan in use does. -/
theorem onPlanNumbered_proper (b : List Byte) (p : Part) {act : Nat → Plan → Answer}
    (h : ∀ id q, p.plans.get? id = some q → Answer.Proper p (act id q)) : Answer.Proper p (onPlanNumbered b p act) := by
  unfold onPlanNumbered
  split
  · exact proper_refuse
  · split
    · exact proper_refuse
    · exact h _ _ (by assumption)

/-- A request over one segment answers as its rule for a defined segment does. -/
theorem onSegmentNumbered_proper (b : List Byte) (p : Part) {act : Nat → Segment → Answer}
    (h : ∀ id s, p.segments.get? id = some s → Answer.Proper p (act id s)) :
    Answer.Proper p (onSegmentNumbered b p act) := by
  unfold onSegmentNumbered
  split
  · exact proper_refuse
  · split
    · exact proper_refuse
    · exact h _ _ (by assumption)

/-- An id that passes a test stands in the table. -/
theorem get?_of_mem_idsWhere {α : Type} {t : Table α} {f : Nat → α → Bool} {k : Nat} (h : k ∈ t.idsWhere f) :
    ∃ v, t.get? k = some v := by
  obtain ⟨es⟩ := t
  have hk := Laws.idsWhere_subset _ _ h
  clear h
  simp only [Table.ids, Table.get?] at *
  induction es with
  | nil => simp at hk
  | cons e rest ih =>
    obtain ⟨i, a⟩ := e
    by_cases hi : i = k
    · exact ⟨a, by simp [findEntry, hi]⟩
    · simp only [findEntry, hi, if_false]
      exact ih (by simpa [Ne.symm hi] using hk)

variable (b : List Byte) (p : Part)

/-! ### The link and the description -/

theorem statusRule_proper : Answer.Proper p (statusRule.act b p) := .same _ rfl

theorem restartRule_proper : Answer.Proper p (restartRule.act b p) := .same _ rfl

theorem setNoticesRule_proper : Answer.Proper p (setNoticesRule.act b p) := .ok _ (.setNotices _)

theorem readTableRule_proper : Answer.Proper p (readTableRule.act b p) := by
  dsimp only [readTableRule]
  split
  · exact proper_refuse
  · split
    · exact proper_refuse
    · exact .same _ rfl

theorem readChangesRule_proper (run : p.link.partState = .running) : Answer.Proper p (readChangesRule.act b p) :=
  .ok _ (.readChanges _ run)

theorem beginLoadRule_proper (h : p.link.partState = .unloaded) : Answer.Proper p (beginLoadRule.act b p) :=
  .ok _ (.beginLoad h)

theorem endLoadRule_proper (h : p.link.partState = .loading) : Answer.Proper p (endLoadRule.act b p) := by
  dsimp only [endLoadRule]
  split
  · exact proper_refuseWith _
  · exact .ok _ (.endLoad h (by assumption))

theorem setLineRule_proper : Answer.Proper p (setLineRule.act b p) := by
  dsimp only [setLineRule]
  split
  · exact proper_refuse
  · rename_i ok
    simp only [Bool.or_eq_true, decide_eq_true_eq, not_or] at ok
    exact .ok _ (.setLine _ _ _ _ _ (by omega))

section
variable (load : p.link.partState = .loading)
include load

theorem defineOutstationRule_proper : Answer.Proper p (defineOutstationRule.act b p) := by
  dsimp only [defineOutstationRule]
  split
  · exact proper_refuse
  · rename_i ok
    simp only [Bool.or_eq_true, decide_eq_true_eq, not_or] at ok
    exact .ok _ (.defineOutstation _ _ load (by omega))

theorem definePointRule_proper : Answer.Proper p (definePointRule.act b p) := by
  have fill (body : PointBody) (fresh : ∀ seg c st, body = .pressure seg c st → st = {}) := Answer.Proper.ok []
    (Acts.definePoint (u8 b 0) (u8 b 2) (u8 b 3) (u8 b 4) (u8 b 8) body load (u8_lt b 0) fresh)
  dsimp only [definePointRule]
  split
  · exact proper_refuse
  · split
    · split
      · exact fill _ fun _ _ _ h => by cases h; rfl
      · exact proper_refuse
    · split
      · exact proper_refuse
      · exact fill _ fun _ _ _ h => by cases h

theorem defineDistrictRule_proper : Answer.Proper p (defineDistrictRule.act b p) := by
  dsimp only [defineDistrictRule]
  split
  · exact proper_refuse
  · rename_i ok
    simp only [Bool.or_eq_true, decide_eq_true_eq, not_or] at ok
    exact .ok _ (.defineDistrict _ _ load (by omega))

theorem defineSegmentRule_proper : Answer.Proper p (defineSegmentRule.act b p) := by
  dsimp only [defineSegmentRule]
  split
  · exact proper_refuse
  · rename_i ok
    simp only [Bool.or_eq_true, decide_eq_true_eq, not_or] at ok
    exact .ok _ (.defineSegment _ _ _ _ _ _ load (by omega))

theorem defineValveRule_proper : Answer.Proper p (defineValveRule.act b p) := by
  dsimp only [defineValveRule]
  split
  · exact proper_refuse
  · rename_i ok
    simp only [Bool.or_eq_true, decide_eq_true_eq, not_or] at ok
    exact .ok _ (.defineValve _ _ _ _ _ _ _ _ load (by omega))

theorem defineFeedRule_proper : Answer.Proper p (defineFeedRule.act b p) := by
  dsimp only [defineFeedRule]
  split
  · exact proper_refuse
  · rename_i ok
    simp only [Bool.or_eq_true, decide_eq_true_eq, not_or] at ok
    exact .ok _ (.defineFeed _ _ _ _ load (by omega))

theorem defineCrewRule_proper : Answer.Proper p (defineCrewRule.act b p) := by
  dsimp only [defineCrewRule]
  split
  · exact proper_refuse
  · rename_i ok
    simp only [Bool.or_eq_true, decide_eq_true_eq, not_or] at ok
    exact .ok _ (.defineCrew _ _ _ _ load (by omega) (by split <;> simp))

end

section
variable (loaded : p.link.partState ≠ .unloaded)
include loaded

theorem setResponseRule_proper : Answer.Proper p (setResponseRule.act b p) := by
  dsimp only [setResponseRule]
  split
  · exact proper_refuse
  · exact .ok _ (.setResponse _ _ _ _ loaded)

theorem setDispatchRule_proper : Answer.Proper p (setDispatchRule.act b p) := by
  dsimp only [setDispatchRule]
  split
  · exact proper_refuse
  · exact .ok _ (.setDispatch _ _ loaded)

end

section
variable (run : p.link.partState = .running)
include run

/-! ### Lines, points and the model while it runs -/

theorem holdLineRule_proper : Answer.Proper p (holdLineRule.act b p) := by
  dsimp only [holdLineRule]
  split
  · exact proper_refuse
  · split
    · exact proper_refuse
    · exact .ok _ (.holdLine _ run (by omega) (by assumption))

theorem freeLineRule_proper : Answer.Proper p (freeLineRule.act b p) := by
  dsimp only [freeLineRule]
  split
  · exact proper_refuse
  · split
    · exact proper_refuse
    · rename_i held
      exact .ok _ (.freeLine _ run (by omega) (by simpa using held))

theorem ackPointRule_proper : Answer.Proper p (ackPointRule.act b p) := by
  dsimp only [ackPointRule]
  split
  · exact proper_refuse
  · split
    · exact proper_refuseWith _
    · exact .ok _ (.ackPoint _ run)

theorem setBandsRule_proper : Answer.Proper p (setBandsRule.act b p) := by
  dsimp only [setBandsRule]
  split
  · exact proper_refuse
  · rename_i pt hpt
    split
    · exact proper_refuse
    · rename_i hb
      split
      · exact proper_refuse
      · exact .ok _ (.setBands _ _ _ _ _ _ run hpt hb)

theorem editSegmentRule_proper : Answer.Proper p (editSegmentRule.act b p) := by
  dsimp only [editSegmentRule]
  split
  · exact proper_refuse
  · split
    · exact proper_refuse
    · rename_i s hs
      split
      · exact proper_refuse
      · split
        · exact proper_refuse
        · rename_i supplied
          exact .ok _ (.editSegment _ s _ _ run hs (by omega) (by simpa using supplied))

theorem editValveRule_proper : Answer.Proper p (editValveRule.act b p) := by
  dsimp only [editValveRule]
  split
  · exact proper_refuse
  · split
    · exact proper_refuse
    · exact .ok _ (.editValve _ _ run)

theorem editFeedRule_proper : Answer.Proper p (editFeedRule.act b p) := by
  dsimp only [editFeedRule]
  split
  · exact proper_refuse
  · split
    · exact proper_refuse
    · exact .ok _ (.editFeed _ _ _ run (by assumption))

theorem valveReportRule_proper : Answer.Proper p (valveReportRule.act b p) := by
  dsimp only [valveReportRule]
  split
  · exact proper_refuse
  · split
    · exact proper_refuse
    · split
      · exact .ok _ (.seizureReported _ run)
      · split
        · exact proper_refuse
        · exact .ok _ (.endReported _ _ run)

/-! ### Plans and operations -/

theorem planRule_proper : Answer.Proper p (planRule.act b p) := by
  dsimp only [planRule]
  split
  · exact proper_refuse
  · split
    · exact proper_refuse
    · split
      · rename_i st refusal
        have : st = .notFound ∨ st = .refusedState := by
          unfold Part.planIncidentRefusal at refusal
          grind
        rcases this with rfl | rfl <;> exact proper_refuse
      · split
        · exact proper_refuse
        · split
          · exact proper_refuseWith _
          · exact .accepted _ (.requestPlan _ _ _ run (by assumption) (by assumption))

theorem dropPlanRule_proper : Answer.Proper p (dropPlanRule.act b p) := by
  dsimp only [dropPlanRule]
  refine onPlanNumbered_proper b p fun id q hq => ?_
  split
  · rename_i hs
    exact .ok _ (.dropPlan id q run hq (by simpa [or_assoc] using hs))
  · exact proper_refuse

theorem executeRule_proper : Answer.Proper p (executeRule.act b p) := by
  dsimp only [executeRule]
  refine onPlanNumbered_proper b p fun id q hq => ?_
  split
  · exact proper_refuse
  · rename_i ready
    split
    · exact proper_refuseWith _
    · split
      · exact proper_refuseWith _
      · split
        · exact proper_refuseWith _
        · exact .accepted _ (.executePlan id q run hq (by simpa using ready) (by assumption) (by assumption))

theorem reissueRule_proper : Answer.Proper p (reissueRule.act b p) := by
  dsimp only [reissueRule]
  refine onPlanNumbered_proper b p fun id q hq => ?_
  split
  · exact proper_refuse
  · rename_i hs
    split
    · exact proper_refuse
    · exact .accepted _ (.reissuePlan id q run hq (by simp at hs; tauto))

theorem abortRule_proper : Answer.Proper p (abortRule.act b p) := by
  dsimp only [abortRule]
  refine onPlanNumbered_proper b p fun id q hq => ?_
  split
  · rename_i hs
    exact .ok _ (.abortPlan id q run hq (by simpa [or_assoc] using hs))
  · exact proper_refuse

theorem releaseRule_proper : Answer.Proper p (releaseRule.act b p) := by
  dsimp only [releaseRule]
  refine onPlanNumbered_proper b p fun id q hq => ?_
  split
  · exact proper_refuse
  · rename_i hs
    split
    · exact proper_refuseWith _
    · exact .accepted _ (.releasePlan id q run hq (by simp at hs; exact hs.1))

theorem operateRule_proper : Answer.Proper p (operateRule.act b p) := by
  dsimp only [operateRule]
  split
  · exact proper_refuse
  · rename_i range
    split
    · exact proper_refuse
    · rename_i valve hv
      split
      · exact proper_refuseWith _
      · rename_i unlocked
        split
        · exact proper_refuse
        · split
          · exact proper_refuse
          · rename_i idle
            refine .ok _ (.operateValve _ valve _ run hv (fun ho => ?_) (by simpa using idle))
            have zero : u8 b 2 = 0 := by
              by_contra hne
              rw [show u8 b 2 = 1 by simp at range; omega] at ho
              cases ho
            simpa [zero] using unlocked

/-! ### Calls and incidents -/

omit run in
/-- The reply of a call is no refusal (R130). -/
theorem callReply_proper (outcome id : Nat) (slot : Option Nat) {q : Part} (h : Acts p q) :
    Answer.Proper p (callReply outcome id slot q) := by
  cases slot
  · exact .done _ rfl Status.noConfusion h
  · exact .done _ rfl Status.noConfusion h

theorem mergeCall_proper {id : Nat} {i : Incident} {c : TakenCall} (hi : p.incident? id = some i)
    (hc : p.candidateFor c = some id) : Answer.Proper p (mergeCall id i c p) :=
  callReply_proper p 1 id _ (.mergeCall id i c run hi hc)

theorem openIncident_proper {id : Nat} {c : TakenCall} (hc : p.candidateFor c = none) (he : p.entryToOpen = some id)
    (hs : ∀ s, c.segment = some s → p.districtOf s = c.district) : Answer.Proper p (openIncident id c p) :=
  callReply_proper p 0 id _ (.openIncident id c run hc he hs)

theorem takeCall_proper {c : TakenCall} (hs : ∀ s, c.segment = some s → p.districtOf s = c.district) :
    Answer.Proper p (takeCall c p) := by
  unfold takeCall
  split
  · rename_i id i h
    obtain ⟨hc, hi⟩ := Laws.bind_pair h
    exact mergeCall_proper p run hi hc
  · rename_i h
    have hc : p.candidateFor c = none := by
      rcases hid : p.candidateFor c with _ | id
      · rfl
      · obtain ⟨i, hi⟩ := get?_of_mem_idsWhere (List.mem_of_mem_head? hid)
        simp [hid, Part.incident?, hi] at h
    split
    · exact proper_refuse
    · exact openIncident_proper p run hc (by assumption) hs

theorem callRule_proper : Answer.Proper p (callRule.act b p) := by
  dsimp only [callRule]
  split
  · exact proper_refuse
  · split
    · exact proper_refuse
    · split
      · exact proper_refuse
      · rename_i same
        split
        · split
          · exact proper_refuse
          · exact .ok _ (.noGasCall _ run)
        · exact takeCall_proper p run fun s hs => by
            simp only [Option.any_eq_true, bne_iff_ne, not_exists, not_and, not_not] at same
            exact same s hs

theorem incidentUpdateRule_proper : Answer.Proper p (incidentUpdateRule.act b p) := by
  dsimp only [incidentUpdateRule]
  split
  · exact proper_refuse
  · split
    · exact proper_refuse
    · rename_i i hi
      split
      · exact proper_refuse
      · rename_i active
        split
        · split
          · rename_i safe
            refine .ok _ (.makeSafe _ i run hi ?_)
            rcases hst : i.state with _ | _ | _ | _ | _ | _ <;> simp [hst, IncidentState.admitsSafe] at safe ⊢
          · exact proper_refuse
        · split
          · split
            · rename_i repaired
              refine .ok _ (.repair _ i run hi ?_)
              rcases hst : i.state with _ | _ | _ | _ | _ | _ <;> simp [hst, IncidentState.admitsRepaired] at repaired ⊢
            · exact proper_refuse
          · split
            · exact .ok _ (.closeIncident _ i run hi active)
            · split
              · exact proper_refuseWith _
              · exact .ok _ (.closeIncident _ i run hi active)

/-! ### Crews -/

theorem crewStateRule_proper : Answer.Proper p (crewStateRule.act b p) := by
  dsimp only [crewStateRule]
  have asked : (if u8 b 1 = 0 then CrewState.offShift else .available) = .offShift ∨
      (if u8 b 1 = 0 then CrewState.offShift else .available) = .available := by split <;> simp
  generalize (if u8 b 1 = 0 then CrewState.offShift else .available) = wanted at asked ⊢
  split
  · exact proper_refuse
  · split
    · exact proper_refuse
    · rename_i c hc
      split
      · exact proper_refuse
      · rename_i free
        split
        · exact (.same [] rfl : Answer.Proper p ⟨.ok, [], p⟩)
        · refine .ok _ (.crewState _ c _ run hc ?_ asked)
          rcases hst : c.state with _ | _ | _ | _ | _ <;> simp [hst] at free ⊢

theorem answerOfferRule_proper : Answer.Proper p (answerOfferRule.act b p) := by
  dsimp only [answerOfferRule]
  split
  · exact proper_refuse
  · split
    · exact proper_refuse
    · rename_i c hc
      split
      · exact proper_refuse
      · rename_i offered
        simp only [Bool.or_eq_true, bne_iff_ne, not_or, not_not] at offered
        split
        · exact .ok _ (.acceptOffer _ c _ run hc offered.1 offered.2)
        · exact .ok _ (.declineOffer _ c _ run hc offered.1 offered.2)

theorem assignRule_proper : Answer.Proper p (assignRule.act b p) := by
  dsimp only [assignRule]
  split
  · exact proper_refuse
  · split
    · exact proper_refuse
    · rename_i c hc
      split
      · exact proper_refuse
      · split
        · exact proper_refuse
        · split
          · exact proper_refuse
          · rename_i free
            split
            · exact proper_refuse
            · rename_i assignable
              refine .ok _ (.assignCrew _ c _ run hc ?_ (by simpa using assignable))
              rcases hst : c.state with _ | _ | _ | _ | _ <;> simp [hst] at free ⊢

theorem crewReportRule_proper : Answer.Proper p (crewReportRule.act b p) := by
  dsimp only [crewReportRule]
  split
  · exact proper_refuse
  · split
    · exact proper_refuse
    · rename_i c hc
      split
      · split
        · exact .ok _ (.crewArrives _ c run hc (by assumption))
        · exact (.same [] rfl : Answer.Proper p ⟨.ok, [], p⟩)
        all_goals exact proper_refuse
      · split
        · exact .ok _ (.crewClears _ c run hc (.inl (by assumption)))
        · exact .ok _ (.crewClears _ c run hc (.inr (by assumption)))
        all_goals exact proper_refuse

/-! ### Outages -/

theorem purgeRule_proper : Answer.Proper p (purgeRule.act b p) := by
  dsimp only [purgeRule]
  refine onSegmentNumbered_proper b p fun id s hs => ?_
  split
  · exact proper_refuse
  · rename_i fit
    exact .ok _ (.purgeSegment id s run hs (by simp at fit; exact fit.1))

theorem relightReportRule_proper : Answer.Proper p (relightReportRule.act b p) := by
  dsimp only [relightReportRule]
  split
  · exact proper_refuse
  · split
    · exact proper_refuse
    · rename_i s hs
      split
      · exact proper_refuse
      · rename_i admitted
        refine .ok _ (.relightSegment _ s _ run hs ?_)
        simp [relightAdmitted] at admitted
        tauto

theorem dismissRule_proper : Answer.Proper p (dismissRule.act b p) := by
  dsimp only [dismissRule]
  split
  · exact proper_refuse
  · split
    · exact proper_refuse
    · rename_i o ho
      split
      · exact proper_refuse
      · rename_i ended
        exact .ok _ (.dismiss _ o run ho (by simpa [Option.isSome_iff_ne_none] using ended))

theorem clearSuspectRule_proper : Answer.Proper p (clearSuspectRule.act b p) := by
  dsimp only [clearSuspectRule]
  exact onSegmentNumbered_proper b p fun id s hs => .ok [flag s.suspect] (.clearSuspect id s run hs)

/-! ### The panel and supervision -/

theorem lampForceRule_proper : Answer.Proper p (lampForceRule.act b p) := by
  dsimp only [lampForceRule]
  split
  · exact proper_refuse
  · rename_i range
    split
    · exact proper_refuse
    · exact .ok _ (.lampForce _ _ run (by simp at range; omega))

theorem lampTestRule_proper : Answer.Proper p (lampTestRule.act b p) := by
  dsimp only [lampTestRule]
  split
  · exact proper_refuse
  · split
    · exact proper_refuse
    · exact .ok _ (.lampTest run)

theorem silenceRule_proper : Answer.Proper p (silenceRule.act b p) := .ok _ (.silence run)

theorem setSupervisionRule_proper : Answer.Proper p (setSupervisionRule.act b p) := by
  dsimp only [setSupervisionRule]
  split
  · exact proper_refuse
  · exact .ok _ (.setSupervision _ run)

theorem keepaliveRule_proper : Answer.Proper p (keepaliveRule.act b p) := by
  dsimp only [keepaliveRule]
  split
  · exact proper_refuse
  · split
    · exact proper_refuse
    · split
      · exact .ok _ (.keepalive _ run)
      · exact .same _ rfl

end

/-- Every request answers as `Answer.Proper` says: its tests refuse it, or the rule of its kind answers (R7). -/
theorem runRequest_proper (r : Request) (p : Part) : Answer.Proper p (runRequest r p) := by
  obtain ⟨kind, tag, body⟩ := r
  unfold runRequest
  dsimp only
  split
  · exact proper_refuse
  · rename_i h hk
    split
    · exact proper_refuse
    · split
      · exact proper_refuse
      · rename_i admitted
        simp only [Bool.not_eq_true', Bool.not_eq_false] at admitted
        unfold handlerOf at hk
        split at hk <;> cases hk
        · exact statusRule_proper _ _
        · exact readTableRule_proper _ _
        · exact readChangesRule_proper _ _ (of_decide_eq_true admitted)
        · exact setNoticesRule_proper _ _
        · exact restartRule_proper _ _
        · exact beginLoadRule_proper _ _ (of_decide_eq_true admitted)
        · exact endLoadRule_proper _ _ (of_decide_eq_true admitted)
        · exact setLineRule_proper _ _
        · exact defineOutstationRule_proper _ _ (of_decide_eq_true admitted)
        · exact definePointRule_proper _ _ (of_decide_eq_true admitted)
        · exact defineDistrictRule_proper _ _ (of_decide_eq_true admitted)
        · exact defineSegmentRule_proper _ _ (of_decide_eq_true admitted)
        · exact defineValveRule_proper _ _ (of_decide_eq_true admitted)
        · exact defineFeedRule_proper _ _ (of_decide_eq_true admitted)
        · exact defineCrewRule_proper _ _ (of_decide_eq_true admitted)
        · exact setResponseRule_proper _ _ fun unloaded => by simp [setResponseRule, loadedOrLoading, unloaded] at admitted
        · exact setDispatchRule_proper _ _ fun unloaded => by simp [setDispatchRule, loadedOrLoading, unloaded] at admitted
        · exact holdLineRule_proper _ _ (of_decide_eq_true admitted)
        · exact freeLineRule_proper _ _ (of_decide_eq_true admitted)
        · exact ackPointRule_proper _ _ (of_decide_eq_true admitted)
        · exact setBandsRule_proper _ _ (of_decide_eq_true admitted)
        · exact editSegmentRule_proper _ _ (of_decide_eq_true admitted)
        · exact editValveRule_proper _ _ (of_decide_eq_true admitted)
        · exact editFeedRule_proper _ _ (of_decide_eq_true admitted)
        · exact valveReportRule_proper _ _ (of_decide_eq_true admitted)
        · exact planRule_proper _ _ (of_decide_eq_true admitted)
        · exact executeRule_proper _ _ (of_decide_eq_true admitted)
        · exact reissueRule_proper _ _ (of_decide_eq_true admitted)
        · exact abortRule_proper _ _ (of_decide_eq_true admitted)
        · exact releaseRule_proper _ _ (of_decide_eq_true admitted)
        · exact dropPlanRule_proper _ _ (of_decide_eq_true admitted)
        · exact operateRule_proper _ _ (of_decide_eq_true admitted)
        · exact callRule_proper _ _ (of_decide_eq_true admitted)
        · exact incidentUpdateRule_proper _ _ (of_decide_eq_true admitted)
        · exact crewStateRule_proper _ _ (of_decide_eq_true admitted)
        · exact answerOfferRule_proper _ _ (of_decide_eq_true admitted)
        · exact assignRule_proper _ _ (of_decide_eq_true admitted)
        · exact crewReportRule_proper _ _ (of_decide_eq_true admitted)
        · exact purgeRule_proper _ _ (of_decide_eq_true admitted)
        · exact relightReportRule_proper _ _ (of_decide_eq_true admitted)
        · exact dismissRule_proper _ _ (of_decide_eq_true admitted)
        · exact clearSuspectRule_proper _ _ (of_decide_eq_true admitted)
        · exact lampForceRule_proper _ _ (of_decide_eq_true admitted)
        · exact lampTestRule_proper _ _ (of_decide_eq_true admitted)
        · exact silenceRule_proper _ _ (of_decide_eq_true admitted)
        · exact setSupervisionRule_proper _ _ (of_decide_eq_true admitted)
        · exact keepaliveRule_proper _ _ (of_decide_eq_true admitted)

/-- Settles O9: an answer with a refusal status is no action's, and a refusal leaves the part. -/
theorem refusedRequestsChangeNothing : Obligations.RefusedRequestsChangeNothing := by
  intro r p refusal
  rcases (runRequest_proper r p).outcome with ⟨_, same⟩ | ⟨accepted, _⟩
  · exact same
  · rw [refusal] at accepted; cases accepted

end Sys2Proof.Proofs
end


section
/-!
What one command can make of the part: a reset, an event of the control link, or an event of a field line, a timer or
the trace engine. The queue of commands stays, and the clock moves at a reset alone.
-/

namespace Sys2Proof.Proofs

open Sys2Proof Sys2Proof.Machine

/-- The events of the field lines, of the timers and of the trace engine. -/
inductive Timed (p : Part) : Part → Prop
  | same : Timed p p
  | quietEnds (n : Nat) : n < 4 → Timed p (dispatchDecide (quietEnds n p))
  | frameLeaves (n : Nat) : n < 4 → Timed p (dispatchDecide (frameLeaves n p))
  | windowEnds (n : Nat) : n < 4 → Timed p (dispatchDecide (windowEnds n p))
  | gapEnds (n : Nat) : n < 4 → Timed p (dispatchDecide (gapEnds n p))
  | fieldByte (n : Nat) (b : Byte) (stopLow : Bool) : n < 4 → Timed p (dispatchDecide (fieldByte n b stopLow p))
  | arbiter : Timed p (dispatchDecide p)
  | periodEnds (n : Nat) : n < 4 → Timed p (dispatchDecide (periodEnds n p))
  | rideThroughEnds (id : Nat) : Timed p (dispatchDecide (rideThroughEnds id p))
  | jobStarts : Timed p (jobStarts p)
  | traceEnds : Timed p (traceEnds p)
  | planJobEnds : Timed p (planJobEnds p)
  | travelEnds (v : Nat) : Timed p (travelEnds v p)
  | escalationDue (id : Nat) : Timed p (escalationDue id p)
  | offerEnds (id : Nat) : Timed p (offerEnds id p)
  | packAcknowledged : Timed p (packAcknowledged p)
  | packFalls : Timed p (packFalls p)
  | packRises : Timed p (packRises p)
  | testEnds : Timed p (testEnds p)
  | keepaliveEnds : Timed p (keepaliveEnds p)

/-- The events that let the part run on: all but a reset and the end of a frame on TXD, which may be that of a RESTART's
reply. -/
inductive RunsOn (p : Part) : Part → Prop
  | request (r : Request) : RunsOn p (requestArrives r p)
  | byte (b : RxByte) : RunsOn p (receiveByte b p)
  | gap : RunsOn p (closeGap p)
  | timed {q : Part} : Timed p q → RunsOn p q

/-- The events of the part, of which each command is one. -/
inductive Happens (p : Part) : Part → Prop
  | reset (cause : ResetCause) (rate : Nat) : Happens p (Part.released cause rate 0 0)
  | sent : Happens p (frameSent p)
  | on {q : Part} : RunsOn p q → Happens p q

theorem lineEvent_timed {n : Nat} {f : Part → Part} {p : Part} (h : n < 4 → Timed p (dispatchDecide (f p))) :
    RunsOn p (lineEvent n f p) := by
  unfold lineEvent
  split
  · exact .timed (h (by assumption))
  · exact .timed .same

/-- The part after a command. -/
def partAfter (c : Instr) (p : Part) : Part :=
  match exec c ⟨[], p⟩ with
  | .next t => t.part
  | .fault _ | .refused _ => p

/-- Every command completes, leaves the queue, and makes of the part what it would make of it with any other queue. -/
theorem exec_eq (c : Instr) (s : State) : exec c s = .next (s.withPart (partAfter c s.part)) := by
  cases c <;> rfl

/-- The part runs on at each command but POWER_ON_RESET and TRANSMIT_END. -/
theorem partAfter_runsOn {c : Instr} (p : Part) (reset : ∀ a b d, c ≠ .powerOnReset a b d) (sent : c ≠ .transmitEnd) :
    RunsOn p (partAfter c p) := by
  cases c
  case powerOnReset supply lr1 lr0 => exact absurd rfl (reset _ _ _)
  case receivedByte b low => exact .byte _
  case frameReceived b =>
    show RunsOn p (if p.verdictOn ⟨b, false⟩ = some .complete then receiveByte ⟨b, false⟩ p else p)
    split
    · exact .byte _
    · exact .timed .same
  case frameAbandoned b low =>
    show RunsOn p (if p.verdictOn ⟨b, low⟩ = some .bad then receiveByte ⟨b, low⟩ p else p)
    split
    · exact .byte _
    · exact .timed .same
  case receiveGapTimeout => exact .gap
  case transmitEnd => exact absurd rfl sent
  case quietTimeEnd n => exact lineEvent_timed (.quietEnds n)
  case fieldFrameSent n => exact lineEvent_timed (.frameLeaves n)
  case replyWindowExpiry n => exact lineEvent_timed (.windowEnds n)
  case replyGapTimeout n => exact lineEvent_timed (.gapEnds n)
  case fieldReplyByte n b low => exact lineEvent_timed (.fieldByte n b low)
  case fieldReplyReceived n b low =>
    refine lineEvent_timed fun hn => ?_
    split
    · exact .fieldByte n b low hn
    · exact .arbiter
  case cyclePeriodExpiry n => exact lineEvent_timed (.periodEnds n)
  case rideThroughExpiry id => exact .timed (.rideThroughEnds id)
  case jobStart => exact .timed .jobStarts
  case supplyTraceComplete => exact .timed .traceEnds
  case planJobComplete => exact .timed .planJobEnds
  case travelExpiry v => exact .timed (.travelEnds v)
  case escalation id => exact .timed (.escalationDue id)
  case offerExpiry id => exact .timed (.offerEnds id)
  case packAcknowledge => exact .timed .packAcknowledged
  case packLowLevel => exact .timed .packFalls
  case packReturnHigh => exact .timed .packRises
  case lampTestExpiry => exact .timed .testEnds
  case keepaliveExpiry => exact .timed .keepaliveEnds
  all_goals exact .request ⟨_, _, _⟩

/-- Each command is one event of the part. -/
theorem partAfter_happens (c : Instr) (p : Part) : Happens p (partAfter c p) := by
  by_cases reset : ∃ a b d, c = .powerOnReset a b d
  · obtain ⟨a, b, d, rfl⟩ := reset
    exact .reset _ _
  · by_cases sent : c = .transmitEnd
    · subst sent; exact .sent
    · exact .on (partAfter_runsOn p (fun a b d h => reset ⟨a, b, d, h⟩) sent)

/-- A command that completes is one event, and keeps the queue. -/
theorem exec_happens {c : Instr} {s t : State} (h : exec c s = .next t) :
    t.pending = s.pending ∧ t.part = partAfter c s.part ∧ Happens s.part t.part := by
  rw [exec_eq] at h
  cases h
  exact ⟨rfl, rfl, partAfter_happens c s.part⟩

/-- A step that answers is an event of the front command, or one unit of time. -/
theorem step_happens {s t : State} (h : step s = .next t) :
    Happens s.part t.part ∨ t.part = { s.part with clock := s.part.clock + 1 } := by
  obtain ⟨pending, p⟩ := s
  cases pending with
  | nil => cases h; exact .inr rfl
  | cons c rest => exact .inl (exec_happens (s := ⟨rest, p⟩) h).2.2

/-- The events of lines, timers and the trace engine are operations of the blocks. -/
theorem moves_of_timed {p q : Part} (h : Timed p q) : Laws.Moves p q := by
  have panel (f : Panel → Panel) (hf : (f p.panel).forces = p.panel.forces ∨ (f p.panel).forces = ⟨[]⟩) :
      Laws.Moves p (p.onPanel f) := by
    refine Laws.m_panel (.refl p) _ fun hw => ?_
    rcases hf with hf | hf <;> rw [hf]
    · exact hw
    · rfl
  have pack : Laws.Moves p (packAcknowledged p) := by
    unfold packAcknowledged
    split
    · exact panel _ (.inl rfl)
    · exact .refl p
  cases h with
  | same => exact .refl p
  | quietEnds n _ =>
    unfold quietEnds
    refine Laws.Moves.trans ?_ (Laws.m_dispatchDecide _)
    split
    · exact Laws.m_chooseTransaction n p
    · exact .refl p
  | frameLeaves n _ =>
    unfold frameLeaves
    refine Laws.Moves.trans ?_ (Laws.m_dispatchDecide _)
    split
    · exact Laws.m_onLine (.refl p) _ _ fun h => h
    all_goals exact .refl p
  | windowEnds n _ =>
    unfold windowEnds
    refine Laws.Moves.trans ?_ (Laws.m_dispatchDecide _)
    split
    · split
      · exact Laws.m_endTransaction _ _ _
      · exact .refl p
    all_goals exact .refl p
  | gapEnds n _ =>
    unfold gapEnds
    refine Laws.Moves.trans ?_ (Laws.m_dispatchDecide _)
    split
    · split
      · exact Laws.m_endTransaction _ _ _
      · exact .refl p
    all_goals exact .refl p
  | fieldByte n b low _ => exact (Laws.m_fieldByte _ _ _ _).trans (Laws.m_dispatchDecide _)
  | arbiter => exact Laws.m_dispatchDecide _
  | periodEnds n _ =>
    unfold periodEnds
    refine Laws.Moves.trans ?_ (Laws.m_dispatchDecide _)
    have cycle := Laws.m_startCycle n (((p.line n).cycle + 1) % 8) p (Nat.mod_lt _ (by decide))
    split
    · dsimp only
      split
      · exact cycle.trans (Laws.m_takeTurn _ _)
      · exact cycle
    · exact .refl p
  | rideThroughEnds id => exact (Laws.m_rideThroughEnds _ _).trans (Laws.m_dispatchDecide _)
  | jobStarts =>
    unfold jobStarts startJob
    split
    · exact .refl p
    · split
      · exact Laws.m_trace (.refl p) _
      · split
        · exact .refl p
        · exact (Laws.m_trace (.refl p) _).trans (Laws.m_setPlanState _ _ _ _)
  | traceEnds =>
    unfold traceEnds
    split
    · exact Laws.m_completeTrace _ _ _
    · exact .refl p
  | planJobEnds =>
    unfold planJobEnds
    split
    · exact (Laws.m_onPlan (Laws.m_trace (.refl p) _) _ _).trans (Laws.m_setPlanState _ _ _ _)
    · exact .refl p
  | travelEnds v =>
    unfold travelEnds
    split
    · exact .refl p
    · split
      · exact (((Laws.m_failOp _ _ _).trans (Laws.m_offerStop _ _)).trans (Laws.m_planCourse _ _)).trans
          (Laws.m_dispatchDecide _)
      · exact .refl p
  | escalationDue id =>
    unfold escalationDue
    split
    · exact .refl p
    · split
      · exact .refl p
      · split
        · exact Laws.m_escalateAt _ _ _
        · exact .refl p
  | offerEnds id =>
    unfold offerEnds
    split
    · exact .refl p
    · split
      · exact .refl p
      · split
        · exact (Laws.m_place (Laws.m_onCrew (.refl p) _ _) _).trans (Laws.m_dispatchDecide _)
        · exact .refl p
  | packAcknowledged => exact pack
  | packFalls =>
    unfold packFalls
    split
    · exact panel _ (.inl rfl)
    · exact .refl p
  | packRises =>
    unfold packRises
    split
    · exact pack.trans (Laws.m_panel (.refl _) _ id)
    · exact .refl p
  | testEnds =>
    unfold testEnds
    split
    · exact panel _ (.inl rfl)
    · exact .refl p
  | keepaliveEnds =>
    unfold keepaliveEnds
    split
    · exact (panel _ (.inr rfl)).trans (Laws.m_panel (.refl _) _ id)
    · exact .refl p

/-! ## What the action of a request leaves alone -/

/-- A part and the same part after the action of a request: the clock stands, the request keeps its slot, and the link,
the tables and the lines stay in their ranges. -/
structure Serves (p q : Part) : Prop where
  clock : q.clock = p.clock
  executing : q.link.executing = p.link.executing
  waiting : q.link.waiting = p.link.waiting
  link : p.link.inRange → q.link.inRange
  tables : p.tablesOk → q.tablesOk
  lines : p.lines.inRange → q.lines.inRange

theorem Serves.trans {p q r : Part} (h : Serves p q) (k : Serves q r) : Serves p r :=
  ⟨k.clock.trans h.clock, k.executing.trans h.executing, k.waiting.trans h.waiting, k.link ∘ h.link, k.tables ∘ h.tables, k.lines ∘ h.lines⟩

theorem Serves.of_moves {p q : Part} (h : Laws.Moves p q) : Serves p q :=
  ⟨h.clock, h.link.executing, h.link.waiting, h.link.inRange, h.tables, h.lines⟩

theorem Serves.refl (p : Part) : Serves p p := .of_moves (.refl p)

theorem moves_enterRunning_lines (p : Part) : Laws.Moves p ([0, 1, 2, 3].foldl (fun p n => startLine n p) p) :=
  Laws.m_foldl (.refl p) _ (fun q n => Laws.m_startLine n q) _

theorem enterRunning_serves (p : Part) : Serves p (enterRunning p) := by
  unfold enterRunning
  refine Serves.trans (q := { p with
    segments := p.segments.map fun id s => s.started (p.feeds.idsWhere fun _ f => f.segment = id)
    feeds := p.feeds.map fun _ f => { f with live := deriveLive p.points f }
    valves := p.valves.map fun _ v => { v with position := v.normal.position, lastEnd := v.normal }
    link := { p.link with partState := .running }
    dispatch := { p.dispatch with levels := p.dispatch.reloads } }) ⟨rfl, rfl, rfl, id, ?_, id⟩ (.of_moves ?_)
  · exact ((((Laws.m_segments (.refl p) _ (Laws.wf_map _ _ _)).then fun q => Laws.m_feeds (.refl q) _
      (Laws.wf_map _ _ (fun _ (f : Feed) => { f with live := deriveLive p.points f }))).then fun q =>
      Laws.m_valves (.refl q) _ (Laws.wf_map _ _
        (fun _ (v : Valve) => { v with position := v.normal.position, lastEnd := v.normal }))).tables)
  · exact (((Laws.m_raise _ _).trans (moves_enterRunning_lines _)).trans (Laws.m_refreshLamps (.refl _))).trans
      (Laws.m_dispatchDecide _)

theorem ackOne_moves (x : Part × Nat) (id : Nat) : Laws.Moves x.1 (ackOne x id).1 := by
  unfold ackOne
  dsimp only
  split
  · exact .refl _
  · split
    · exact Laws.m_putPoint (.refl _) _ _ _ (by assumption)
    · exact .refl _

theorem addHolders_moves (id : Nat) (q : Plan) (p : Part) : Laws.Moves p (addHolders id q p) := by
  unfold addHolders
  refine Laws.m_foldl ?_ _ (fun _ _ => Laws.m_leaveReleases _ _ _) _
  exact (Laws.m_foldl (.refl p) _ (fun q _ => Laws.m_onValve (.refl q) _ _) _).trans (Laws.m_snoop _ _ _)

theorem dropHolders_moves (id : Nat) (q : Plan) (p : Part) : Laws.Moves p (dropHolders id q p) :=
  (Laws.m_foldl (.refl p) _ (fun q _ => Laws.m_onValve (.refl q) _ _) _).trans (Laws.m_snoop _ _ _)

theorem cancelOps_moves (id : Nat) (q : Plan) (f : Nat → Operation → Bool) (p : Part) :
    Laws.Moves p (cancelOps id q f p) :=
  Laws.m_foldl (.refl p) _ (fun q v => Laws.m_cancelOp v q) _

theorem afterCloses_moves (id : Nat) (vs : List Nat) (p : Part) : Laws.Moves p (afterCloses id vs p) := by
  unfold afterCloses
  refine Laws.Moves.trans ?_ (Laws.m_isolationTest _ _)
  exact Laws.m_foldl (Laws.m_cancelPending _ _) _ (fun _ _ => Laws.m_failureTest _ _ _) _

theorem orders_moves (a : Action) (o : Origin) (vs : List Nat) (p : Part) :
    Laws.Moves p (vs.foldl (fun p v => orderOp v a o p) p) :=
  Laws.m_foldl (.refl p) _ (fun _ _ => Laws.m_orderOp _ _ _ _) _

theorem requestPlan_moves {id : Nat} (target : Nat) (incident : Option Nat) {p : Part}
    (free : p.plans.firstFree 16 = some id) : Laws.Moves p (requestPlan id target incident p) := by
  have low := (Laws.firstFree_spec _ _ _ free).1
  unfold requestPlan
  refine Laws.m_place ?_ _
  have h := (Laws.m_plans (.refl p) (p.plans.set id
    (Plan.mk .requested target incident none p.time p.time [] [] [] [] none none)) (fun hw => Laws.wf_set _ _ _ _ hw low)).then
    fun q => Laws.m_trace (.refl q) { p.trace with planQueue := p.trace.planQueue ++ [id] }
  dsimp only
  split
  · exact h
  · rename_i i inc hi
    exact h.trans (Laws.m_putIncident (.refl _) _ _ (.inr ⟨inc, (Laws.bind_pair hi).2⟩))

theorem fillSlot_moves {slot : Option Nat} (id : Nat) (c : TakenCall) (p : Part) (h : ∀ n, slot = some n → n < 256) :
    Laws.Moves p (fillSlot slot id c p) := by
  unfold fillSlot
  split
  · exact .refl p
  · exact Laws.m_register (.refl p) _ (fun hw => Laws.wf_set _ _ _ _ hw (h _ rfl)) fun h => h

theorem slotFor_lt {p : Part} {listed n : Nat} (h : p.slotFor listed = some n) : n < 256 := by
  unfold Part.slotFor at h
  split at h
  · cases h
  · exact (Laws.firstFree_spec _ _ _ h).1

theorem fillSlot_incidents (slot : Option Nat) (id : Nat) (c : TakenCall) (p : Part) :
    (fillSlot slot id c p).register.incidents = p.register.incidents := by
  unfold fillSlot; split <;> rfl

theorem mergeCall_moves {id : Nat} {i : Incident} (c : TakenCall) {p : Part} (hi : p.incident? id = some i) :
    Laws.Moves p (mergeCall id i c p).part := by
  unfold mergeCall callReply
  dsimp only
  refine Laws.Moves.trans ?_ (Laws.m_dispatchDecide _)
  have h := Laws.m_place ((fillSlot_moves (slot := p.slotFor i.calls.length) id c p fun n => slotFor_lt).trans
    (Laws.m_putIncident (.refl _) id { i.withSlot (p.slotFor i.calls.length) with
      total := bump i.total, kind := if c.kind = .damage then .damage else i.kind }
      (.inr ⟨i, by simpa only [Part.incident?, fillSlot_incidents] using hi⟩)))
    (.incidentMerged id c.kind c.grade c.reference (p.slotFor i.calls.length)
      (if c.kind = .damage then .damage else i.kind) (bump i.total)
      (i.withSlot (p.slotFor i.calls.length)).unlisted)
  split
  · exact h.trans (Laws.m_raiseGrade _ _ _ _ _)
  · exact h

theorem entryToOpen_spec {p : Part} {id : Nat} (h : p.entryToOpen = some id) :
    id < 128 ∨ ∃ i, p.incident? id = some i := by
  unfold Part.entryToOpen at h
  split at h
  · rename_i k hk; cases h; exact .inl (Laws.firstFree_spec _ _ _ hk).1
  · right
    simp only [Option.map_eq_some_iff] at h
    obtain ⟨r, hr, rfl⟩ := h
    have := Laws.pickBy_mem _ _ _ hr
    simp only [List.mem_filterMap] at this
    obtain ⟨e, he, pick⟩ := this
    split at pick
    · cases pick
      exact get?_of_mem_idsWhere (t := p.register.incidents) (f := fun _ _ => true)
        (List.mem_map.mpr ⟨e, by simpa using he, rfl⟩)
    · cases pick

theorem confirmAtOpening_moves (id : Nat) (p : Part) : Laws.Moves p (confirmAtOpening id p) := by
  unfold confirmAtOpening
  split
  · exact .refl p
  · split
    · split
      · exact Laws.m_raiseGrade _ _ _ _ _
      · exact .refl p
    · exact .refl p

theorem openIncident_moves {id : Nat} (c : TakenCall) {p : Part} (he : p.entryToOpen = some id) :
    Laws.Moves p (openIncident id c p).part := by
  unfold openIncident callReply
  dsimp only
  refine Laws.Moves.trans ?_ (Laws.m_dispatchDecide _)
  refine Laws.Moves.trans ?_ (confirmAtOpening_moves _ _)
  refine Laws.m_place (Laws.m_onDistrict ?_ _ _) _
  refine (fillSlot_moves id c p fun n => slotFor_lt (listed := 0)).trans (Laws.m_putIncident (.refl _) _ _ ?_)
  simpa only [Part.incident?, fillSlot_incidents] using entryToOpen_spec he

theorem erased_wf (slots : List Nat) (t : Table Call) (h : t.wf 256 = true) :
    (slots.foldl (fun t slot => t.erase slot) t).wf 256 = true := by
  induction slots generalizing t with
  | nil => exact h
  | cons s rest ih => exact ih _ (Laws.wf_erase _ _ _ h)

theorem closeIncident_moves {id : Nat} {i : Incident} {p : Part} (hi : p.incident? id = some i) :
    Laws.Moves p (closeIncident id i p) := by
  unfold closeIncident
  refine Laws.m_onDistrict ?_ _ _
  have h := Laws.m_register (.refl p)
    { p.register with calls := i.calls.foldl (fun t slot => t.erase slot) p.register.calls } (erased_wf _ _) fun h => h
  have h := (Laws.m_place (Laws.m_putIncident h id { i with
    state := .closed, stateTime := p.time, nextEscalation := none, calls := [] } (.inr ⟨i, hi⟩))
    (.incidentState id i.state .closed .host i.crew)).trans (Laws.m_endJob ⟨.leak, id⟩ _)
  refine Laws.m_putIncident (Laws.m_plans h _ (Laws.wf_map _ _ _)) _ _ (.inr ?_)
  simp [Part.incident?, Laws.f_endJob_register, putIncident, refreshLamps]

theorem acceptJob_moves (crew : Nat) (j : Job) (cause : IncidentCause) (p : Part) :
    Laws.Moves p (acceptJob crew j cause p) := by
  unfold acceptJob
  split
  · split
    · exact .refl p
    · exact (Laws.m_putIncident (.refl p) _ _ (.inr ⟨_, by assumption⟩)).trans (Laws.m_setIncidentState _ _ _ _)
  · split
    · exact Laws.m_setOpState _ _ _ _
    · exact .refl p
  · exact (Laws.m_setSupply _ _ _).trans (Laws.m_markSegment _ _)

theorem endOtherOffer_moves (crew : Nat) (j : Job) (p : Part) : Laws.Moves p (endOtherOffer crew j p) := by
  unfold endOtherOffer
  split
  · exact .refl p
  · split
    · exact .refl p
    · exact Laws.m_place (Laws.m_onCrew (.refl p) _ _) _

theorem returnJob_moves (j : Job) (p : Part) : Laws.Moves p (returnJob j p).1 := by
  unfold returnJob
  split
  · split
    · exact .refl p
    · dsimp only
      have h := Laws.m_putIncident (.refl p) j.item
      split
      · exact (h _ (.inr ⟨_, by assumption⟩)).trans (Laws.m_setIncidentState _ _ _ _)
      · exact h _ (.inr ⟨_, by assumption⟩)
  · split
    · exact Laws.m_setOpState _ _ _ _
    · exact .refl p
  · split
    · exact (Laws.m_setSupply _ _ _).trans (Laws.m_markSegment _ _)
    · exact .refl p

theorem crewClears_moves (crew : Nat) (c : Crew) (p : Part) : Laws.Moves p (crewClears crew c p).part := by
  unfold crewClears
  dsimp only [okWith]
  refine Laws.Moves.trans (Laws.m_onCrew ?_ _ _) (Laws.m_dispatchDecide _)
  split
  · exact .refl p
  · exact returnJob_moves _ _

theorem crewArrives_moves (crew : Nat) (c : Crew) (p : Part) : Laws.Moves p (crewArrives crew c p) := by
  have h := Laws.m_onCrew (.refl p) crew fun c => { c with state := .onSite }
  unfold crewArrives
  dsimp only
  split
  · exact h
  · split
    · split
      · exact h.trans (Laws.m_setIncidentState _ _ _ _)
      · exact h
    all_goals exact h

theorem addRelit_moves (seg : Nat) (s : Segment) (n : Nat) (p : Part) : Laws.Moves p (addRelit seg s n p) := by
  have h := Laws.m_onSegment (.refl p) seg fun x => { x with relit := min (s.relit + n) s.customers }
  unfold addRelit
  dsimp only
  split
  · exact h
  · rename_i ho
    exact Laws.m_putOutage h _ _ (.inr ⟨_, (Laws.bind_pair ho).2⟩)

theorem setForce_wf (lamp : Nat) (f : Option Lamp) (t : Table Lamp) (hl : lamp < 36) (h : t.wf 36 = true) :
    (setForce lamp f t).wf 36 = true := by
  cases f
  · exact Laws.wf_erase _ _ _ h
  · exact Laws.wf_set _ _ _ _ h hl

theorem onSupervision_moves (f : Supervision → Supervision) (p : Part) : Laws.Moves p (p.onSupervision f) :=
  Laws.m_panel (.refl p) _ id

theorem resumeAttended_moves (p : Part) : Laws.Moves p (resumeAttended p) :=
  (Laws.m_place (onSupervision_moves (fun v =>
    { v with unattended := false, returnCount := 0, expiry := some (p.time + v.period) }) p) _).trans
    (Laws.m_dispatchDecide _)

theorem acceptToken_moves (token : Byte) (p : Part) : Laws.Moves p (acceptToken token p) := by
  have h := onSupervision_moves (fun v => { v with lastToken := some token }) p
  unfold acceptToken
  dsimp only
  split
  · exact h.trans (onSupervision_moves _ _)
  · split
    · exact h.trans (onSupervision_moves _ _)
    · exact h.trans (resumeAttended_moves _)

theorem bringAllForward_moves (p : Part) : Laws.Moves p (bringAllForward p) := by
  unfold bringAllForward
  split
  · exact (Laws.m_foldl (.refl p) _ (fun q id => Laws.m_bringForward id q) _).trans (Laws.m_dispatchDecide _)
  · exact .refl p

/-- Every action of a request is one of three that write the link, or moves the part. -/
theorem moves_of_acts {p q : Part} (h : Acts p q) : (∃ m, q = { p with link := { p.link with enables := m } }) ∨
    (p.link.partState = .unloaded ∧ q = { p with link := { p.link with partState := .loading } }) ∨
    (p.link.partState = .loading ∧ q = enterRunning p) ∨ Laws.Moves p q := by
  cases h
  case setNotices m => exact .inl ⟨m, rfl⟩
  case beginLoad unloaded => exact .inr (.inl ⟨unloaded, rfl⟩)
  case endLoad loading _ => exact .inr (.inr (.inl ⟨loading, rfl⟩))
  all_goals refine .inr (.inr (.inr ?_))
  case readChanges => exact Laws.m_segments (.refl p) _ (Laws.wf_map _ _ _)
  case setLine => exact Laws.m_onLine (.refl p) _ _ fun h => ⟨h.1, h.2.1, h.2.2⟩
  case defineOutstation low => exact Laws.m_outstations (.refl p) _ fun hw => Laws.wf_set _ _ _ _ hw low
  case definePoint low _ => exact Laws.m_points (.refl p) _ fun hw => Laws.wf_set _ _ _ _ hw low
  case defineDistrict low => exact Laws.m_districts (.refl p) _ fun hw => Laws.wf_set _ _ _ _ hw low
  case defineSegment low => exact Laws.m_segments (.refl p) _ fun hw => Laws.wf_set _ _ _ _ hw low
  case defineValve low => exact Laws.m_valves (.refl p) _ fun hw => Laws.wf_set _ _ _ _ hw low
  case defineFeed low => exact Laws.m_feeds (.refl p) _ fun hw => Laws.wf_set _ _ _ _ hw low
  case defineCrew low _ => exact Laws.m_dispatch (.refl p) _ fun hw => Laws.wf_set _ _ _ _ hw low
  case setResponse =>
    refine Laws.Moves.trans ?_ (bringAllForward_moves _)
    exact Laws.m_register (.refl p) _ id id
  case setDispatch =>
    refine Laws.Moves.trans ?_ (Laws.m_dispatchDecide _)
    exact Laws.m_dispatch (.refl p) _ id
  case holdLine => exact (Laws.m_holdLine _ _).trans (Laws.m_dispatchDecide _)
  case freeLine => exact Laws.m_freeLine _ _
  case ackPoint ids _ => exact Laws.m_refreshLamps (Laws.m_foldlWith _ ackOne_moves ids (p, 0) (.refl p))
  case setBands hpt _ => exact Laws.m_putPoint (.refl p) _ _ _ hpt
  case editSegment => exact Laws.m_onSegment (.refl p) _ _
  case editValve => exact Laws.m_changeInoperable _ _ _ _
  case editFeed hf => exact (Laws.m_feeds (.refl p) _ fun hw => Laws.wf_set_used _ _ _ _ _ hw hf).trans (Laws.m_writeLiveness _ _)
  case seizureReported v _ =>
    exact (((Laws.m_changeInoperable _ _ _ _).trans (Laws.m_opSeizedReport v _)).trans (Laws.m_planCourse _ _)).trans
      (Laws.m_dispatchDecide _)
  case endReported v e _ =>
    exact ((((Laws.m_writePosition v e.position (some e) p).trans (Laws.m_snoop _ _ _)).trans (Laws.m_opEndReport _ _ _)).trans
      (Laws.m_planCourse _ _)).trans (Laws.m_dispatchDecide _)
  case requestPlan free _ => exact requestPlan_moves _ _ free
  case dropPlan => exact Laws.m_freePlan _ _
  case executePlan id q _ _ _ _ _ =>
    exact (((((addHolders_moves id q p).trans (orders_moves _ _ _ _)).trans (Laws.m_setPlanState _ _ _ _))).trans
      (afterCloses_moves _ _ _)).trans (Laws.m_dispatchDecide _)
  case reissuePlan id q _ _ _ =>
    unfold reissuePlan
    dsimp only
    have h := orders_moves (p.reissued q).1 (.plan id) (p.reissued q).2 p
    split
    · exact (((Laws.m_onPlan h _ _).trans (Laws.m_setPlanState _ _ _ _)).trans (afterCloses_moves _ _ _)).trans
        (Laws.m_dispatchDecide _)
    · exact h.trans (Laws.m_dispatchDecide _)
  case abortPlan =>
    exact (((cancelOps_moves _ _ _ _).trans (dropHolders_moves _ _ _)).trans (Laws.m_freePlan _ _)).trans
      (Laws.m_dispatchDecide _)
  case releasePlan id q _ _ _ =>
    unfold releasePlan
    dsimp only
    refine Laws.Moves.trans ?_ (Laws.m_dispatchDecide _)
    have h := (Laws.m_onPlan (((cancelOps_moves id q
      (fun v o => o.endsAtRelease ((p.reopened id q).contains v)) p).trans (dropHolders_moves id q _))) id
      (fun x => { x with releaseList := p.reopened id q })).trans (orders_moves .toOpen (.plan id) (p.reopened id q) _)
    split
    · exact (h.trans (Laws.m_setPlanState _ _ _ _)).trans (Laws.m_freePlan _ _)
    · exact h.trans (Laws.m_setPlanState _ _ _ _)
  case operateValve =>
    exact ((Laws.m_orderOp _ _ _ _).trans (Laws.m_leaveReleases _ _ _)).trans (Laws.m_dispatchDecide _)
  case noGasCall => exact Laws.m_noGasCall _ _
  case mergeCall hi _ => exact mergeCall_moves _ hi
  case openIncident he _ => exact openIncident_moves _ he
  case makeSafe => exact (Laws.m_makeSafe _ _ _).trans (Laws.m_dispatchDecide _)
  case repair => exact (Laws.m_setIncidentState _ _ _ _).trans (Laws.m_dispatchDecide _)
  case closeIncident hi _ => exact (closeIncident_moves hi).trans (Laws.m_dispatchDecide _)
  case crewState => exact (Laws.m_onCrew (.refl p) _ _).trans (Laws.m_dispatchDecide _)
  case acceptOffer =>
    exact ((Laws.m_onCrew (.refl p) _ _).trans (acceptJob_moves _ _ _ _)).trans (Laws.m_dispatchDecide _)
  case declineOffer => exact (Laws.m_place (Laws.m_onCrew (.refl p) _ _) _).trans (Laws.m_dispatchDecide _)
  case assignCrew id _ j _ _ _ _ =>
    exact ((Laws.m_onCrew (endOtherOffer_moves id j p) _ _).trans (acceptJob_moves _ _ _ _)).trans (Laws.m_dispatchDecide _)
  case crewArrives => exact crewArrives_moves _ _ _
  case crewClears => exact crewClears_moves _ _ _
  case purgeSegment =>
    unfold purgeSegment
    refine Laws.Moves.trans ?_ (Laws.m_dispatchDecide _)
    split
    · exact (Laws.m_onSegment (.refl p) _ _).trans (Laws.m_markSegment _ _)
    · exact Laws.m_restoreSegment _ _
  case relightSegment id s n _ _ _ =>
    unfold relightSegment
    dsimp only
    split
    · exact ((addRelit_moves id s n p).trans (Laws.m_restoreSegment _ _)).trans (Laws.m_dispatchDecide _)
    · exact addRelit_moves id s n p
  case dismiss => exact Laws.m_outages (.refl p) _ (Laws.wf_erase _ _ _)
  case clearSuspect =>
    split
    · exact (Laws.m_onSegment (.refl p) _ _).trans (Laws.m_setSuspect _ _ _)
    · exact Laws.m_onSegment (.refl p) _ _
  case lampForce low => exact Laws.m_panel (.refl p) _ (setForce_wf _ _ _ low)
  case lampTest => exact Laws.m_panel (.refl p) _ id
  case silence => exact Laws.m_panel (.refl p) _ id
  case setSupervision => exact Laws.m_panel (.refl p) _ id
  case keepalive => exact acceptToken_moves _ _

/-- Every action of a request leaves alone what `Serves` says. -/
theorem serves_of_acts {p q : Part} (h : Acts p q) : Serves p q := by
  rcases moves_of_acts h with ⟨_, rfl⟩ | ⟨_, rfl⟩ | ⟨_, rfl⟩ | moves
  · exact ⟨rfl, rfl, rfl, id, id, id⟩
  · exact ⟨rfl, rfl, rfl, id, id, id⟩
  · exact enterRunning_serves p
  · exact .of_moves moves

/-- A part that is RUNNING stays so. -/
theorem running_of_acts {p q : Part} (h : Acts p q) (running : p.link.partState = .running) :
    q.link.partState = .running := by
  rcases moves_of_acts h with ⟨_, rfl⟩ | ⟨unloaded, _⟩ | ⟨loading, _⟩ | moves
  · exact running
  · rw [unloaded] at running; cases running
  · rw [loading] at running; cases running
  · exact moves.link.partState.trans running

/-- A request's execution up to its reply (R7): no LINK_FULL, and what `Serves` says. -/
theorem runRequest_serves (r : Request) (p : Part) : Serves p (runRequest r p).part := by
  rcases (runRequest_proper r p).outcome with ⟨_, same⟩ | ⟨_, same | act⟩
  · rw [same]; exact .refl p
  · rw [same]; exact .refl p
  · exact serves_of_acts act

end Sys2Proof.Proofs
end


section
/-!
Invariants of the part: what the events of the control link keep, once for every property that the actions of requests
and a change of the link keep; the clock and the queue; and the legal states, which every step keeps.
-/

namespace Sys2Proof.Proofs

open Sys2Proof Sys2Proof.Machine

/-- The part with the buffer, the slots, the queues, the transmitter or the counts of its link changed, the part state
as it was. -/
def KeepsLink (I : Part → Prop) : Prop := ∀ p l, l.partState = p.link.partState → I p → I (p.withLink l)

/-- The same, with the request of the executing slot as it was as well: what the receiver does to the link. -/
def KeepsReceiver (I : Part → Prop) : Prop :=
  ∀ p l, l.partState = p.link.partState → l.executing = p.link.executing → I p → I (p.withLink l)

theorem KeepsLink.receiver {I : Part → Prop} (h : KeepsLink I) : KeepsReceiver I := fun p l state _ => h p l state

theorem answer_partState (st : Status) (res : List Byte) (l : Link) : (l.answer st res).partState = l.partState := by
  unfold Link.answer
  split <;> simp

theorem turnAway_partState (r : Request) (l : Link) : (l.turnAway r).partState = l.partState := by
  unfold Link.turnAway
  split
  · simp
  · rfl

section
variable {I : Part → Prop} (link : KeepsReceiver I) (arrives : ∀ r p, I p → I (requestArrives r p))
include link arrives

theorem handFrame_keeps (cand : List RxByte) {p : Part} (h : I p) : I (handFrame cand p) := by
  unfold handFrame
  dsimp only
  split
  · exact arrives _ _ h
  · exact link p _ rfl rfl h

theorem examine_keeps (n : Nat) (rx : List RxByte) {p : Part} (h : I p) : I (examine n rx p) := by
  induction n generalizing rx p with
  | zero => exact link p _ rfl rfl h
  | succ n ih =>
    cases rx with
    | nil => exact link p _ rfl rfl h
    | cons b rest =>
      unfold examine
      split
      · split
        · exact ih _ (handFrame_keeps link arrives _ h)
        · exact ih _ (link p _ rfl rfl h)
        · split
          · exact ih _ (link p _ rfl rfl h)
          · exact link p _ rfl rfl h
      · exact ih _ h

theorem abandon_keeps (cand : List RxByte) {p : Part} (h : I p) : I (abandon cand p) :=
  examine_keeps link arrives _ _ (link p _ rfl rfl h)

theorem closeGap_keeps {p : Part} (h : I p) : I (closeGap p) := by
  unfold closeGap
  split
  · exact abandon_keeps link arrives _ h
  · exact h

theorem receiveByte_keeps (b : RxByte) {p : Part} (h : I p) : I (receiveByte b p) := by
  have h := closeGap_keeps link arrives h
  have heard := link (closeGap p) { (closeGap p).link with lastRx := (closeGap p).clock } rfl rfl h
  unfold receiveByte takeByte
  dsimp only
  split
  · exact heard
  · exact link _ _ rfl rfl heard
  · exact handFrame_keeps link arrives _ (link _ _ rfl rfl heard)
  · exact abandon_keeps link arrives _ heard

end

section
variable {I : Part → Prop} (link : KeepsLink I) (acts : ∀ p q, I p → Acts p q → I q)
include link acts

theorem executeRequest_keeps (r : Request) {p : Part} (h : I p) : I (executeRequest r p) := by
  have begun : I (p.withLink (p.link.begin r)) := link _ _ rfl h
  refine link (runRequest r (p.withLink (p.link.begin r))).part _ (answer_partState _ _ _) ?_
  rcases (runRequest_proper r (p.withLink (p.link.begin r))).outcome with ⟨_, same⟩ | ⟨_, same | act⟩
  · rw [same]; exact begun
  · rw [same]; exact begun
  · exact acts _ _ begun act

theorem requestArrives_keeps (r : Request) {p : Part} (h : I p) : I (requestArrives r p) := by
  unfold requestArrives
  split
  · exact executeRequest_keeps link acts r h
  · split
    · exact link p _ rfl h
    · exact link p _ (turnAway_partState _ _) h

theorem promoteWaiting_keeps {p : Part} (h : I p) : I (promoteWaiting p) := by
  have freed := link p { p.link with executing := none, waiting := none } rfl h
  unfold promoteWaiting
  dsimp only
  split
  · exact freed
  · exact executeRequest_keeps link acts _ freed

/-- The end of a frame on TXD: the property stays, or the part is released by a RESTART (R19). -/
theorem frameSent_keeps {p : Part} (h : I p) :
    I (frameSent p) ∨ frameSent p = Part.released .restart p.link.rate p.link.errorCount p.link.lostCount := by
  unfold frameSent
  split
  · exact .inl h
  · dsimp only
    have idle := link p p.link.txIdle rfl h
    split
    · exact .inl (link p _ (Laws.startNext_partState _) h)
    · unfold replySent
      split
      · exact .inr rfl
      · exact .inl (link _ _ (Laws.startNext_partState _) (promoteWaiting_keeps link acts idle))
  · exact .inl (link p _ (Laws.startNext_partState _) h)

theorem runsOn_keeps (timed : ∀ p q, I p → Timed p q → I q) {p q : Part} (h : I p) (on : RunsOn p q) : I q := by
  cases on with
  | request r => exact requestArrives_keeps link acts r h
  | byte b => exact receiveByte_keeps link.receiver (fun r _ h => requestArrives_keeps link acts r h) b h
  | gap => exact closeGap_keeps link.receiver (fun r _ h => requestArrives_keeps link acts r h) h
  | timed t => exact timed _ _ h t

/-- A property that the actions of requests, the events of the blocks, a reset and any change of the link keep is kept
by every event. -/
theorem happens_keeps (timed : ∀ p q, I p → Timed p q → I q) (released : ∀ c r e l, I (Part.released c r e l))
    {p q : Part} (h : I p) (happens : Happens p q) : I q := by
  cases happens with
  | reset cause rate => exact released _ _ _ _
  | sent =>
    rcases frameSent_keeps link acts h with same | reset
    · exact same
    · rw [reset]; exact released _ _ _ _
  | on e => exact runsOn_keeps link acts timed h e

/-- The same for a step, for a property that the clock does not touch. -/
theorem step_keeps (timed : ∀ p q, I p → Timed p q → I q) (released : ∀ c r e l, I (Part.released c r e l))
    (clock : ∀ p n, I p → I { p with clock := n }) {s t : State} (h : I s.part) (hs : step s = .next t) : I t.part := by
  rcases step_happens hs with event | time
  · exact happens_keeps link acts timed released h event
  · rw [time]; exact clock _ _ h

end

/-! ## The clock and the queue -/

/-- A command moves the clock at a reset alone. -/
theorem partAfter_clock (c : Instr) (p : Part) : (partAfter c p).clock = p.clock ∨
    ((partAfter c p).clock = 0 ∧ ((∃ a b d, c = .powerOnReset a b d) ∨ c = .transmitEnd)) := by
  have link : KeepsLink fun q => q.clock = p.clock := fun _ _ _ h => h
  have acts (q r : Part) (h : q.clock = p.clock) (act : Acts q r) : r.clock = p.clock :=
    (serves_of_acts act).clock.trans h
  by_cases reset : ∃ a b d, c = .powerOnReset a b d
  · obtain ⟨a, b, d, rfl⟩ := reset
    exact .inr ⟨rfl, .inl ⟨a, b, d, rfl⟩⟩
  · by_cases sent : c = .transmitEnd
    · subst sent
      rcases frameSent_keeps link acts (p := p) rfl with same | restart
      · exact .inl same
      · exact .inr ⟨congrArg Part.clock restart, .inr rfl⟩
    · exact .inl (runsOn_keeps link acts (fun q r h t => (moves_of_timed t).clock.trans h) rfl
        (partAfter_runsOn p (fun a b d h => reset ⟨a, b, d, h⟩) sent))

/-- Settles O7: each command is one event, which leaves the queue and moves the clock at a reset alone. -/
theorem commandsLeaveTheClockAndTheQueue : Obligations.CommandsLeaveTheClockAndTheQueue := by
  refine ⟨fun c s t h => ?_, fun c s t h => (exec_happens h).1⟩
  obtain ⟨_, after, _⟩ := exec_happens h
  rw [after]
  exact partAfter_clock c s.part

/-! ## The machine as a whole -/

/-- Settles O1: by the definition of a step. -/
theorem stepRunsTheFrontCommand : Obligations.StepRunsTheFrontCommand := fun _ _ _ => rfl

/-- Settles O2: by the definition of a step and of the passing of time. -/
theorem anEmptyQueueLetsTimePass : Obligations.AnEmptyQueueLetsTimePass := fun _ => rfl

/-- Settles O6: `exec_eq` gives the next state of every command. -/
theorem everyCommandCompletes : Obligations.EveryCommandCompletes := fun c s => ⟨_, exec_eq c s⟩

/-- The fresh lines of a released part. -/
theorem released_line (cause : ResetCause) (rate errors lost n : Nat) :
    (Part.released cause rate errors lost).line n = {} := by
  match n with
  | 0 | 1 | 2 | _ + 3 => rfl

theorem released_time (cause : ResetCause) (rate errors lost : Nat) :
    (Part.released cause rate errors lost).time = 0 := by
  simp [Part.time, Part.released, ticksPerSecond]

theorem strapRate_eq (lr1 lr0 : Bool) :
    strapRate lr1 lr0 = if lr1 then (if lr0 then 460800 else 115200) else if lr0 then 57600 else 19200 := by
  cases lr1 <;> cases lr0 <;> rfl

/-- Settles O8: the part is the released one, at the strapped rate. -/
theorem powerOnResetState : Obligations.PowerOnResetState := fun _ lr1 lr0 _ =>
  ⟨_, rfl, rfl, strapRate_eq lr1 lr0, rfl, rfl, rfl, rfl, rfl, rfl, rfl, rfl, rfl, rfl, rfl, rfl, released_time _ _ _ _,
    rfl, rfl, rfl, rfl, rfl, rfl, rfl, rfl, rfl, rfl, rfl, fun _ => released_line _ _ _ _ _, rfl⟩

/-! ## The legal states -/

/-- What a request's execution needs of the part that it begins on: the ranges of the link, the lines and the tables. -/
structure Ranged (p : Part) : Prop where
  link : p.link.inRange
  lines : p.lines.inRange
  tables : p.tablesOk

theorem ranged_of_legal {p : Part} (h : p.Legal) : Ranged p := ⟨h.link, h.lines, h.tables⟩

theorem legal_of_moves {p q : Part} (h : p.Legal) (m : Laws.Moves p q) : q.Legal :=
  ⟨m.link.inRange h.link, m.link.settled h.settled, m.lines h.lines, m.tables h.tables⟩

/-- Another link that is in its ranges and settled. -/
theorem legal_withLink {p : Part} (h : Ranged p) {l : Link} (range : l.inRange) (settled : l.settled) :
    (p.withLink l).Legal := ⟨range, settled, h.lines, h.tables⟩

/-- A frame that an idle transmitter begins, when every request in the slot has its reply made. -/
theorem legal_startNext {p : Part} (h : Ranged p) (made : ∀ e, p.link.executing = some e → e.replied = true) :
    (p.withLink p.link.startNext).Legal := by
  refine legal_withLink h (Laws.startNext_inRange _ h.link) ⟨by simpa using made, ?_⟩
  refine Laws.startNext_settled _ ?_
  rcases he : p.link.executing with _ | e
  · simp [Link.midRequest, he]
  · simp [Link.midRequest, he, made e he]

/-- A request's execution leaves the part legal: the action keeps the ranges and the slot, and the answer settles the
link. -/
theorem executeRequest_legal (r : Request) {p : Part} (h : Ranged p) : (executeRequest r p).Legal := by
  obtain ⟨_, slot, _, link, tables, lines⟩ := runRequest_serves r (p.withLink (p.link.begin r))
  obtain ⟨h1, h2, h3, h4, h5, _⟩ := h.link
  have range := link ⟨h1, h2, h3, h4, h5, fun empty => by cases empty⟩
  exact ⟨Laws.answer_inRange _ ⟨r, false⟩ _ _ slot (runRequest_proper r _).notFull range,
    (Laws.answer_spec _ ⟨r, false⟩ _ _ slot).2.2, lines h.lines, tables h.tables⟩

theorem requestArrives_legal (r : Request) {p : Part} (h : p.Legal) : (requestArrives r p).Legal := by
  unfold requestArrives
  split
  · exact executeRequest_legal r (ranged_of_legal h)
  · rename_i e busy
    split
    · obtain ⟨h1, h2, h3, h4, h5, _⟩ := h.link
      exact legal_withLink (ranged_of_legal h) ⟨h1, h2, h3, h4, h5, fun empty => by simp [busy] at empty⟩ h.settled
    · exact legal_withLink (ranged_of_legal h) (Laws.turnAway_inRange _ _ h.link) (Laws.turnAway_settled _ _ h.settled)

theorem countError_legal {p : Part} (h : p.Legal) : (p.withLink p.link.countError).Legal := by
  obtain ⟨h1, h2, h3, _, h5, h6⟩ := h.link
  exact legal_withLink (ranged_of_legal h) ⟨h1, h2, h3, Nat.min_le_left _ _, h5, h6⟩ h.settled

theorem setBuffer_legal (rx : List RxByte) {p : Part} (h : p.Legal) : (setBuffer rx p).Legal :=
  legal_withLink (ranged_of_legal h) h.link h.settled

theorem handFrame_legal (cand : List RxByte) {p : Part} (h : p.Legal) : (handFrame cand p).Legal := by
  unfold handFrame
  dsimp only
  split
  · exact requestArrives_legal _ h
  · exact countError_legal h

theorem examine_legal (n : Nat) (rx : List RxByte) {p : Part} (h : p.Legal) : (examine n rx p).Legal := by
  induction n generalizing rx p with
  | zero => exact setBuffer_legal _ h
  | succ n ih =>
    cases rx with
    | nil => exact setBuffer_legal _ h
    | cons b rest =>
      unfold examine
      split
      · split
        · exact ih _ (handFrame_legal _ h)
        · exact ih _ (countError_legal h)
        · split
          · exact ih _ (countError_legal h)
          · exact setBuffer_legal _ h
      · exact ih _ h

theorem closeGap_legal {p : Part} (h : p.Legal) : (closeGap p).Legal := by
  unfold closeGap
  split
  · exact examine_legal _ _ (countError_legal h)
  · exact h

theorem receiveByte_legal (b : RxByte) {p : Part} (h : p.Legal) : (receiveByte b p).Legal := by
  have h := closeGap_legal h
  have heard : ((closeGap p).withLink { (closeGap p).link with lastRx := (closeGap p).clock }).Legal :=
    legal_withLink (ranged_of_legal h) h.link h.settled
  unfold receiveByte takeByte
  dsimp only
  split
  · exact heard
  · exact setBuffer_legal _ heard
  · exact handFrame_legal _ (setBuffer_legal _ heard)
  · exact examine_legal _ _ (countError_legal heard)

theorem released_legal (cause : ResetCause) (rate : Nat) {errors lost : Nat} (he : errors ≤ maxCount)
    (hl : lost ≤ maxCount) : (Part.released cause rate errors lost).Legal where
  link := ⟨Nat.zero_le _, Nat.zero_le _, (by decide : 1 < 256), he, hl, fun _ => rfl⟩
  settled := ⟨nofun, nofun⟩
  lines := by
    have fresh : ({} : Line).inRange := ⟨Nat.zero_le _, Nat.zero_le _, Nat.zero_lt_succ _⟩
    exact ⟨fresh, fresh, fresh, fresh⟩
  tables := ⟨rfl, rfl, rfl, rfl, rfl, rfl, rfl, rfl, rfl, rfl, rfl, rfl⟩

theorem promoteWaiting_ranged {p : Part} (h : Ranged p) :
    Ranged (promoteWaiting p) ∧ ∀ e, (promoteWaiting p).link.executing = some e → e.replied = true := by
  obtain ⟨h1, h2, h3, h4, h5, _⟩ := h.link
  have freed : Ranged (p.withLink { p.link with executing := none, waiting := none }) :=
    ⟨⟨h1, h2, h3, h4, h5, fun _ => rfl⟩, h.lines, h.tables⟩
  unfold promoteWaiting
  dsimp only
  split
  · exact ⟨freed, fun _ h => by cases h⟩
  · have legal := executeRequest_legal (by assumption) freed
    exact ⟨ranged_of_legal legal, legal.settled.1⟩

theorem frameSent_legal {p : Part} (h : p.Legal) : (frameSent p).Legal := by
  have idle : Ranged (p.withLink p.link.txIdle) := ⟨h.link, h.lines, h.tables⟩
  unfold frameSent
  split
  · exact h
  · dsimp only
    split
    · exact legal_startNext idle h.settled.1
    · unfold replySent
      split
      · obtain ⟨_, _, _, errors, lost, _⟩ := h.link
        exact released_legal _ _ errors lost
      · obtain ⟨ranged, made⟩ := promoteWaiting_ranged idle
        exact legal_startNext ranged made
  · exact legal_startNext idle h.settled.1

/-- Settles O4: a block's event moves only what `Laws.Moves` lets it, and the events of the link are followed through
the slots, the receiver and the transmitter. -/
theorem everyStepKeepsTheLegalStates : Obligations.EveryStepKeepsTheLegalStates := by
  intro s t h hs
  rcases step_happens hs with event | time
  · generalize t.part = q at event ⊢
    cases event with
    | reset cause rate => exact released_legal _ _ (Nat.zero_le _) (Nat.zero_le _)
    | sent => exact frameSent_legal h
    | on e =>
      cases e with
      | request r => exact requestArrives_legal r h
      | byte b => exact receiveByte_legal b h
      | gap => exact closeGap_legal h
      | timed e => exact legal_of_moves h (moves_of_timed e)
  · rw [time]
    exact ⟨h.link, h.settled, h.lines, h.tables⟩

end Sys2Proof.Proofs
end


section
/-!
The holders of valves, the OPEN operations under way, and the phases of plans: the relation between a part and the same
part after operations that order no OPEN, give and drop no hold, and move no plan but inside its phase. All shared
operations are such; the requests over plans and the planner's jobs are looked at one by one.
-/

namespace Sys2Proof.Proofs

open Sys2Proof Sys2Proof.Machine

/-- What a plan's state says of the holds, the job queue and the engine. -/
inductive PlanPhase where
  | idle | queued | computed | holding | releasing
  deriving DecidableEq

/-- The phase of a plan state: a plan holds its valves in EXECUTING, BLOCKED and ISOLATED (R109). -/
def phaseOf : PlanState → PlanPhase
  | .requested => .queued
  | .computing => .computed
  | .executing | .blocked | .isolated => .holding
  | .releasing => .releasing
  | .free | .ready | .stale | .failed => .idle

/-- The phase of a plan and its lists. -/
def planCore (q : Plan) : PlanPhase × List Nat × List Nat := (phaseOf q.state, q.closeList, q.holdList)

/-- An OPEN operation of a valve is PENDING or ACTING. -/
def isOpening (x : Valve) : Prop := ∃ o, x.operation = some o ∧ o.action = .toOpen ∧ o.live = true

/-- A part and the same part after operations that order no OPEN, give no hold, and put no plan in RELEASING. -/
structure Eases (p q : Part) : Prop where
  valves : ∀ v x, q.valves.get? v = some x →
    ∃ y, p.valves.get? v = some y ∧ x.holders ⊆ y.holders ∧ (isOpening x → isOpening y)
  release : ∀ id x, q.plans.get? id = some x → x.state = .releasing →
    ∃ y, p.plans.get? id = some y ∧ y.state = .releasing ∧ x.releaseList ⊆ y.releaseList

/-- And that leave the holds, the job queue and the engine, and take a plan out of its phase only by freeing it from
RELEASING, in a plan table whose ids rise. -/
structure Calm (p q : Part) : Prop extends Eases p q where
  holders : ∀ v, (q.valves.get? v).map (·.holders) = (p.valves.get? v).map (·.holders)
  wf : p.plans.wf 16 = true → q.plans.wf 16 = true
  plans : p.plans.wf 16 = true → ∀ id, (q.plans.get? id).map planCore = (p.plans.get? id).map planCore ∨
    ∃ x, p.plans.get? id = some x ∧ x.state = .releasing ∧ q.plans.get? id = none
  queue : q.trace.planQueue = p.trace.planQueue
  engine : q.trace.engine = p.trace.engine

/-- Operations that leave the valves and the plans. -/
theorem eases_of_eq {p q : Part} (hv : q.valves = p.valves) (hp : q.plans = p.plans) : Eases p q where
  valves _ x hx := ⟨x, hv ▸ hx, List.Subset.refl _, fun h => h⟩
  release _ x hx hr := ⟨x, hp ▸ hx, hr, List.Subset.refl _⟩

/-- Operations that leave the valves, the plans and the trace engine. -/
theorem calm_of_eq {p q : Part} (hv : q.valves = p.valves) (hp : q.plans = p.plans) (ht : q.trace = p.trace) :
    Calm p q where
  toEases := eases_of_eq hv hp
  holders v := by rw [hv]
  wf h := by rw [hp]; exact h
  plans _ id := .inl (by rw [hp])
  queue := by rw [ht]
  engine := by rw [ht]

theorem Calm.refl (p : Part) : Calm p p := calm_of_eq rfl rfl rfl

theorem Eases.refl (p : Part) : Eases p p := eases_of_eq rfl rfl

theorem Eases.trans {p q r : Part} (h : Eases p q) (k : Eases q r) : Eases p r where
  valves v x hx := by
    obtain ⟨y, hy, sub, op⟩ := k.valves v x hx
    obtain ⟨z, hz, sub', op'⟩ := h.valves v y hy
    exact ⟨z, hz, fun i hi => sub' (sub hi), op' ∘ op⟩
  release id x hx hr := by
    obtain ⟨y, hy, hyr, sub⟩ := k.release id x hx hr
    obtain ⟨z, hz, hzr, sub'⟩ := h.release id y hy hyr
    exact ⟨z, hz, hzr, fun v hv => sub' (sub hv)⟩

theorem Calm.trans {p q r : Part} (h : Calm p q) (k : Calm q r) : Calm p r where
  toEases := h.toEases.trans k.toEases
  holders v := (k.holders v).trans (h.holders v)
  wf w := k.wf (h.wf w)
  plans w id := by
    rcases h.plans w id with same | ⟨x, hx, hr, gone⟩
    · rcases k.plans (h.wf w) id with same' | ⟨y, hy, hyr, gone⟩
      · exact .inl (same'.trans same)
      · obtain ⟨x, hx, hr, _⟩ := h.release id y hy hyr
        exact .inr ⟨x, hx, hr, gone⟩
    · rcases k.plans (h.wf w) id with same' | ⟨y, hy, _, _⟩
      · rw [gone] at same'
        exact .inr ⟨x, hx, hr, by simpa using same'⟩
      · rw [gone] at hy; cases hy
  queue := k.queue.trans h.queue
  engine := k.engine.trans h.engine

/-- An operation after operations. -/
theorem Calm.then {p q : Part} (h : Calm p q) {f : Part → Part} (hf : ∀ q, Calm q (f q)) : Calm p (f q) := h.trans (hf q)

/-- A run of operations over a list. -/
theorem calm_foldl {α : Type} (f : Part → α → Part) (hf : ∀ q a, Calm q (f q a)) (as : List α) (p : Part) :
    Calm p (as.foldl f p) := by
  induction as generalizing p with
  | nil => exact .refl p
  | cons a as ih => exact (hf p a).trans (ih _)

/-- A run of operations over a list, with something beside the part carried along. -/
theorem calm_foldlWith {α γ : Type} (f : Part × γ → α → Part × γ) (hf : ∀ x a, Calm x.1 (f x a).1) (as : List α)
    (x : Part × γ) : Calm x.1 (as.foldl f x).1 := by
  induction as generalizing x with
  | nil => exact .refl _
  | cons a as ih => exact (hf x a).trans (ih _)

/-! ### One valve, one plan -/

/-- One valve changed: it loses holders only, and is opening only if it was. -/
theorem eases_onValve {v : Nat} {f : Valve → Valve} {p : Part}
    (hf : ∀ x, p.valves.get? v = some x → (f x).holders ⊆ x.holders ∧ (isOpening (f x) → isOpening x)) :
    Eases p (p.onValve v f) where
  valves w x hx := by
    by_cases h : w = v
    · subst h
      simp only [Part.onValve, Laws.get?_modify_same, Option.map_eq_some_iff] at hx
      obtain ⟨y, hy, rfl⟩ := hx
      exact ⟨y, hy, hf y hy⟩
    · simp only [Part.onValve, Laws.get?_modify_other _ _ _ _ h] at hx
      exact ⟨x, hx, List.Subset.refl _, fun h => h⟩
  release _ x hx hr := ⟨x, hx, hr, List.Subset.refl _⟩

/-- One valve changed: its holders stay, and it is opening only if it was. -/
theorem calm_onValve {v : Nat} {f : Valve → Valve} {p : Part}
    (hf : ∀ x, p.valves.get? v = some x → (f x).holders = x.holders ∧ (isOpening (f x) → isOpening x)) :
    Calm p (p.onValve v f) where
  toEases := eases_onValve fun x hx => ⟨by rw [(hf x hx).1]; exact List.Subset.refl _, (hf x hx).2⟩
  holders w := by
    by_cases h : w = v
    · subst h
      simp only [Part.onValve, Laws.get?_modify_same]
      cases hx : p.valves.get? w with
      | none => rfl
      | some x => simp [(hf x hx).1]
    · simp only [Part.onValve, Laws.get?_modify_other _ _ _ _ h]
  wf h := h
  plans _ _ := .inl rfl
  queue := rfl
  engine := rfl

/-- A used valve rewritten is a valve changed. -/
theorem setValve_eq_onValve {v : Nat} {x : Valve} {p : Part} (hx : p.valves.get? v = some x) (y : Valve) :
    { p with valves := p.valves.set v y } = p.onValve v fun _ => y := by
  simp [Part.onValve, Table.modify, hx]

/-- A plan written: unless it is put in RELEASING, or loses valves of its release list. -/
theorem eases_setPlan {id : Nat} {y : Plan} {p : Part}
    (release : y.state = .releasing →
      ∃ x, p.plans.get? id = some x ∧ x.state = .releasing ∧ y.releaseList ⊆ x.releaseList) :
    Eases p { p with plans := p.plans.set id y } where
  valves _ x hx := ⟨x, hx, List.Subset.refl _, fun h => h⟩
  release i z hz hr := by
    by_cases h : i = id
    · subst h
      simp only [Laws.get?_set_same, Option.some.injEq] at hz
      subst hz
      exact release hr
    · simp only [Laws.get?_set_other _ _ _ _ h] at hz
      exact ⟨z, hz, hr, List.Subset.refl _⟩

/-- One plan changed: it keeps its phase and its lists, and a release list loses valves only. -/
theorem calm_setPlan {id : Nat} {x y : Plan} {p : Part} (hx : p.plans.get? id = some x)
    (core : p.plans.wf 16 = true → planCore y = planCore x)
    (release : y.state = .releasing → x.state = .releasing ∧ y.releaseList ⊆ x.releaseList) :
    Calm p { p with plans := p.plans.set id y } where
  toEases := eases_setPlan fun hr => ⟨x, hx, release hr⟩
  holders _ := rfl
  wf w := Laws.wf_set_used _ _ _ _ _ w hx
  plans w i := by
    left
    by_cases h : i = id
    · subst h; simp [hx, core w]
    · simp [Laws.get?_set_other _ _ _ _ h]
  queue := rfl
  engine := rfl

theorem calm_place (n : Notice) (p : Part) : Calm p (place n p) := calm_of_eq rfl rfl rfl

theorem eases_setPlanState (id : Nat) (new : PlanState) (valve : Option Nat) (p : Part) (hn : new ≠ .releasing) :
    Eases p (setPlanState id new valve p) := by
  unfold setPlanState
  split
  · exact (Calm.refl p).toEases
  · exact (eases_setPlan fun hr => absurd hr hn).trans (calm_place _ _).toEases

/-- A plan moves inside its phase (R102). -/
theorem calm_setPlanState {id : Nat} {new : PlanState} {valve : Option Nat} {p : Part}
    (h : p.plans.wf 16 = true → ∀ x, p.plans.get? id = some x → phaseOf new = phaseOf x.state)
    (hn : new ≠ .releasing := by decide) : Calm p (setPlanState id new valve p) := by
  unfold setPlanState
  split
  · exact .refl p
  · rename_i x hx
    refine Calm.trans (calm_setPlan hx (fun w => ?_) fun hr => absurd hr hn) (calm_place _ _)
    simp [planCore, h w x hx]

theorem eases_erasePlan (id : Nat) (p : Part) : Eases p { p with plans := p.plans.erase id } where
  valves _ x hx := ⟨x, hx, List.Subset.refl _, fun h => h⟩
  release i z hz hr := by
    by_cases hi : i = id
    · subst hi; simp at hz
    · simp only [Laws.get?_erase_other _ _ _ hi] at hz
      exact ⟨z, hz, hr, List.Subset.refl _⟩

theorem calm_putIncident (i : Nat) (x : Incident) (p : Part) : Calm p (putIncident i x p) :=
  calm_of_eq (by simp) (by simp) (by simp)

theorem eases_freePlan (id : Nat) (p : Part) : Eases p (freePlan id p) := by
  unfold freePlan
  split
  · exact .refl p
  · have freed (n : Notice) := (eases_erasePlan id p).trans (calm_place n _).toEases
    dsimp only
    split
    · split
      · exact (freed _).trans (calm_putIncident _ _ _).toEases
      · exact freed _
    · exact freed _

/-- A plan goes FREE from RELEASING (R121). -/
theorem calm_freePlan {id : Nat} {p : Part} (h : ∀ x, p.plans.get? id = some x → x.state = .releasing) :
    Calm p (freePlan id p) := by
  have erased (x : Plan) (hx : p.plans.get? id = some x) : Calm p { p with plans := p.plans.erase id } := {
    toEases := eases_erasePlan id p
    holders := fun _ => rfl
    wf := Laws.wf_erase _ _ _
    plans := fun _ i => by
      by_cases hi : i = id
      · subst hi; exact .inr ⟨x, hx, h x hx, Laws.get?_erase_same _ _⟩
      · exact .inl (by simp [Laws.get?_erase_other _ _ _ hi])
    queue := rfl
    engine := rfl }
  unfold freePlan
  split
  · exact .refl p
  · rename_i x hx
    have freed (n : Notice) := (erased x hx).trans (calm_place n _)
    dsimp only
    split
    · split
      · exact (freed _).trans (calm_putIncident _ _ _)
      · exact freed _
    · exact freed _

/-- The trace engine's record changed, but for its queue and its engine. -/
theorem calm_trace {t : Trace} {p : Part} (queue : t.planQueue = p.trace.planQueue) (engine : t.engine = p.trace.engine) :
    Calm p { p with trace := t } where
  toEases := eases_of_eq rfl rfl
  holders _ := rfl
  wf h := h
  plans _ _ := .inl rfl
  queue := queue
  engine := engine

/-! ### Trace, incidents and crews -/

theorem calm_raise (c : Cause) (p : Part) : Calm p (raise c p) := by
  unfold raise
  split
  · exact .refl p
  · exact calm_trace rfl rfl

theorem calm_markSegment (i : Nat) (p : Part) : Calm p (markSegment i p) := calm_of_eq (by simp) (by simp) (by simp)
theorem calm_markSegments (is : List Nat) (p : Part) : Calm p (markSegments is p) :=
  calm_of_eq (by simp) (by simp) (by simp)
theorem calm_endJob (j : Job) (p : Part) : Calm p (endJob j p) := calm_of_eq (by simp) (by simp) (by simp)
theorem calm_dispatchDecide (p : Part) : Calm p (dispatchDecide p) := calm_of_eq (by simp) (by simp) (by simp)
theorem calm_makeSafe (i : Nat) (c : IncidentCause) (p : Part) : Calm p (makeSafe i c p) :=
  calm_of_eq (by simp) (by simp) (by simp)
theorem calm_pressureConfirm (s pt : Nat) (p : Part) : Calm p (pressureConfirm s pt p) :=
  calm_of_eq (by simp) (by simp) (by simp)
theorem calm_offerStop (v : Nat) (p : Part) : Calm p (offerStop v p) := calm_of_eq (by simp) (by simp) (by simp)
theorem calm_withdrawCommand (v : Nat) (p : Part) : Calm p (withdrawCommand v p) :=
  calm_of_eq (by simp) (by simp) (by simp)
theorem calm_onLine (n : Nat) (f : Line → Line) (p : Part) : Calm p (p.onLine n f) := calm_of_eq rfl rfl rfl
theorem calm_onOutstation (os : Nat) (f : Outstation → Outstation) (p : Part) : Calm p (p.onOutstation os f) :=
  calm_of_eq rfl rfl rfl
theorem calm_popCommand (n : Nat) (p : Part) : Calm p (popCommand n p) := calm_of_eq rfl rfl rfl

/-! ### Tables in their canonical form -/

/-- In a table whose ids rise, an entry is the record of its id. -/
theorem get?_of_mem {α : Type} {t : Table α} {room k : Nat} {v : α} (w : t.wf room = true) (h : (k, v) ∈ t.entries) :
    t.get? k = some v := by
  have rise := ((Laws.wf_iff t room).mp w).1
  obtain ⟨es⟩ := t
  simp only [Table.get?, Table.ids] at *
  induction es with
  | nil => cases h
  | cons e rest ih =>
    obtain ⟨i, a⟩ := e
    rw [List.map_cons, List.pairwise_cons] at rise
    rcases List.mem_cons.mp h with same | later
    · cases same; simp [findEntry]
    · have : i < k := rise.1 k (List.mem_map_of_mem later)
      simp only [findEntry, if_neg this.ne]
      exact ih ((Laws.wf_iff _ room).mpr ⟨rise.2, fun k hk => ((Laws.wf_iff _ room).mp w).2 k (by simp [Table.ids] at hk ⊢; exact .inr hk)⟩) later rise.2

/-- The ids that pass a test, in a table whose ids rise. -/
theorem mem_idsWhere {α : Type} {t : Table α} {room k : Nat} {f : Nat → α → Bool} (w : t.wf room = true) :
    k ∈ t.idsWhere f ↔ ∃ v, t.get? k = some v ∧ f k v = true := by
  simp only [Table.idsWhere, List.mem_map, List.mem_filter]
  constructor
  · rintro ⟨⟨i, v⟩, ⟨he, hf⟩, rfl⟩
    exact ⟨v, get?_of_mem w he, hf⟩
  · rintro ⟨v, hv, hf⟩
    exact ⟨(k, v), ⟨Laws.mem_of_get? t k v hv, hf⟩, rfl⟩

/-! ### Plans that look on, and operations -/

theorem phase_of_calm {p q : Part} (h : Calm p q) (w : p.plans.wf 16 = true) {id : Nat} {y : Plan}
    (hy : q.plans.get? id = some y) : ∃ x, p.plans.get? id = some x ∧ planCore x = planCore y := by
  rcases h.plans w id with same | ⟨_, _, _, gone⟩
  · rw [hy] at same
    exact Option.map_eq_some_iff.mp same.symm
  · rw [gone] at hy; cases hy

/-- Some plans of one phase move inside it, one after another. -/
theorem calm_setPlanStates {ids : List Nat} {new : PlanState} {p : Part} (hn : new ≠ .releasing)
    (h : p.plans.wf 16 = true → ∀ id ∈ ids, ∀ x, p.plans.get? id = some x → phaseOf new = phaseOf x.state) :
    Calm p (ids.foldl (fun p id => setPlanState id new none p) p) := by
  by_cases w : p.plans.wf 16 = true
  · replace h := h w
    induction ids generalizing p with
    | nil => exact .refl p
    | cons i ids ih =>
      have first : Calm p (setPlanState i new none p) := calm_setPlanState (fun _ => h i (by simp)) hn
      refine first.trans (ih (first.wf w) fun id hid y hy => ?_)
      obtain ⟨x, hx, core⟩ := phase_of_calm first w hy
      rw [h id (by simp [hid]) x hx]
      exact congrArg Prod.fst core
  · have valves : (ids.foldl (fun p id => setPlanState id new none p) p).valves = p.valves :=
      Laws.foldl_keeps (·.valves) _ (fun q id => by simp) ids p
    have trace : (ids.foldl (fun p id => setPlanState id new none p) p).trace = p.trace :=
      Laws.foldl_keeps (·.trace) _ (fun q id => by simp) ids p
    refine ⟨?_, fun v => by rw [valves], fun h => absurd h w, fun h => absurd h w,
      by rw [trace], by rw [trace]⟩
    clear h w valves trace
    induction ids generalizing p with
    | nil => exact .refl p
    | cons i ids ih => exact (eases_setPlanState i new none p hn).trans ih

theorem calm_snoop (vs : List Nat) (except : Option Nat) (p : Part) : Calm p (snoop vs except p) := by
  unfold snoop
  refine Calm.trans (?_ : Calm p _) (calm_setPlanStates (by decide) fun w id hid x hx => ?_)
  · split
    · exact calm_trace rfl rfl
    · exact .refl p
    · exact .refl p
  · obtain ⟨y, hy, test⟩ := (mem_idsWhere w).mp hid
    rw [hx] at hy
    cases hy
    simp only [Bool.and_eq_true, decide_eq_true_eq] at test
    simp [test.1.1, phaseOf]

/-- An operation takes a new state: one that is not live, or live as before. -/
theorem calm_setOpState {v : Nat} {st : OpState} {e : Option Nat} {p : Part}
    (h : (st ≠ .pending ∧ st ≠ .acting) ∨ ∀ o, p.op? v = some o → o.live = true) : Calm p (setOpState v st e p) := by
  refine calm_onValve fun x hx => ⟨rfl, ?_⟩
  rintro ⟨o', ho', open_, live⟩
  simp only [Option.map_eq_some_iff] at ho'
  obtain ⟨o, ho, rfl⟩ := ho'
  refine ⟨o, ho, open_, ?_⟩
  rcases h with ⟨h1, h2⟩ | h
  · simp [Operation.live, h1, h2] at live
  · exact h o (by simp [Part.op?, hx, ho])

theorem calm_offerCommand (c : Command) (p : Part) : Calm p (offerCommand c p).1 :=
  calm_of_eq (by simp) (by simp) (by simp)

theorem isolates_phase {p : Part} {x : Plan} (h : p.isolates x = true) : phaseOf .isolated = phaseOf x.state := by
  simp only [Part.isolates, Bool.and_eq_true, Bool.or_eq_true, decide_eq_true_eq] at h
  rcases h.1 with hs | hs <;> rw [hs] <;> rfl

/-- A used plan rewritten is a plan changed. -/
theorem onPlan_of_get? {id : Nat} {x : Plan} {p : Part} (hx : p.plans.get? id = some x) (f : Plan → Plan) :
    p.onPlan id f = { p with plans := p.plans.set id (f x) } := by
  simp [Part.onPlan, Table.modify, hx]

/-- Every valve changed, each as `calm_onValve` asks. -/
theorem calm_mapValves {f : Nat → Valve → Valve} {p : Part}
    (hf : ∀ v x, (f v x).holders = x.holders ∧ (isOpening (f v x) → isOpening x)) :
    Calm p { p with valves := p.valves.map f } where
  valves v x hx := by
    simp only [Laws.get?_map, Option.map_eq_some_iff] at hx
    obtain ⟨y, hy, rfl⟩ := hx
    exact ⟨y, hy, by rw [(hf v y).1]; exact List.Subset.refl _, (hf v y).2⟩
  release _ x hx hr := ⟨x, hx, hr, List.Subset.refl _⟩
  holders v := by
    simp only [Laws.get?_map]
    cases p.valves.get? v with
    | none => rfl
    | some x => simp [(hf v x).1]
  wf h := h
  plans _ _ := .inl rfl
  queue := rfl
  engine := rfl

/-! ### Outages -/

theorem calm_joinOutage (js : List Nat) (c : Cause) (p : Part) : Calm p (joinOutage js c p) := by
  unfold joinOutage
  split
  · exact .refl p
  · split
    · exact .refl p
    · rename_i i o j _
      dsimp only
      have joined := calm_foldlWith (fun acc seg => joinSegment i seg acc) (fun x a => by
        unfold joinSegment
        dsimp only
        split
        · exact .refl _
        · exact calm_of_eq rfl rfl rfl) js (p, o)
      exact joined.trans (calm_of_eq rfl rfl rfl)

theorem calm_loseMember (i r : Nat) (p : Part) : Calm p (loseMember i r p) := calm_of_eq (by simp) (by simp) (by simp)

theorem calm_restoreSegment (seg : Nat) (p : Part) : Calm p (restoreSegment seg p) :=
  calm_of_eq (by simp) (by simp) (by simp)

theorem calm_setSuspect (seg : Nat) (b : Bool) (p : Part) : Calm p (setSuspect seg b p) :=
  calm_of_eq (by simp) (by simp) (by simp)

theorem calm_noGasCall (seg : Nat) (p : Part) : Calm p (noGasCall seg p) := calm_of_eq (by simp) (by simp) (by simp)

end Sys2Proof.Proofs
end


section
/-!
The larger operations in steps: the running model set up (R70), and the completion of a supply trace (R93).
-/

namespace Sys2Proof.Proofs

open Sys2Proof Sys2Proof.Machine

/-- The tables as the running model starts with them (R70, first steps), the link RUNNING. -/
def setUp (p : Part) : Part :=
  { p with
    segments := p.segments.map fun id s => s.started (p.feeds.idsWhere fun _ f => f.segment = id)
    feeds := p.feeds.map fun _ f => { f with live := deriveLive p.points f }
    valves := p.valves.map fun _ v => { v with position := v.normal.position, lastEnd := v.normal }
    link := { p.link with partState := .running }
    dispatch := { p.dispatch with levels := p.dispatch.reloads } }

theorem enterRunning_eq (p : Part) : enterRunning p =
    dispatchDecide (refreshLamps ([0, 1, 2, 3].foldl (fun p n => startLine n p) (raise .load (setUp p)))) := rfl

section
variable {p : Part}

/-- A valve has no holder. -/
def unheld (p : Part) (v : Nat) : Prop := ∀ x, p.valves.get? v = some x → x.holders = []

end

/-! ### The completion of a supply trace, step by step (R93) -/

/-- Each segment with the feed that a trace reached it from, and its supply state (R93, R94). -/
def writeTrace (w : View) (p : Part) : Part :=
  { p with segments := p.segments.map fun id s => s.traced (findEntry id (supplyTrace p w [] [])) }

/-- The segments whose feed or supply state a trace changes (R79, R93). -/
def changedByTrace (w : View) (p : Part) : List Nat :=
  p.segments.idsWhere fun id s => s.reaching != findEntry id (supplyTrace p w [] []) ||
    s.supply != supplyAfter (findEntry id (supplyTrace p w [] [])).isSome s.supply

/-- The segments that go OFF in a trace (R95). -/
def lostInTrace (w : View) (p : Part) : List (Nat × Segment) :=
  p.segments.entries.filter fun e => (findEntry e.1 (supplyTrace p w [] [])).isNone && e.2.supply != .off

/-- Those of them that were in no outage (R95). -/
def joinersOf (lost : List (Nat × Segment)) : List Nat := (lost.filter fun e => e.2.outage.isNone).map (·.1)

/-- The members that lost their gas again leave their outages' relit counts, one after another (R164). -/
def loseMembers (lost : List (Nat × Segment)) (p : Part) : Part :=
  lost.foldl (fun p e => match e.2.outage with
    | some id => loseMember id e.2.relit p
    | none => p) p

/-- The engine goes IDLE without a view (R83). -/
def idleEngine (p : Part) : Part :=
  { p with trace := { p.trace with engine := .idle, view := none, changeSet := [] } }

/-- The relight jobs of some segments end (R156). -/
def endRelights (lost : List (Nat × Segment)) (p : Part) : Part :=
  (lost.filter fun e => e.2.supply = .purged || e.2.supply = .relighting).foldl
    (fun p e => endJob ⟨.relight, e.1⟩ p) p

theorem completeTrace_eq (c : Cause) (w : View) (p : Part) : completeTrace c w p =
    dispatchDecide (endRelights (lostInTrace w p) (idleEngine (joinOutage (joinersOf (lostInTrace w p)) c
      (loseMembers (lostInTrace w p) (markSegments (changedByTrace w p) (writeTrace w p)))))) := rfl

end Sys2Proof.Proofs
end


section
/-!
The control link (01): the tests of a request, its place in the slots and its one reply, notices, the end of a frame on
TXD, and the general requests.
-/

namespace Sys2Proof.Proofs

open Sys2Proof Sys2Proof.Machine

/-! ## The tests of a request (R7, R14) -/

/-- The kinds that the part knows, and the states in which it takes them, are those of the table of request kinds (R14). -/
theorem handlerOf_admission {kind : Nat} (h : kind < 0x40) (st : PartState) :
    ((handlerOf kind).map fun h => h.admitted st) = admission kind st := by
  cases st
  all_goals revert kind; decide

/-- Settles O10: the tests of `runRequest` in their order, and the table of kinds by evaluation. -/
theorem requestsAreTestedInOrder : Obligations.RequestsAreTestedInOrder := by
  refine ⟨fun r p => ⟨fun unknown => ?_, fun h known => ⟨fun length => ?_, fun length state => ?_, fun length state => ?_⟩⟩,
    fun kind h st => handlerOf_admission h st⟩
  · simp [runRequest, unknown, refuse]
  · simp [runRequest, known, length, refuse]
  · simp [runRequest, known, length, state, refuse]
  · simp [runRequest, known, length, state]

/-! ## The slots and the reply (R6, R9) -/

/-- A request finds the executing slot occupied and the waiting slot empty. -/
theorem request_waits {kind : Nat} {tag : Byte} {body : List Byte} {s : State} {e : ExecSlot}
    (busy : s.part.link.executing = some e) (free : s.part.link.waiting = none) : request kind tag body s =
      .next (s.withLink { s.part.link with waiting := some ⟨kind, tag, body⟩ }) := by
  simp [request, onPart, requestArrives, busy, free, State.withLink, State.withPart, Part.withLink]

/-- A request finds both slots occupied. -/
theorem request_turnedAway {kind : Nat} {tag : Byte} {body : List Byte} {s : State} {e : ExecSlot} {w : Request}
    (busy : s.part.link.executing = some e) (full : s.part.link.waiting = some w) : request kind tag body s =
      .next (s.withLink (s.part.link.turnAway ⟨kind, tag, body⟩)) := by
  simp [request, onPart, requestArrives, busy, full, State.withLink, State.withPart, Part.withLink]

/-- What the answer of the request in the executing slot leaves of the link: its reply behind those that wait, or begun at
once (R9, R10). -/
theorem answer_cases {l : Link} {r : Request} (status : Status) (result : List Byte) (h : l.executing = some ⟨r, false⟩) :
    let reply : Reply := ⟨r.kind, r.tag, status, result⟩
    l.answer status result = { l with
      executing := some ⟨r, true⟩
      replies := (l.answer status result).replies
      tx := (l.answer status result).tx } ∧
    (l.tx.isSome = true → (l.answer status result).replies = l.replies ++ [reply] ∧ (l.answer status result).tx = l.tx) ∧
    (l.tx = none → l.replies = [] →
      (l.answer status result).replies = [] ∧ (l.answer status result).tx = some (.reply reply)) := by
  intro reply
  have answered : l.answer status result =
      Link.startNext { l with executing := some ⟨r, true⟩, replies := l.replies ++ [reply] } :=
    Laws.answer_executing l _ status result h
  rw [answered]
  refine ⟨?_, fun sending => ?_, fun idle none_ => ?_⟩
  · rcases Laws.startNext_cases { l with executing := some ⟨r, true⟩, replies := l.replies ++ [reply] } with
      same | ⟨_, _, _, _, began⟩ | ⟨_, _, _, empty, _⟩
    · rw [same]
    · rw [began]
    · simp at empty
  · rw [Laws.startNext_busy { l with executing := some ⟨r, true⟩, replies := l.replies ++ [reply] } sending]
    exact ⟨rfl, rfl⟩
  · simp [Link.startNext, Link.midRequest, idle, none_, reply]

/-- Settles O11: a second request waits, a third is turned away, and the executed one has its reply made. -/
theorem requestsWaitAndAreAnswered : Obligations.RequestsWaitAndAreAnswered := by
  refine ⟨fun kind tag body s e busy => ⟨request_waits busy, fun w full => ⟨fun few => ?_, fun many => ?_⟩⟩,
    fun r s p status result slot => ?_⟩
  · rw [request_turnedAway busy full, Link.turnAway, if_pos (show _ < linkFullRoom from few)]
  · rw [request_turnedAway busy full, Link.turnAway, if_neg (show ¬ _ < linkFullRoom from Nat.not_lt.mpr many)]
    rfl
  · obtain ⟨executing, made, _⟩ := Laws.answer_spec p.link _ status result slot
    obtain ⟨link, behind, atOnce⟩ := answer_cases status result slot
    refine ⟨rfl, rfl, executing, made, ?_, behind, atOnce⟩
    refine Eq.trans link ?_
    show _ = { p.link with
      executing := (p.link.answer status result).executing
      replies := (p.link.answer status result).replies
      tx := (p.link.answer status result).tx }
    rw [executing]

/-! ## Notices (R11, R12) -/

theorem enabled_of_bits {n : Notice} {l : Link} (h : ∀ c, n.cls = some c → l.enables.getLsbD c.bit = true) :
    l.enabled n = true := by
  unfold Link.enabled
  split
  · rfl
  · next c hc => exact h c hc

/-- Settles O15: the cases of a placed notice (R11), by its class, the room in the queue and the transmitter. -/
theorem noticesAreNumberedQueuedOrLost : Obligations.NoticesAreNumberedQueuedOrLost := by
  intro now n l
  refine ⟨fun c hc off => ?_, fun on => ?_⟩
  · simp [Link.place, enabled_eq_bit hc, off]
  · have enabled := enabled_of_bits on
    refine ⟨fun room wait => ?_, fun none_ noReply idle replied => ?_, fun full => ?_⟩
    · simp only [Link.place, enabled, Bool.not_true, Bool.false_eq_true, if_false, noticeRoom, room, if_true]
      rcases wait with sending | ⟨e, busy, unreplied⟩
      · exact Laws.startNext_busy _ sending
      · exact Laws.startNext_mid _ (by simp [Link.midRequest, busy, unreplied])
    · have settled : l.midRequest = false := by
        unfold Link.midRequest
        cases slot : l.executing with
        | none => rfl
        | some e => simp [replied e slot]
      simp only [Link.midRequest] at settled
      simp [Link.place, enabled, noticeRoom, none_, Link.startNext, Link.midRequest, idle, noReply, settled]
    · simp [Link.place, enabled, noticeRoom, Nat.not_lt.mpr full, bump, maxCount]

/-! ## The end of a frame on TXD (R6, R10, R19) -/

/-- A frame that is no reply of an executed request ends: the next frame is due. -/
theorem frameSent_of_other {p : Part} {f : Sending} (sending : p.link.tx = some f)
    (other : ∀ r, f = .reply r → r.status = .linkFull) : frameSent p = p.withLink p.link.txIdle.startNext := by
  unfold frameSent
  rw [sending]
  cases f with
  | notice n => rfl
  | reply r => simp [other r rfl, Part.withLink]

/-- The reply of an executed request ends (R6, R19). -/
theorem frameSent_of_reply {p : Part} {r : Reply} (sending : p.link.tx = some (.reply r)) (own : r.status ≠ .linkFull) :
    frameSent p = replySent r (p.withLink p.link.txIdle) := by
  unfold frameSent
  rw [sending]
  simp [own, Part.withLink]

/-- A settled link whose frame has ended begins the first reply, else the head notice, else rests (R10). -/
theorem startNext_txIdle {l : Link} (settled : l.settled) : l.txIdle.startNext =
    match l.replies, l.notices with
      | r :: rest, _ => { l with replies := rest, tx := some (.reply r) }
      | [], n :: rest => { l with notices := rest, tx := some (.notice n) }
      | [], [] => { l with tx := none } := by
  have mid : l.txIdle.midRequest = false := by
    simp only [Link.midRequest, Link.txIdle]
    cases slot : l.executing with
    | none => rfl
    | some e => simp [settled.1 e slot]
  unfold Link.startNext
  rw [mid]
  rcases replies : l.replies with _ | ⟨r, rest⟩ <;> rcases notices : l.notices with _ | ⟨n, more⟩ <;>
    simp [Link.txIdle, replies, notices]

/-- The executing slot after the execution of a request: the request with its reply made (R7, R9). -/
theorem executeRequest_slots (r : Request) (p : Part) :
    (executeRequest r p).link.executing = some ⟨r, true⟩ ∧ (executeRequest r p).link.waiting = p.link.waiting := by
  have serves := runRequest_serves r { p with link := p.link.begin r }
  have slot : (runRequest r { p with link := p.link.begin r }).part.link.executing = some ⟨r, false⟩ := serves.executing
  unfold executeRequest
  dsimp only
  rw [(answer_cases _ _ slot).1]
  exact ⟨rfl, serves.waiting⟩

/-- The slot empties, and the waiting request executes (R6). -/
theorem promoteWaiting_of_none {p : Part} (h : p.link.waiting = none) :
    promoteWaiting p = p.withLink { p.link with executing := none, waiting := none } := by
  simp [promoteWaiting, h, Part.withLink]

theorem promoteWaiting_of_some {p : Part} {w : Request} (h : p.link.waiting = some w) :
    promoteWaiting p = executeRequest w (p.withLink { p.link with executing := none, waiting := none }) := by
  simp [promoteWaiting, h, Part.withLink]

/-- A reply that is no OK to RESTART ends. -/
theorem replySent_of_other {r : Reply} (p : Part) (h : ¬ (r.kind = 0x05 ∧ r.status = .ok)) :
    replySent r p = (promoteWaiting p).withLink (promoteWaiting p).link.startNext := by
  unfold replySent
  rw [if_neg (by simpa using h)]
  rfl

/-- Settles O16: the frames that may end on TXD, case by case (R10, R6, R19). -/
theorem transmitEndSendsTheNextFrame : Obligations.TransmitEndSendsTheNextFrame := by
  refine fun s => ⟨fun idle => ?_, fun f sending other settled => ?_, fun r sending own other => ⟨fun none_ => ?_,
    fun w waits => ⟨?_, ?_⟩⟩, fun r sending restart ok => ?_⟩
  · show onPart frameSent s = _
    simp [onPart, frameSent, idle]
  · show onPart frameSent s = _
    rw [onPart, frameSent_of_other sending other, startNext_txIdle settled]
    rfl
  · show onPart frameSent s = _
    rw [onPart, frameSent_of_reply sending own, replySent_of_other _ other, promoteWaiting_of_none (p := s.part.withLink s.part.link.txIdle) none_]
    rfl
  · show onPart frameSent s = _
    rw [onPart, frameSent_of_reply sending own, replySent_of_other _ other, promoteWaiting_of_some (p := s.part.withLink s.part.link.txIdle) waits]
    rfl
  · obtain ⟨executing, waiting⟩ := executeRequest_slots w
      (s.part.withLink { s.part.link with tx := none, executing := none, waiting := none })
    exact ⟨(Laws.startNext_executing _).trans executing, (Laws.startNext_waiting _).trans waiting⟩
  · show onPart frameSent s = _
    rw [onPart, frameSent_of_reply sending (by rw [ok]; decide), replySent, if_pos (by simp [restart, ok])]
    rfl

end Sys2Proof.Proofs
end


section
/-!
The receiver of the control link (R3, R4, R5): bytes that hunt and collect, a frame taken whole, and candidates that are
abandoned and examined again.
-/

namespace Sys2Proof.Proofs

open Sys2Proof Sys2Proof.Machine

/-! ## One byte -/

section
variable {p : Part}

theorem closeGap_of_hunting (h : p.link.rxBuffer = []) : closeGap p = p := by simp [closeGap, h]

theorem closeGap_of_noGap (h : p.link.gapOver p.clock = false) : closeGap p = p := by simp [closeGap, h]

theorem closeGap_of_gap (h : p.link.rxBuffer ≠ []) (gap : p.link.gapOver p.clock = true) :
    closeGap p = abandon p.link.rxBuffer p := by simp [closeGap, h, gap]

/-- The part has heard a byte at this moment. -/
def heard (p : Part) : Part := p.withLink { p.link with lastRx := p.clock }

/-- A hunting receiver discards a byte that starts no candidate (R3). -/
theorem receiveByte_discards {b : RxByte} (h : p.link.rxBuffer = []) (other : b.byte ≠ linkStart ∨ b.stopLow = true) :
    receiveByte b p = heard p := by
  have none_ : p.link.withByte b = none := by
    rcases other with other | other <;> simp [Link.withByte, h, other]
  rw [receiveByte, closeGap_of_hunting h, takeByte, none_]
  rfl

/-- A hunting receiver starts a candidate with a good start byte (R3). -/
theorem receiveByte_starts (h : p.link.rxBuffer = []) :
    receiveByte ⟨linkStart, false⟩ p = setBuffer [⟨linkStart, false⟩] (heard p) := by
  have starts : p.link.withByte ⟨linkStart, false⟩ = some ([⟨linkStart, false⟩], .open_) := by simp [Link.withByte, h]
  rw [receiveByte, closeGap_of_hunting h, takeByte, starts]
  rfl

section
variable {b : RxByte} (h : p.link.rxBuffer ≠ []) (noGap : p.link.gapOver p.clock = false)
include h

theorem withByte_of_collecting : p.link.withByte b = some (p.link.rxBuffer ++ [b], verdict (p.link.rxBuffer ++ [b])) := by
  simp [Link.withByte, h]

include noGap

/-- A collecting receiver appends a byte that leaves the candidate open (R3). -/
theorem receiveByte_collects (open_ : verdict (p.link.rxBuffer ++ [b]) = .open_) :
    receiveByte b p = setBuffer (p.link.rxBuffer ++ [b]) (heard p) := by
  rw [receiveByte, closeGap_of_noGap noGap, takeByte, withByte_of_collecting h, open_]
  rfl

theorem receiveByte_completes (complete : verdict (p.link.rxBuffer ++ [b]) = .complete) :
    receiveByte b p = handFrame (p.link.rxBuffer ++ [b]) (setBuffer [] (heard p)) := by
  rw [receiveByte, closeGap_of_noGap noGap, takeByte, withByte_of_collecting h, complete]
  rfl

theorem receiveByte_abandons (bad : verdict (p.link.rxBuffer ++ [b]) = .bad) :
    receiveByte b p = abandon (p.link.rxBuffer ++ [b]) (heard p) := by
  rw [receiveByte, closeGap_of_noGap noGap, takeByte, withByte_of_collecting h, bad]
  rfl

theorem verdictOn_of_collecting : p.verdictOn b = some (verdict (p.link.rxBuffer ++ [b])) := by
  rw [Part.verdictOn, closeGap_of_noGap noGap, withByte_of_collecting h]
  rfl

end

end

/-- FRAME_RECEIVED on a byte that completes the candidate. -/
theorem exec_frameReceived {b : Byte} {s : State} (h : s.part.link.rxBuffer ≠ [])
    (noGap : s.part.link.gapOver s.part.clock = false)
    (complete : verdict (s.part.link.rxBuffer ++ [⟨b, false⟩]) = .complete) : exec (.frameReceived b) s =
      .next (s.withPart (handFrame (s.part.link.rxBuffer ++ [⟨b, false⟩]) (setBuffer [] (heard s.part)))) := by
  have on : s.part.verdictOn ⟨b, false⟩ = some .complete := by rw [verdictOn_of_collecting h noGap, complete]
  rw [← receiveByte_completes h noGap complete]
  show onPart (fun p => if p.verdictOn ⟨b, false⟩ = some .complete then receiveByte ⟨b, false⟩ p else p) s = _
  rw [onPart, if_pos on]
  rfl

/-- FRAME_ABANDONED on a byte that fails the candidate. -/
theorem exec_frameAbandoned {b : Byte} {stopLow : Bool} {s : State} (h : s.part.link.rxBuffer ≠ [])
    (noGap : s.part.link.gapOver s.part.clock = false)
    (bad : verdict (s.part.link.rxBuffer ++ [⟨b, stopLow⟩]) = .bad) : exec (.frameAbandoned b stopLow) s =
      .next (s.withPart (abandon (s.part.link.rxBuffer ++ [⟨b, stopLow⟩]) (heard s.part))) := by
  have on : s.part.verdictOn ⟨b, stopLow⟩ = some .bad := by rw [verdictOn_of_collecting h noGap, bad]
  rw [← receiveByte_abandons h noGap bad]
  show onPart (fun p => if p.verdictOn ⟨b, stopLow⟩ = some .bad then receiveByte ⟨b, stopLow⟩ p else p) s = _
  rw [onPart, if_pos on]
  rfl

/-- Settles O13: the three cases of a byte that hunts or leaves its candidate open. -/
theorem receivedBytesHuntAndCollect : Obligations.ReceivedBytesHuntAndCollect := by
  refine fun b stopLow s => ⟨fun hunting other => ?_, fun hunting start good => ?_, fun collecting noGap open_ => ?_⟩
  · exact congrArg (Host.Outcome.next ∘ s.withPart) (receiveByte_discards hunting other)
  · subst start good
    exact congrArg (Host.Outcome.next ∘ s.withPart) (receiveByte_starts hunting)
  · exact congrArg (Host.Outcome.next ∘ s.withPart) (receiveByte_collects collecting noGap open_)

/-! ## A whole frame -/

/-- Bytes received without a framing error. -/
def goodBytes (bs : List Byte) : List RxByte := bs.map fun b => ⟨b, false⟩

theorem goodBytes_append (bs : List Byte) (b : Byte) : goodBytes (bs ++ [b]) = goodBytes bs ++ [⟨b, false⟩] := by
  simp [goodBytes]

theorem bytesOf_goodBytes (bs : List Byte) : bytesOf (goodBytes bs) = bs := by
  simp [bytesOf, goodBytes, Function.comp_def]

theorem goodBytes_no_error (bs : List Byte) : ((goodBytes bs).getLast?.map (·.stopLow)).getD false = false := by
  cases last : (goodBytes bs).getLast? with
  | none => rfl
  | some x =>
    obtain ⟨b, _, rfl⟩ := List.mem_map.mp (List.mem_of_getLast? last)
    rfl

/-- The verdict on good bytes, past their length field (R3, R4). -/
theorem verdict_goodBytes {bs : List Byte} (long : 3 ≤ bs.length) (room : u16 bs 1 ≤ maxBody) : verdict (goodBytes bs) =
    if bs.length < u16 bs 1 + 7 then .open_
    else if checkBytes ((bs.drop 1).take (u16 bs 1 + 4)) = bs.drop (u16 bs 1 + 5) then .complete else .bad := by
  unfold verdict
  rw [goodBytes_no_error, bytesOf_goodBytes]
  simp [Nat.not_lt.mpr long, Nat.not_lt.mpr room]

section
variable (kind tag : Byte) (body : List Byte)

theorem linkFrame_length : (linkFrame kind tag body).length = body.length + 7 := by
  simp [linkFrame, be16, checkBytes]

variable {body} (room : body.length ≤ 1020)
include room

/-- The length field of a frame of which at least three bytes have come in. -/
theorem u16_linkFrame {k : Nat} (h : 3 ≤ k) : u16 ((linkFrame kind tag body).take k) 1 = body.length := by
  obtain ⟨m, rfl⟩ : ∃ m, k = m + 3 := ⟨k - 3, by omega⟩
  simp only [linkFrame, be16, List.cons_append, List.nil_append, List.take_succ_cons, u16, u8, List.getD_cons_succ,
    List.getD_cons_zero, byte, BitVec.toNat_ofNat]
  omega

/-- A part of a frame is an open candidate (R3). -/
theorem verdict_linkFrame_take {k : Nat} (h : k < body.length + 7) :
    verdict (goodBytes ((linkFrame kind tag body).take k)) = .open_ := by
  by_cases long : 3 ≤ k
  · have len : ((linkFrame kind tag body).take k).length = k := by
      rw [List.length_take, linkFrame_length]; omega
    rw [verdict_goodBytes (by omega) (by rw [u16_linkFrame kind tag room long]; exact room),
      u16_linkFrame kind tag room long, len, if_pos h]
  · unfold verdict
    rw [goodBytes_no_error, bytesOf_goodBytes]
    have len : ((linkFrame kind tag body).take k).length < 3 := by rw [List.length_take]; omega
    rw [if_neg (by decide), if_pos len]

/-- A whole frame is a complete candidate (R3). -/
theorem verdict_linkFrame : verdict (goodBytes (linkFrame kind tag body)) = .complete := by
  have len := linkFrame_length kind tag body
  have field := u16_linkFrame kind tag room (k := (linkFrame kind tag body).length) (by omega)
  rw [List.take_length] at field
  rw [verdict_goodBytes (by omega) (by rw [field]; exact room), field, len, if_neg (Nat.lt_irrefl _), if_pos ?_]
  have covered : (be16 body.length ++ [kind, tag] ++ body).length = body.length + 4 := by simp [be16]
  simp only [linkFrame, List.drop_succ_cons, List.drop_zero]
  rw [← covered, List.take_left, List.drop_left]

/-- The request that a frame carries. -/
theorem requestOf_linkFrame : requestOf (goodBytes (linkFrame kind tag body)) = ⟨kind.toNat, tag, body⟩ := by
  have len := linkFrame_length kind tag body
  have field := u16_linkFrame kind tag room (k := (linkFrame kind tag body).length) (by omega)
  rw [List.take_length] at field
  unfold requestOf
  rw [bytesOf_goodBytes]
  dsimp only
  rw [field]
  simp [linkFrame, be16, u8]

/-- A hunting receiver holds, after the first bytes of a frame, just these bytes (R3). -/
theorem receives_linkFrame_take (p : Part) (h : p.link.rxBuffer = []) {k : Nat} (first : 0 < k) (hk : k < body.length + 7) :
    p.receives ((linkFrame kind tag body).take k) =
      p.withLink { p.link with rxBuffer := goodBytes ((linkFrame kind tag body).take k), lastRx := p.clock } := by
  induction k with
  | zero => cases first
  | succ k ih =>
    by_cases start : k = 0
    · subst start
      exact receiveByte_starts h
    · have long : k < (linkFrame kind tag body).length := by rw [linkFrame_length]; omega
      rw [List.take_succ_eq_append_getElem long, Part.receives, List.foldl_append]
      have before := ih (by omega) (by omega)
      unfold Part.receives at before
      rw [before]
      refine (receiveByte_collects (p := p.withLink { p.link with
        rxBuffer := goodBytes ((linkFrame kind tag body).take k), lastRx := p.clock })
        (b := ⟨(linkFrame kind tag body)[k], false⟩) ?_ ?_ ?_).trans ?_
      · intro none_
        have := congrArg List.length none_
        simp [Part.withLink, goodBytes, linkFrame_length] at this
        omega
      · simp [Link.gapOver, Part.withLink]
      · have open_ := verdict_linkFrame_take kind tag room hk
        rw [List.take_succ_eq_append_getElem long, goodBytes_append] at open_
        exact open_
      · rw [goodBytes_append]
        rfl

end

/-- Settles O12: the bytes of a frame collect as an open candidate, and the last completes it. -/
theorem aFrameIsReceivedWhole : Obligations.AFrameIsReceivedWhole := by
  intro kind tag body s low high room hunting
  have len := linkFrame_length (byte kind) tag body
  have shorter : (linkFrame (byte kind) tag body).dropLast = (linkFrame (byte kind) tag body).take (body.length + 6) := by
    rw [List.dropLast_eq_take, len]; rfl
  have last : (linkFrame (byte kind) tag body).take (body.length + 6) ++ [(linkFrame (byte kind) tag body).getLastD 0] =
      linkFrame (byte kind) tag body := by
    have ne : linkFrame (byte kind) tag body ≠ [] := by intro none_; rw [none_] at len; simp at len
    rw [← shorter, List.getLastD_eq_getLast?, List.getLast?_eq_some_getLast ne, Option.getD_some, List.dropLast_append_getLast]
  have got := receives_linkFrame_take (byte kind) tag room s.part hunting (k := body.length + 6) (by omega) (by omega)
  have whole : goodBytes ((linkFrame (byte kind) tag body).take (body.length + 6)) ++
      [⟨(linkFrame (byte kind) tag body).getLastD 0, false⟩] = goodBytes (linkFrame (byte kind) tag body) := by
    rw [← goodBytes_append, last]
  have carried : requestOf (goodBytes (linkFrame (byte kind) tag body)) = ⟨kind, tag, body⟩ := by
    rw [requestOf_linkFrame _ tag room]
    simp only [byte, BitVec.toNat_ofNat, Request.mk.injEq, and_true]
    omega
  have complete := verdict_linkFrame (byte kind) tag room
  have collecting : goodBytes ((linkFrame (byte kind) tag body).take (body.length + 6)) ≠ [] := by
    intro none_
    have short := congrArg List.length none_
    simp only [goodBytes, List.length_map, List.length_take, len, List.length_nil] at short
    omega
  rw [← whole] at complete
  rw [shorter, got, exec_frameReceived collecting (by simp [Link.gapOver, Part.withLink, State.withPart]) complete]
  show Host.Outcome.next (s.withPart (handFrame (goodBytes ((linkFrame (byte kind) tag body).take (body.length + 6)) ++ _) _)) = _
  rw [whole, handFrame, carried]
  simp [low, high, setBuffer, heard, Part.withLink, State.withPart]

/-! ## Candidates that are abandoned (R4) -/

section
variable {p : Part} {rest mid tail : List RxByte}

/-- The link error count of the part one higher, saturating (R4). -/
def counted (p : Part) : Part := p.withLink p.link.countError

theorem abandon_eq (cand : List RxByte) (p : Part) : abandon cand p = examine cand.length (cand.drop 1) (counted p) := rfl

/-- Bytes of which none can start a candidate are discarded. -/
theorem examine_noStart (n : Nat) (h : noStart rest) : examine n rest p = setBuffer [] p := by
  induction n generalizing rest with
  | zero => rfl
  | succ n ih =>
    cases rest with
    | nil => rfl
    | cons b rest =>
      have other : (b.byte = linkStart && !b.stopLow) = false := by
        rcases h b (by simp) with other | other <;> simp [other]
      rw [examine, other]
      exact ih fun x hx => h x (by simp [hx])

/-- Bytes before the first start byte are discarded, one a turn. -/
theorem examine_skip (n : Nat) (h : noStart mid) : examine (mid.length + n) (mid ++ rest) p = examine n rest p := by
  induction mid with
  | nil => rw [List.length_nil, Nat.zero_add, List.nil_append]
  | cons b mid ih =>
    have other : (b.byte = linkStart && !b.stopLow) = false := by
      rcases h b (by simp) with other | other <;> simp [other]
    rw [List.length_cons, Nat.add_right_comm, List.cons_append, examine, other]
    exact ih fun x hx => h x (by simp [hx])

/-- A candidate that stays open up to its last byte is examined whole. -/
theorem examineCandidate_whole {pre : List RxByte} (last : RxByte) (rest : List RxByte)
    (h : ∀ k, k < (rest ++ [last]).length → 0 < k → verdict (pre ++ (rest ++ [last]).take k) = .open_) :
    examineCandidate pre (rest ++ [last]) = (pre ++ (rest ++ [last]), [], verdict (pre ++ (rest ++ [last]))) := by
  induction rest generalizing pre with
  | nil =>
    simp only [List.nil_append, examineCandidate]
    cases v : verdict (pre ++ [last]) <;> simp
  | cons b rest ih =>
    have first : verdict (pre ++ [b]) = .open_ := by simpa using h 1 (by simp) (by decide)
    simp only [List.cons_append, examineCandidate, first]
    rw [ih fun k hk pos => ?_]
    · simp
    · simpa using h (k + 1) (by simpa using hk) (by omega)

variable (h : ∀ k, k < tail.length → verdict (⟨linkStart, false⟩ :: tail.take k) = .open_)
include h

theorem examineCandidate_start : examineCandidate [⟨linkStart, false⟩] tail =
    (⟨linkStart, false⟩ :: tail, [], verdict (⟨linkStart, false⟩ :: tail)) := by
  rcases List.eq_nil_or_concat tail with rfl | ⟨rest, last, rfl⟩
  · rfl
  · rw [List.concat_eq_append] at h ⊢
    exact examineCandidate_whole last rest fun k hk _ => h k hk

/-- A candidate examined again that is open is kept, unless it has waited too long. -/
theorem examine_open (n : Nat) (open_ : verdict (⟨linkStart, false⟩ :: tail) = .open_) :
    examine (n + 1) (⟨linkStart, false⟩ :: tail) p =
      if p.link.gapOver p.clock then examine n tail (counted p) else setBuffer (⟨linkStart, false⟩ :: tail) p := by
  rw [examine, examineCandidate_start h, open_]
  rfl

theorem examine_complete (n : Nat) (complete : verdict (⟨linkStart, false⟩ :: tail) = .complete) :
    examine (n + 1) (⟨linkStart, false⟩ :: tail) p = setBuffer [] (handFrame (⟨linkStart, false⟩ :: tail) p) := by
  rw [examine, examineCandidate_start h, complete]
  exact examine_noStart n (by simp [noStart])

theorem examine_bad (n : Nat) (bad : verdict (⟨linkStart, false⟩ :: tail) = .bad) :
    examine (n + 1) (⟨linkStart, false⟩ :: tail) p = examine n tail (counted p) := by
  rw [examine, examineCandidate_start h, bad]
  rfl

end

/-- The bytes of an abandoned candidate from its next start byte on are examined. -/
theorem abandon_to_start {buf mid tail : List RxByte} {p : Part} (quiet : noStart mid)
    (after : buf.drop 1 = mid ++ ⟨linkStart, false⟩ :: tail) :
    ∃ n, abandon buf p = examine (n + 1) (⟨linkStart, false⟩ :: tail) (counted p) := by
  have len : buf.length = mid.length + (tail.length + 1 + 1) := by
    have short := congrArg List.length after
    simp only [List.length_drop, List.length_append, List.length_cons] at short
    omega
  exact ⟨tail.length + 1, by rw [abandon_eq, after, len, examine_skip _ quiet]⟩

/-- FRAME_ABANDONED and RECEIVE_GAP_TIMEOUT when nothing after the start of the candidate can start another. -/
theorem abandonedFramesAreCounted {s : State} (collecting : s.part.link.rxBuffer ≠ []) (b : Byte) (stopLow : Bool) :
    (s.part.link.gapOver s.part.clock = false → verdict (s.part.link.rxBuffer ++ [⟨b, stopLow⟩]) = .bad →
      noStart ((s.part.link.rxBuffer ++ [RxByte.mk b stopLow]).drop 1) → exec (.frameAbandoned b stopLow) s =
        .next (s.withLink (s.part.link.hunting s.part.clock (min 65535 (s.part.link.errorCount + 1))))) ∧
    (s.part.link.gapOver s.part.clock = true → noStart (s.part.link.rxBuffer.drop 1) → exec .receiveGapTimeout s =
      .next (s.withLink (s.part.link.hunting s.part.link.lastRx (min 65535 (s.part.link.errorCount + 1))))) ∧
    (s.part.link.gapOver s.part.clock = false → exec .receiveGapTimeout s = .next s) := by
  refine ⟨fun noGap bad quiet => ?_, fun gap quiet => ?_, fun noGap => ?_⟩
  · rw [exec_frameAbandoned collecting noGap bad, abandon_eq, examine_noStart _ quiet]
    rfl
  · refine (congrArg (Host.Outcome.next ∘ s.withPart) (closeGap_of_gap collecting gap)).trans ?_
    rw [abandon_eq, examine_noStart _ quiet]
    rfl
  · exact congrArg (Host.Outcome.next ∘ s.withPart) (closeGap_of_noGap noGap)

/-- Settles O14: candidates that are abandoned or carry another kind, and the bytes after the start examined again. -/
theorem framesThatAreNoRequestsAreCounted : Obligations.FramesThatAreNoRequestsAreCounted := by
  refine ⟨⟨fun b stopLow s collecting => abandonedFramesAreCounted collecting b stopLow,
    fun b s collecting noGap complete other => ?_⟩, fun b stopLow mid tail s collecting quiet => ?_⟩
  · rw [exec_frameReceived collecting noGap complete, handFrame, if_neg (by simp; omega)]
    rfl
  · intro start cand link errors opens
    refine ⟨fun noGap bad after => ?_, fun gap after unfinished quiet' => ?_⟩
    · obtain ⟨n, examined⟩ := abandon_to_start (p := heard s.part) quiet after
      rw [exec_frameAbandoned collecting noGap bad, examined]
      refine ⟨fun open_ => ?_, fun complete low high => ?_, fun bad' quiet' => ?_⟩
      · rw [examine_open opens n open_, if_neg (by simp [Link.gapOver, counted, heard, Part.withLink, Link.countError])]
        rfl
      · rw [examine_complete opens n complete, handFrame, if_pos (by simp; exact ⟨low, high⟩)]
        rfl
      · rw [examine_bad opens n bad', examine_noStart _ quiet']
        rfl
    · obtain ⟨n, examined⟩ := abandon_to_start (p := s.part) quiet after
      refine (congrArg (Host.Outcome.next ∘ s.withPart) ((closeGap_of_gap collecting gap).trans examined)).trans ?_
      have counted_twice : examine (n + 1) (⟨linkStart, false⟩ :: tail) (counted s.part) =
          examine n tail (counted (counted s.part)) := by
        cases v : verdict (⟨linkStart, false⟩ :: tail) with
        | open_ => exact (examine_open opens n v).trans (if_pos gap)
        | complete => exact absurd v unfinished
        | bad => exact examine_bad opens n v
      rw [Function.comp_apply, counted_twice, examine_noStart _ quiet']
      rfl

end Sys2Proof.Proofs
end


section
/-!
The bytes of requests and replies: numbers read back from the bytes that carry them, the lengths of the records, and the
general requests (R15, R16, R19, R80).
-/

namespace Sys2Proof.Proofs

open Sys2Proof Sys2Proof.Machine

/-! ## Lengths -/

@[simp] theorem be16_length (n : Nat) : (be16 n).length = 2 := rfl

@[simp] theorem be32_length (n : Nat) : (be32 n).length = 4 := rfl

@[simp] theorem timeBytes_length (t : Nat) : (timeBytes t).length = 4 := by unfold timeBytes; split <;> rfl

@[simp] theorem absentBytes_length (n : Nat) : (absentBytes n).length = n := by simp [absentBytes]

@[simp] theorem opt8_length (o : Option Nat) : (opt8 o).length = 2 := by cases o <;> simp [opt8]

@[simp] theorem opt16_length (o : Option Nat) : (opt16 o).length = 3 := by cases o <;> simp [opt16]

@[simp] theorem optTime_length (o : Option Nat) : (optTime o).length = 5 := by cases o <;> simp [optTime]

@[simp] theorem padded8_length (room : Nat) (ids : List Nat) : (padded8 room ids).length = room := by
  simp only [padded8, List.length_append, List.length_map, List.length_take, List.length_replicate]
  omega

theorem flatMap_length {α β : Type} {f : α → List β} {n : Nat} (h : ∀ a, (f a).length = n) (as : List α) :
    (as.flatMap f).length = n * as.length := by
  simp [List.length_flatMap, h, Nat.mul_comm]

@[simp] theorem padded16_length (room : Nat) (ids : List Nat) : (padded16 room ids).length = 2 * room := by
  simp only [padded16, List.length_append, flatMap_length be16_length, List.length_take, List.length_replicate]
  omega

@[simp] theorem candidateRecord_length (c : Option Candidate) : (candidateRecord c).length = 6 := by
  cases c <;> simp [candidateRecord]

@[simp] theorem settingsRecord_length (c : PressureSettings) : (settingsRecord c).length = 23 := by simp [settingsRecord]

@[simp] theorem operationRecord_length (o : Option Operation) : (operationRecord o).length = 14 := by
  cases o <;> simp [operationRecord]

@[simp] theorem impactRecord_length (i : Option Impact) : (impactRecord i).length = 11 := by
  cases i <;> simp [impactRecord]

@[simp] theorem jobRecord_length (j : Option Job) : (jobRecord j).length = 4 := by cases j <;> simp [jobRecord]

theorem pointRecord_length (pt : Point) : (pointRecord pt).length = match pt.body with
    | .discrete _ => 14
    | .pressure _ _ _ => 68 := by
  unfold pointRecord
  cases pt.body <;> simp

theorem segmentRecord_length (s : Segment) : (segmentRecord s).length = 51 := by
  simp only [segmentRecord, List.length_append, flatMap_length timeBytes_length, List.length_take,
    List.length_replicate, List.length_cons, List.length_nil, be16_length, padded16_length, padded8_length, opt8_length]
  omega

theorem outstationRecord_length (i : Nat) (o : Outstation) : (outstationRecord i o).length = 12 := by simp [outstationRecord]
theorem valveRecord_length (x : Valve) : (valveRecord x).length = 32 := by simp [valveRecord]
theorem feedRecord_length (x : Feed) : (feedRecord x).length = 6 := by simp [feedRecord]
theorem districtRecord_length (x : District) : (districtRecord x).length = 5 := by simp [districtRecord]
theorem planRecord_length (x : Plan) : (planRecord x).length = 481 := by simp [planRecord]
theorem callRecord_length (x : Call) : (callRecord x).length = 15 := by simp [callRecord]
theorem incidentRecord_length (x : Incident) : (incidentRecord x).length = 50 := by simp [incidentRecord]
theorem crewRecord_length (x : Crew) : (crewRecord x).length = 16 := by simp [crewRecord]
theorem outageRecord_length (x : Outage) : (outageRecord x).length = 163 := by simp [outageRecord]
theorem changeRecord_length (i : Nat) (x : Segment) : (changeRecord i x).length = 11 := by simp [changeRecord]

/-- Settles O21: the length of each record is the sum of its fields' lengths. -/
theorem recordLengths : Obligations.RecordLengths :=
  ⟨outstationRecord_length, pointRecord_length, segmentRecord_length, valveRecord_length, feedRecord_length,
    districtRecord_length, planRecord_length, callRecord_length, incidentRecord_length, crewRecord_length,
    outageRecord_length, changeRecord_length⟩

/-! ## READ_TABLE (R16) -/

/-- No record of READ_TABLE is longer than that of a plan. -/
theorem recordOf_length_le (p : Part) (code i : Nat) : (p.recordOf code i).length ≤ 482 := by
  have fields (bs : List Byte) (h : p.fieldsOf code i = some bs) : bs.length ≤ 481 := by
    unfold Part.fieldsOf at h
    split at h
    all_goals
      obtain ⟨x, _, rfl⟩ := Option.map_eq_some_iff.mp h
    · simp [outstationRecord_length]
    · rw [pointRecord_length]; split <;> simp
    · simp [segmentRecord_length]
    · simp [valveRecord_length]
    · simp [feedRecord_length]
    · simp [districtRecord_length]
    · simp [planRecord_length]
    · simp [callRecord_length]
    · simp [incidentRecord_length]
    · simp [crewRecord_length]
    · simp [outageRecord_length]
  unfold Part.recordOf
  cases h : p.fieldsOf code i with
  | none => simp
  | some bs => exact Nat.succ_le_succ (fields bs h)

/-- The records that fit are the first ones, as many as fit. -/
theorem fitting_spec (room : Nat) (rs : List (List Byte)) :
    fitting room rs = rs.take (fitting room rs).length ∧ (fitting room rs).flatten.length ≤ room ∧
    (fitting room rs).length ≤ rs.length ∧
    ((fitting room rs).length < rs.length → room < (rs.take ((fitting room rs).length + 1)).flatten.length) := by
  induction rs generalizing room with
  | nil => simp [fitting]
  | cons r rest ih =>
    unfold fitting
    split
    · next fits =>
      obtain ⟨first, total, count, more⟩ := ih (room - r.length)
      refine ⟨?_, ?_, ?_, fun short => ?_⟩
      · rw [List.length_cons, List.take_succ_cons, ← first]
      · simp only [List.flatten_cons, List.length_append]; omega
      · simp only [List.length_cons]; omega
      · have := more (by simpa using short)
        simp only [List.length_cons, List.take_succ_cons, List.flatten_cons, List.length_append] at this ⊢
        omega
    · next long => simpa using long

/-- A record that fits is taken. -/
theorem fitting_pos {room : Nat} {r : List Byte} {rest : List (List Byte)} (h : r.length ≤ room) :
    1 ≤ (fitting room (r :: rest)).length := by
  simp [fitting, h]

theorem toNat_byte (n : Nat) : (byte n).toNat = n % 256 := rfl

/-- The tables of READ_TABLE: codes up to 10, and none with more than 768 entries. -/
theorem tableRoom_bounds {code room : Nat} (h : tableRoom code = some room) : code < 11 ∧ room ≤ 768 := by
  have low : code < 11 := by
    by_contra high
    obtain ⟨n, rfl⟩ : ∃ n, code = n + 11 := ⟨code - 11, by omega⟩
    cases h
  refine ⟨low, ?_⟩
  interval_cases code <;> (cases h; decide)

/-- The answer of READ_TABLE for a run inside its table. -/
theorem readTableRule_act {code first count room : Nat} {b : List Byte} {p : Part} (code_eq : u8 b 0 = code)
    (first_eq : u16 b 1 = first) (count_eq : u8 b 3 = count) (table : tableRoom code = some room)
    (low : 1 ≤ count) (high : count ≤ 16) (inside : first + count ≤ room) : readTableRule.act b p =
      let records := fitting 1015 ((List.range count).map fun i => p.recordOf code (first + i))
      ⟨.ok, [byte code] ++ be16 first ++ [byte records.length] ++ records.flatten, p⟩ := by
  have ranges : (decide (count = 0) || decide (16 < count) || decide (room < first + count)) = false := by
    simp only [Bool.or_eq_false_iff, decide_eq_false_iff_not]
    omega
  simp only [readTableRule, code_eq, first_eq, count_eq, table, ranges]
  rfl

/-- Settles O20: the records that fit are the longest run from the first, and a first record always fits. -/
theorem readTableReturnsTheRecords : Obligations.ReadTableReturnsTheRecords := by
  intro tag code first count room s free table low high inside
  dsimp only
  obtain ⟨code_low, room_low⟩ := tableRoom_bounds table
  generalize hp : s.begun 0x02 tag ([byte code] ++ be16 first ++ [byte count]) = p
  have reads : u8 ([byte code] ++ be16 first ++ [byte count]) 0 = code ∧
      u16 ([byte code] ++ be16 first ++ [byte count]) 1 = first ∧ u8 ([byte code] ++ be16 first ++ [byte count]) 3 = count := by
    simp only [u16, u8, be16, List.cons_append, List.nil_append, List.getD_cons_succ, List.getD_cons_zero, toNat_byte]
    omega
  have act := readTableRule_act (p := p) reads.1 reads.2.1 reads.2.2 table low high inside
  dsimp only at act
  generalize hrs : (List.range count).map (fun i => p.recordOf code (first + i)) = rs at act
  obtain ⟨isFirst, total, most, more⟩ := fitting_spec 1015 rs
  have count_eq : rs.length = count := by rw [← hrs]; simp
  have prefixes (n : Nat) (h : n ≤ count) :
      ((List.range n).map fun i => p.recordOf code (first + i)) = rs.take n := by
    rw [← hrs, ← List.map_take, List.take_range, Nat.min_eq_left h]
  have some_ : 1 ≤ (fitting 1015 rs).length := by
    obtain ⟨m, rfl⟩ : ∃ m, count = m + 1 := ⟨count - 1, by omega⟩
    rw [← hrs, List.range_succ_eq_map, List.map_cons]
    exact fitting_pos ((recordOf_length_le _ _ _).trans (by decide))
  refine ⟨(fitting 1015 rs).length, some_, by omega, ?_, fun short => ?_, ?_⟩
  · rw [prefixes _ (by omega), ← isFirst]; exact total
  · rw [prefixes _ (by omega)]; exact more (by omega)
  · rw [prefixes _ (by omega), ← isFirst]
    subst hp
    exact request_of_admitted (h := readTableRule) rfl tag free rfl rfl act

/-! ## STATUS (R15) -/

/-- A table in its canonical form has no more entries than its room. -/
theorem entries_length_le {α : Type} {t : Table α} {room : Nat} (w : t.wf room = true) : t.entries.length ≤ room := by
  obtain ⟨rise, low⟩ := (Laws.wf_iff t room).mp w
  have subset : t.ids.toFinset ⊆ Finset.range room := fun k hk => Finset.mem_range.mpr (low k (List.mem_toFinset.mp hk))
  have card := Finset.card_le_card subset
  rwa [List.toFinset_card_of_nodup (rise.imp Nat.ne_of_lt), Finset.card_range, Table.ids, List.length_map] at card

theorem count_le {α : Type} {t : Table α} {room : Nat} (w : t.wf room = true) (f : Nat → α → Bool) : t.count f ≤ room :=
  (List.length_filter_le _ _).trans (entries_length_le w)

theorem u8_of_byte {n : Nat} (h : n < 256) : (byte n).toNat = n := Nat.mod_eq_of_lt h

theorem toNat_flag (b : Bool) : (flag b).toNat = if b then 1 else 0 := by cases b <;> rfl

/-- The counts of the communication states, line by line (R15). -/
theorem statusFields_comm (p : Part) (hp : p.outstations.wf 64 = true) {line : Nat} (h : line < 4) (c : CommState) :
    u8 p.statusFields (11 + 5 * line + c.code) =
      p.outstations.count fun id o => decide (id / 16 = line) && decide (o.comm = c) := by
  have field : p.statusFields.getD (11 + 5 * line + c.code) 0 =
      byte (p.outstations.count fun id o => decide (id / 16 = line) && decide (o.comm = c)) := by
    interval_cases line <;> cases c <;> rfl
  rw [u8, field]
  exact u8_of_byte ((count_le hp _).trans_lt (by decide))

/-- Settles O19: each field at its offset, and its value within its width. -/
theorem statusFieldsAsLaidOut : Obligations.StatusFieldsAsLaidOut := by
  intro p link tables rate
  obtain ⟨notices, _, _, errors, lost, _⟩ := link
  obtain ⟨outstations, _, _, _, _, _, plans, _, incidents, _, outages, _⟩ := tables
  simp only [noticeRoom, maxCount] at notices errors lost
  have time : p.time ≤ 4294967295 := Nat.min_le_right _ _
  have openIncidents := count_le incidents fun _ i => decide (i.state ≠ .closed)
  have activeOutages := count_le outages fun _ o => o.ended.isNone
  have executed := count_le plans fun _ q => q.inExecution
  refine ⟨?_, ?_, ?_, ?_, ?_, ?_, ?_, fun line h c => statusFields_comm p outstations h c, ?_, ?_, ?_, ?_, ?_, ?_, ?_, ?_⟩
  · rfl
  · show (byte p.link.partState.code).toNat = _
    cases p.link.partState <;> rfl
  · exact toNat_flag _
  · show 65536 * (256 * (byte (p.time / 65536 / 256)).toNat + (byte (p.time / 65536)).toNat) +
      (256 * (byte (p.time / 256)).toNat + (byte p.time).toNat) = p.time
    simp only [toNat_byte]; omega
  · show 256 * (byte (p.link.errorCount / 256)).toNat + (byte p.link.errorCount).toNat = _
    simp only [toNat_byte]; omega
  · show 256 * (byte (p.link.lostCount / 256)).toNat + (byte p.link.lostCount).toNat = _
    simp only [toNat_byte]; omega
  · exact u8_of_byte (by omega)
  · show (flag (p.trace.engine != .idle)).toNat = _
    rw [toNat_flag]
    by_cases idle : p.trace.engine = .idle <;> simp [idle]
  · exact toNat_flag _
  · show (byte (p.register.incidents.count fun _ i => i.state != .closed)).toNat = _
    have same : (fun (_ : Nat) (i : Incident) => i.state != .closed) = fun _ i => decide (i.state ≠ .closed) := by
      funext _ i; simp [bne, BEq.beq]
    rw [same]
    exact u8_of_byte (openIncidents.trans_lt (by decide))
  · exact u8_of_byte (activeOutages.trans_lt (by decide))
  · show (byte (p.plans.count fun _ q => q.inExecution)).toNat = _
    have same : (fun (_ : Nat) (q : Plan) => [PlanState.executing, .blocked, .isolated, .releasing].contains q.state) =
        fun _ q => q.inExecution := by
      funext _ q; cases h : q.state <;> simp [Plan.inExecution, h]
    rw [same]
    exact u8_of_byte (executed.trans_lt (by decide))
  · rfl
  · show 65536 * (256 * (byte (p.link.rate / 65536 / 256)).toNat + (byte (p.link.rate / 65536)).toNat) +
      (256 * (byte (p.link.rate / 256)).toNat + (byte p.link.rate).toNat) = p.link.rate
    simp only [toNat_byte]; omega
  · show (byte p.link.resetCause.code).toNat = _
    cases p.link.resetCause <;> rfl

end Sys2Proof.Proofs
end


section
/-!
The general requests that have a rule of a few lines, and READ_CHANGES (R7, R14, R15, R19, R80).
-/

namespace Sys2Proof.Proofs

open Sys2Proof Sys2Proof.Machine

/-- The kinds 0x30 to 0x3F are unknown (R7). -/
theorem handlerOf_unknown (low : Fin 16) : handlerOf (0x30 + low.val) = none := by
  revert low; decide

theorem runRequest_of_unknown {r : Request} (h : handlerOf r.kind = none) (p : Part) :
    runRequest r p = ⟨.unknownKind, [], p⟩ := by simp [runRequest, h, refuse]

/-! ## READ_CHANGES (R80) -/

/-- The ids of a table that pass a test are distinct. -/
theorem idsWhere_nodup {α : Type} {t : Table α} {room : Nat} (w : t.wf room = true) (f : Nat → α → Bool) :
    (t.idsWhere f).Nodup :=
  ((((Laws.wf_iff t room).mp w).1.imp Nat.ne_of_lt).sublist (List.filter_sublist.map _))

/-- The segments with the marks of some ids cleared (R80). -/
def unmarked (ids : List Nat) (t : Table Segment) : Table Segment :=
  t.map fun id s => if ids.contains id then { s with changed := false } else s

theorem unmarked_get? (ids : List Nat) (t : Table Segment) (id : Nat) : (unmarked ids t).get? id =
    (t.get? id).map fun x => { x with changed := x.changed && !ids.contains id } := by
  rw [unmarked, Laws.get?_map]
  cases t.get? id with
  | none => rfl
  | some x => cases h : ids.contains id <;> simp

/-- Marks are left, once the first 32 are cleared, just when there are more than 32 (R80). -/
theorem any_unmarked {t : Table Segment} {room : Nat} (w : t.wf room = true) (n : Nat) :
    (unmarked ((t.idsWhere fun _ x => x.changed).take n) t).any (fun _ x => x.changed) =
      decide (n < (t.idsWhere fun _ x => x.changed).length) := by
  generalize marked_eq : (t.idsWhere fun _ x => x.changed) = marked
  have left : (unmarked (marked.take n) t).any (fun _ x => x.changed) = true ↔ ∃ id ∈ marked, id ∉ marked.take n := by
    simp only [Table.any, unmarked, Table.map, List.any_eq_true, List.mem_map, ← marked_eq, Table.idsWhere, List.mem_filter]
    constructor
    · rintro ⟨_, ⟨⟨id, s⟩, he, rfl⟩, changed⟩
      split at changed
      · cases changed
      · next out => exact ⟨id, ⟨(id, s), ⟨he, changed⟩, rfl⟩, by simpa using out⟩
    · rintro ⟨_, ⟨⟨id, s⟩, ⟨he, changed⟩, rfl⟩, out⟩
      refine ⟨_, ⟨(id, s), he, rfl⟩, ?_⟩
      rw [if_neg (by simpa using out)]
      exact changed
  rw [Bool.eq_iff_iff, left, decide_eq_true_eq]
  have distinct : marked.Nodup := marked_eq ▸ idsWhere_nodup w _
  constructor
  · rintro ⟨id, inside, out⟩
    by_contra few
    exact out (by rwa [List.take_of_length_le (by omega)])
  · intro many
    refine ⟨marked[n], List.getElem_mem _, fun early => ?_⟩
    rw [← List.take_append_drop n marked, List.nodup_append] at distinct
    refine distinct.2.2 _ early _ ?_ rfl
    rw [List.drop_eq_getElem_cons many]
    exact List.mem_cons_self

/-- The rule of READ_CHANGES over a segment table in its canonical form. -/
theorem readChangesRule_act {b : List Byte} {p : Part} (w : p.segments.wf 512 = true) : readChangesRule.act b p =
    let marked := p.segments.idsWhere fun _ x => x.changed
    ⟨.ok, [byte (marked.take 32).length, flag (decide (32 < marked.length))] ++
      (marked.take 32).flatMap (fun id => ((p.segments.get? id).map (changeRecord id)).getD []),
      { p with segments := unmarked (marked.take 32) p.segments }⟩ := by
  have ids : ((p.segments.entries.filter fun e => e.2.changed).take 32).map (·.1) =
      (p.segments.idsWhere fun _ x => x.changed).take 32 := by simp [Table.idsWhere, List.map_take]
  have records : ((p.segments.entries.filter fun e => e.2.changed).take 32).flatMap (fun e => changeRecord e.1 e.2) =
      ((p.segments.idsWhere fun _ x => x.changed).take 32).flatMap
        fun id => ((p.segments.get? id).map (changeRecord id)).getD [] := by
    rw [← ids, List.flatMap_map]
    refine List.flatMap_congr fun e he => ?_
    have used := get?_of_mem w (List.mem_filter.mp (List.mem_of_mem_take he)).1
    simp [used]
  have len : ((p.segments.entries.filter fun e => e.2.changed).take 32).length =
      ((p.segments.idsWhere fun _ x => x.changed).take 32).length := by rw [← ids, List.length_map]
  have any := any_unmarked w 32
  unfold unmarked at any
  simp only [readChangesRule, okWith, ids, records, len, any]
  rfl

/-- Settles O17: an unknown kind by the first test of R7, and the rules of the others. -/
theorem generalRequestsAndReadChanges : Obligations.GeneralRequestsAndReadChanges := by
  refine ⟨fun tag s free => ⟨fun low body => ?_, ?_, ?_, fun unloaded => ?_⟩, fun tag s ready w => ?_⟩
  · exact request_of_slotFree (a := ⟨_, _, _⟩) free (runRequest_of_unknown (handlerOf_unknown low) _)
  · exact request_of_admitted (h := statusRule) rfl tag free rfl rfl rfl
  · exact request_of_admitted (h := restartRule) rfl tag free rfl rfl rfl
  · exact request_of_admitted (h := beginLoadRule) rfl tag free rfl (decide_eq_true unloaded) rfl
  · obtain ⟨free, running⟩ := ready
    refine ⟨unmarked _ s.part.segments, ?_, fun id => unmarked_get? _ _ id⟩
    exact request_of_admitted (h := readChangesRule) rfl tag free rfl
      (decide_eq_true running) (readChangesRule_act (p := s.begun 0x03 tag []) w)

end Sys2Proof.Proofs
end


section
/-!
The requests that describe the model: what each reads from its body, and the one entry that it fills (R21, R23, R43,
R65–R68, R145).
-/

namespace Sys2Proof.Proofs

open Sys2Proof Sys2Proof.Machine

/-- A request of LOADING whose rule answers OK. -/
theorem request_ok {kind : Nat} {h : Handler} (hk : handlerOf kind = some h) (tag : Byte) {body : List Byte} {s : State}
    {q : Part} {result : List Byte} (hs : s.slotFree) (length : h.lengthOk body = true)
    (admitted : h.admitted s.part.link.partState = true)
    (act : h.act body (s.begun kind tag body) = ⟨.ok, result, q⟩) :
    request kind tag body s = .next (s.answered q .ok result) :=
  request_of_admitted hk tag hs length admitted act

theorem loadedOrLoading_of_ne {st : PartState} (h : st ≠ .unloaded) : loadedOrLoading st = true := by
  cases st with
  | unloaded => exact absurd rfl h
  | loading => rfl
  | running => rfl

section
variable {p : Part} {b : List Byte}

/-- SET_LINE with every operand in its range (R21). -/
theorem setLineRule_act {n rate window period limit : Nat} (line : u8 b 0 = n) (rate_eq : u32 b 1 = rate)
    (window_eq : u16 b 5 = window) (period_eq : u8 b 7 = period) (limit_eq : u8 b 8 = limit) (hn : n < 4)
    (rates : lineRates.contains rate = true) (w1 : 20 ≤ window) (w2 : window ≤ 500) (p1 : 1 ≤ period) (p2 : period ≤ 60)
    (l1 : 2 ≤ limit) (l2 : limit ≤ 8) : setLineRule.act b p = ⟨.ok, [], p.onLine n fun l =>
      { l with rate := rate, window := window, period := period, limit := limit }⟩ := by
  simp only [setLineRule, line, rate_eq, window_eq, period_eq, limit_eq, rates]
  rw [if_neg (by simp; omega)]
  rfl

/-- DEFINE_OUTSTATION with every operand in its range (R23). -/
theorem defineOutstationRule_act {line drop kind : Nat} (line_eq : u8 b 0 = line) (drop_eq : u8 b 1 = drop)
    (kind_eq : u8 b 2 = kind) (hl : line < 4) (d1 : 1 ≤ drop) (d2 : drop ≤ 16) (hk : kind ≤ 1) :
    defineOutstationRule.act b p = ⟨.ok, [], { p with
      outstations := p.outstations.set (line * 16 + (drop - 1)) { kind := if kind = 0 then .station else .actuator } }⟩ := by
  simp only [defineOutstationRule, line_eq, drop_eq, kind_eq]
  rw [if_neg (by simp; omega), Nat.add_sub_assoc d1]
  rfl

/-- DEFINE_DISTRICT with every operand in its range (R65). -/
theorem defineDistrictRule_act {d lamp : Nat} (d_eq : u8 b 0 = d) (lamp_eq : u8 b 1 = lamp) (hd : d < 32)
    (hl : lamp < 32) :
    defineDistrictRule.act b p = ⟨.ok, [], { p with districts := p.districts.set d { lamp := lamp } }⟩ := by
  simp only [defineDistrictRule, d_eq, lamp_eq]
  rw [if_neg (by simp; omega)]
  rfl

/-- DEFINE_FEED with every operand in its range (R68). -/
theorem defineFeedRule_act {f segment presence outlet service : Nat} (f_eq : u8 b 0 = f) (segment_eq : u16 b 1 = segment)
    (presence_eq : u8 b 3 = presence) (outlet_eq : u8 b 4 = outlet) (service_eq : u8 b 5 = service) (hf : f < 64)
    (hs : segment < 512) (hp : presence ≤ 1) (hv : service ≤ 1) : defineFeedRule.act b p = ⟨.ok, [], { p with
      feeds := p.feeds.set f { segment := segment, outlet := optAt presence outlet, inService := service = 0 } }⟩ := by
  simp only [defineFeedRule, f_eq, segment_eq, presence_eq, outlet_eq, service_eq]
  rw [if_neg (by simp; omega)]
  rfl

/-- DEFINE_CREW with every operand in its range (R145). -/
theorem defineCrewRule_act {c kind home shift : Nat} (c_eq : u8 b 0 = c) (kind_eq : u8 b 1 = kind) (home_eq : u8 b 2 = home)
    (shift_eq : u8 b 3 = shift) (hc : c < 48) (hk : kind ≤ 1) (hh : home < 32) (hs : shift ≤ 1) :
    defineCrewRule.act b p = ⟨.ok, [], { p with dispatch := { p.dispatch with
      crews := p.dispatch.crews.set c
        { kind := if kind = 0 then .emergency else .fitter, home := home
          state := if shift = 0 then .offShift else .available } } }⟩ := by
  simp only [defineCrewRule, c_eq, kind_eq, home_eq, shift_eq]
  rw [if_neg (by simp; omega)]
  rfl

end

/-- The bytes of a SET_LINE body. -/
theorem setLine_reads {n rate window period limit : Nat} (hn : n < 4) (hr : rate < 4294967296) (hw : window ≤ 500)
    (hp : period ≤ 60) (hl : limit ≤ 8) :
    let b := byte n :: be32 rate ++ be16 window ++ [byte period, byte limit]
    u8 b 0 = n ∧ u32 b 1 = rate ∧ u16 b 5 = window ∧ u8 b 7 = period ∧ u8 b 8 = limit := by
  simp only [u32, u16, u8, be32, be16, List.cons_append, List.nil_append, List.getD_cons_succ, List.getD_cons_zero,
    toNat_byte]
  omega

theorem flag_presence {α : Type} (o : Option α) : (if o.isSome then (1 : Byte) else 0).toNat = if o.isSome then 1 else 0 := by
  cases o <;> rfl

/-- A presence flag and a value read back as the optional value. -/
theorem optAt_presence (o : Option Nat) : optAt (if o.isSome then 1 else 0) (o.getD 0) = o := by cases o <;> rfl

/-- Settles O22: the operands read back from the body, and each rule past its range tests. -/
theorem settingsAndUnitsFillTheirEntries : Obligations.SettingsAndUnitsFillTheirEntries := by
  refine ⟨fun tag n rate window period limit s free loaded hn rates w1 w2 p1 p2 l1 l2 => ?_, fun tag s ready =>
    ⟨fun line drop kind hl d1 d2 hk => ?_, fun d lamp hd hl => ?_, fun f segment outlet service hf hs ho hv => ?_,
      fun c kind home shift hc hk hh hs => ?_⟩⟩
  · have bound : rate < 4294967296 := by
      simp only [List.contains_eq_mem, List.mem_cons, List.not_mem_nil, or_false, decide_eq_true_eq] at rates
      omega
    obtain ⟨r0, r1, r5, r7, r8⟩ := setLine_reads (n := n) (rate := rate) (window := window) (period := period)
      (limit := limit) (by omega) bound w2 p2 l2
    exact request_ok (h := setLineRule) rfl tag free rfl
      (loadedOrLoading_of_ne loaded)
      (setLineRule_act r0 r1 r5 r7 r8 hn rates w1 w2 p1 p2 l1 l2)
  all_goals obtain ⟨free, loading⟩ := ready
  · refine request_ok (h := defineOutstationRule) rfl tag free rfl (decide_eq_true loading)
      (defineOutstationRule_act (line := line) (drop := drop) (kind := kind) ?_ ?_ ?_ hl d1 d2 hk)
    all_goals exact Nat.mod_eq_of_lt (by omega)
  · refine request_ok (h := defineDistrictRule) rfl tag free rfl (decide_eq_true loading)
      (defineDistrictRule_act (d := d) (lamp := lamp) ?_ ?_ hd hl)
    all_goals exact Nat.mod_eq_of_lt (by omega)
  · have bound : outlet.getD 0 < 256 := by
      cases outlet with
      | none => decide
      | some pt => exact ho pt rfl
    have act := defineFeedRule_act (p := s.begun 0x0E tag (byte f :: be16 segment ++
        [if outlet.isSome then 1 else 0, byte (outlet.getD 0), byte service]))
      (b := byte f :: be16 segment ++ [if outlet.isSome then 1 else 0, byte (outlet.getD 0), byte service])
      (f := f) (segment := segment) (presence := if outlet.isSome then 1 else 0) (outlet := outlet.getD 0)
      (service := service) (Nat.mod_eq_of_lt (by omega)) (by
        simp only [u16, u8, be16, List.cons_append, List.getD_cons_succ, List.getD_cons_zero, toNat_byte]; omega)
      (flag_presence outlet) (Nat.mod_eq_of_lt bound) (Nat.mod_eq_of_lt (by omega)) hf hs (by split <;> decide) hv
    rw [optAt_presence] at act
    exact request_ok (h := defineFeedRule) rfl tag free rfl (decide_eq_true loading) act
  · refine request_ok (h := defineCrewRule) rfl tag free rfl (decide_eq_true loading)
      (defineCrewRule_act (c := c) (kind := kind) (home := home) (shift := shift) ?_ ?_ ?_ ?_ hc hk hh hs)
    all_goals exact Nat.mod_eq_of_lt (by omega)

/-! ## Segments and valves (R66, R67) -/

theorem noRepeats_of_nodup {vs : List Nat} (h : vs.Nodup) : noRepeats vs = true := by
  induction vs with
  | nil => rfl
  | cons v vs ih =>
    rw [List.nodup_cons] at h
    simp [noRepeats, h.1, ih h.2]

/-- Two bytes written and read back. -/
theorem u16_be16 {n : Nat} (h : n < 65536) (rest : List Byte) : u16 (be16 n ++ rest) 0 = n := by
  simp only [u16, u8, be16, List.cons_append, List.nil_append, List.getD_cons_zero, Nat.zero_add, List.getD_cons_succ,
    toNat_byte]
  omega

theorem u8_append_right (pre rest : List Byte) (k : Nat) : u8 (pre ++ rest) (pre.length + k) = u8 rest k := by
  simp [u8, List.getElem?_append_right]

theorem u16_append_right (pre rest : List Byte) (k : Nat) : u16 (pre ++ rest) (pre.length + k) = u16 rest k := by
  rw [u16, u16, Nat.add_assoc, u8_append_right, u8_append_right]

/-- A list of two-byte ids written one after another and read back. -/
theorem u16s_flatMap_be16 {vs : List Nat} (h : ∀ v ∈ vs, v < 65536) :
    (List.range vs.length).map (fun i => u16 (vs.flatMap be16) (2 * i)) = vs := by
  induction vs with
  | nil => rfl
  | cons v vs ih =>
    rw [List.length_cons, List.range_succ_eq_map, List.map_cons, List.map_map, List.flatMap_cons]
    congr 1
    · exact u16_be16 (h v (by simp)) _
    · refine Eq.trans (List.map_congr_left fun i _ => ?_) (ih fun w hw => h w (by simp [hw]))
      have shift : 2 * i.succ = (be16 v).length + 2 * i := by rw [be16_length]; omega
      rw [Function.comp_apply, shift, u16_append_right]

/-- DEFINE_SEGMENT with every operand in its range (R66). -/
theorem defineSegmentRule_act {p : Part} {b : List Byte} {id district tier customers priority : Nat} {valves : List Nat}
    (id_eq : u16 b 0 = id) (district_eq : u8 b 2 = district) (tier_eq : u8 b 3 = tier) (customers_eq : u16 b 4 = customers)
    (priority_eq : u16 b 6 = priority) (length_eq : u8 b 8 = valves.length) (valves_eq : segmentValves b = valves)
    (hid : id < 512) (hd : district < 32) (ht : tier ≤ 2) (hp : priority ≤ customers) (some_ : valves ≠ [])
    (few : valves.length ≤ 8) (once : valves.Nodup) (ids : ∀ v ∈ valves, v < 768) :
    defineSegmentRule.act b p = ⟨.ok, [], { p with
      segments := p.segments.set id
        { district := district, tier := tierOf tier, customers := customers, priority := priority, valves := valves } }⟩ := by
  have length_pos : valves.length ≠ 0 := fun none_ => some_ (List.length_eq_zero_iff.mp none_)
  have in_range : (valves.any fun v => decide (767 < v)) = false := by
    simp only [List.any_eq_false, decide_eq_true_eq]
    intro v hv
    have := ids v hv
    omega
  simp only [defineSegmentRule, id_eq, district_eq, tier_eq, customers_eq, priority_eq, length_eq, valves_eq, in_range,
    noRepeats_of_nodup once]
  rw [if_neg (by simp [some_]; omega)]
  rfl

/-- DEFINE_VALVE with every operand in its range (R67). -/
theorem defineValveRule_act {p : Part} {b : List Byte} {id x y actuated os slot normal limit : Nat}
    (id_eq : u16 b 0 = id) (x_eq : u16 b 2 = x) (y_eq : u16 b 4 = y) (actuated_eq : u8 b 6 = actuated) (os_eq : u8 b 7 = os)
    (slot_eq : u8 b 8 = slot) (normal_eq : u8 b 9 = normal) (limit_eq : u16 b 10 = limit) (hid : id < 768) (hx : x < 512)
    (hy : y < 512) (apart : x ≠ y) (ha : actuated ≤ 1) (ho : os < 64) (hs : slot < 4) (hn : normal ≤ 1) (l1 : 10 ≤ limit)
    (l2 : limit ≤ 900) : defineValveRule.act b p = ⟨.ok, [], { p with
      valves := p.valves.set id
        { endA := x, endB := y, actuated := actuated = 1, outstation := os, slot := slot, normal := endOf normal
          position := (endOf normal).position, lastEnd := endOf normal, travelLimit := limit } }⟩ := by
  simp only [defineValveRule, id_eq, x_eq, y_eq, actuated_eq, os_eq, slot_eq, normal_eq, limit_eq]
  rw [if_neg (by simp; omega)]
  rfl

/-- The fixed bytes of a DEFINE_SEGMENT body. -/
theorem defineSegment_reads {id district tier customers priority n : Nat} (hid : id < 512) (hd : district < 32)
    (ht : tier ≤ 2) (hc : customers ≤ 65535) (hp : priority ≤ customers) (hn : n ≤ 8) (rest : List Byte) :
    let b := be16 id ++ [byte district, byte tier] ++ be16 customers ++ be16 priority ++ byte n :: rest
    u16 b 0 = id ∧ u8 b 2 = district ∧ u8 b 3 = tier ∧ u16 b 4 = customers ∧ u16 b 6 = priority ∧ u8 b 8 = n := by
  simp only [u16, u8, be16, List.cons_append, List.nil_append, List.getD_cons_succ, List.getD_cons_zero, toNat_byte]
  omega

theorem endOf_position (n : Nat) (h : n ≤ 1) : (endOf n).position = if n = 0 then .opened else .closed := by
  interval_cases n <;> rfl

/-- The bytes of a DEFINE_VALVE body. -/
theorem defineValve_reads {id x y actuated os slot normal limit : Nat} (hid : id < 768) (hx : x < 512) (hy : y < 512)
    (ha : actuated ≤ 1) (ho : os < 64) (hs : slot < 4) (hn : normal ≤ 1) (hl : limit ≤ 900) :
    let b := be16 id ++ be16 x ++ be16 y ++ [byte actuated, byte os, byte slot, byte normal] ++ be16 limit
    u16 b 0 = id ∧ u16 b 2 = x ∧ u16 b 4 = y ∧ u8 b 6 = actuated ∧ u8 b 7 = os ∧ u8 b 8 = slot ∧ u8 b 9 = normal ∧
      u16 b 10 = limit := by
  simp only [u16, u8, be16, List.cons_append, List.nil_append, List.getD_cons_succ, List.getD_cons_zero, toNat_byte]
  omega

theorem exec_defineSegment (tag : Byte) {s : State} (ready : s.loading) {id district tier customers priority : Nat}
    {valves : List Nat} (hid : id < 512) (hd : district < 32) (ht : tier ≤ 2) (hc : customers ≤ 65535)
    (hp : priority ≤ customers) (some_ : valves ≠ []) (few : valves.length ≤ 8) (once : valves.Nodup)
    (ids : ∀ v ∈ valves, v < 768) :
    let body := be16 id ++ [byte district, byte tier] ++ be16 customers ++ be16 priority ++ byte valves.length ::
      valves.flatMap be16
    exec (.defineSegment tag body) s = .next (s.answered { s.begun 0x0C tag body with
      segments := s.part.segments.set id
        { district := district, tier := tierOf tier, customers := customers, priority := priority, valves := valves } }
      .ok []) := by
  intro body
  obtain ⟨r0, r2, r3, r4, r6, r8⟩ := defineSegment_reads hid hd ht hc hp few (valves.flatMap be16)
  have listed : segmentValves body = valves := by
    unfold segmentValves
    rw [r8]
    refine Eq.trans (List.map_congr_left fun i _ => ?_) (u16s_flatMap_be16 fun v hv => (ids v hv).trans (by decide))
    have fixed : body = (be16 id ++ [byte district, byte tier] ++ be16 customers ++ be16 priority ++
        [byte valves.length]) ++ valves.flatMap be16 := by simp [body]
    rw [fixed]
    exact u16_append_right _ _ _
  have long : (decide (9 ≤ body.length) && decide (body.length = 9 + 2 * u8 body 8)) = true := by
    rw [r8, Bool.and_eq_true, decide_eq_true_eq, decide_eq_true_eq]
    simp only [body, List.length_append, List.length_cons, List.length_nil, be16_length, flatMap_length be16_length]
    omega
  exact request_ok (h := defineSegmentRule) rfl tag ready.1 long (decide_eq_true ready.2)
    (defineSegmentRule_act r0 r2 r3 r4 r6 r8 listed hid hd ht hp some_ few once ids)

theorem exec_defineValve (tag : Byte) {s : State} (ready : s.loading) {id x y actuated os slot normal limit : Nat}
    (hid : id < 768) (hx : x < 512) (hy : y < 512) (apart : x ≠ y) (ha : actuated ≤ 1) (ho : os < 64) (hs : slot < 4)
    (hn : normal ≤ 1) (l1 : 10 ≤ limit) (l2 : limit ≤ 900) :
    let body := be16 id ++ be16 x ++ be16 y ++ [byte actuated, byte os, byte slot, byte normal] ++ be16 limit
    exec (.defineValve tag body) s = .next (s.answered { s.begun 0x0D tag body with
      valves := s.part.valves.set id
        { endA := x, endB := y, actuated := actuated = 1, outstation := os, slot := slot, normal := endOf normal
          position := if normal = 0 then .opened else .closed, lastEnd := endOf normal, travelLimit := limit } } .ok []) := by
  intro body
  obtain ⟨r0, r2, r4, r6, r7, r8, r9, r10⟩ := defineValve_reads hid hx hy ha ho hs hn l2
  have act := defineValveRule_act (p := s.begun 0x0D tag body) r0 r2 r4 r6 r7 r8 r9 r10 hid hx hy apart ha ho hs hn l1 l2
  rw [endOf_position normal hn] at act
  exact request_ok (h := defineValveRule) rfl tag ready.1 rfl (decide_eq_true ready.2) act

/-! ## Points (R43) -/

/-- The common part of a DEFINE_POINT body in its ranges. -/
theorem definePointRule_act {p : Part} {b : List Byte} {id kind os input district group : Nat} (id_eq : u8 b 0 = id)
    (kind_eq : u8 b 1 = kind) (os_eq : u8 b 2 = os) (input_eq : u8 b 3 = input) (district_eq : u8 b 4 = district)
    (group_eq : u8 b 8 = group) (hk : kind ≤ 1) (common : pointCommonOk b = true) : definePointRule.act b p =
      let fill (body : PointBody) : Answer := ⟨.ok, [], { p with
        points := p.points.set id
          { outstation := os, input := input, district := district, group := group, body := body } }⟩
      if kind = 0 then
        if (settingsAt b 9).inRange then fill (.pressure (optAt (u8 b 5) (u16 b 6)) (settingsAt b 9) {})
        else refuse .refusedRange p
      else if u8 b 5 = 1 || 3 < u8 b 9 || u8 b 10 < 1 || 8 < u8 b 10 then refuse .refusedRange p
      else fill (.discrete { mode := edgeModeOf (u8 b 9), debounce := u8 b 10 }) := by
  simp only [definePointRule, id_eq, kind_eq, os_eq, input_eq, district_eq, group_eq, common]
  rw [if_neg (by simp; omega)]
  rfl

theorem settingsAt_append (pre rest : List Byte) : settingsAt (pre ++ rest) pre.length = settingsAt rest 0 := by
  have first : u16 (pre ++ rest) pre.length = u16 rest 0 := u16_append_right pre rest 0
  simp only [settingsAt, u16_append_right, u8_append_right, Nat.zero_add, first]

/-- The settings of a PRESSURE point read back from the bytes that carry them. -/
theorem settingsAt_settingsRecord {c : PressureSettings} (range : c.inRange = true) (h0 : c.p0 ≤ 65535)
    (h1 : c.p1 ≤ 65535) (h2 : c.l2 ≤ 65535) (h3 : c.l1 ≤ 65535) (h4 : c.h1 ≤ 65535) (h5 : c.h2 ≤ 65535)
    (h6 : c.hyst ≤ 65535) : settingsAt (settingsRecord c) 0 = c := by
  simp only [PressureSettings.inRange, Bool.and_eq_true, decide_eq_true_eq] at range
  obtain ⟨z, f, p0, p1, k, fall, l2, l1, h1', h2', hyst, ride⟩ := c
  simp only [settingsAt, settingsRecord, u16, u8, be16, List.cons_append, List.nil_append, List.getD_cons_succ,
    List.getD_cons_zero, Nat.zero_add, Nat.reduceAdd, toNat_byte, PressureSettings.mk.injEq] at *
  omega

/-- The common part of a DEFINE_POINT body reads back, with its optional segment. -/
theorem definePoint_reads {id kind os input district group : Nat} {segment : Option Nat} (hid : id < 256) (hk : kind ≤ 1)
    (ho : os < 64) (hi : input ≤ if kind = 0 then 7 else 15) (hd : district < 32) (hg : group < 8)
    (hs : ∀ x, segment = some x → x < 512) (rest : List Byte) :
    let b := [byte id, byte kind, byte os, byte input, byte district] ++ segmentBytes segment (0, 0) ++ byte group :: rest
    u8 b 0 = id ∧ u8 b 1 = kind ∧ u8 b 2 = os ∧ u8 b 3 = input ∧ u8 b 4 = district ∧ u8 b 8 = group ∧
      u8 b 5 = (if segment.isSome then 1 else 0) ∧ optAt (u8 b 5) (u16 b 6) = segment ∧ pointCommonOk b = true ∧
      ∃ pre : List Byte, pre.length = 9 ∧ b = pre ++ rest := by
  intro b
  have input_low : input < 16 := by split at hi <;> omega
  have numbers : u8 b 0 = id ∧ u8 b 1 = kind ∧ u8 b 2 = os ∧ u8 b 3 = input ∧ u8 b 4 = district := by
    simp only [b, u8, List.cons_append, List.getD_cons_succ, List.getD_cons_zero, toNat_byte]
    omega
  have tail : u8 b 8 = group ∧ u8 b 5 = (if segment.isSome then 1 else 0) ∧ optAt (u8 b 5) (u16 b 6) = segment ∧
      (u8 b 5 = 0 ∨ u16 b 6 ≤ 511) := by
    cases segment with
    | none =>
      refine ⟨Nat.mod_eq_of_lt (by omega), rfl, rfl, .inl rfl⟩
    | some x =>
      have x_low := hs x rfl
      have read : u16 b 6 = x := by
        simp only [b, segmentBytes, u16, u8, be16, List.cons_append, List.nil_append, List.getD_cons_succ,
          List.getD_cons_zero, toNat_byte]
        omega
      refine ⟨Nat.mod_eq_of_lt (by omega), rfl, ?_, .inr (by omega)⟩
      rw [read]; rfl
  obtain ⟨r0, r1, r2, r3, r4⟩ := numbers
  obtain ⟨r8, r5, segment_eq, bound⟩ := tail
  refine ⟨r0, r1, r2, r3, r4, r8, r5, segment_eq, ?_, _, ?_, (List.append_cons _ _ _)⟩
  · simp only [pointCommonOk, r1, r2, r3, r4, r8, Bool.and_eq_true, Bool.or_eq_true, decide_eq_true_eq]
    refine ⟨⟨⟨⟨⟨by omega, hi⟩, by omega⟩, ?_⟩, bound⟩, by omega⟩
    rw [r5]; split <;> decide
  · cases segment <;> rfl

/-- DEFINE_POINT of a PRESSURE point with every operand in its range (R43, R45). -/
theorem exec_definePressure (tag : Byte) {s : State} (ready : s.loading) {id os input district group : Nat}
    {segment : Option Nat} {c : PressureSettings} (hid : id < 256) (ho : os < 64) (hi : input < 8) (hd : district < 32)
    (hg : group < 8) (hs : ∀ x, segment = some x → x < 512) (range : c.inRange = true)
    (settings : settingsAt (settingsRecord c) 0 = c) {body : List Byte}
    (whole_body : [byte id, byte 0, byte os, byte input, byte district] ++ segmentBytes segment (0, 0) ++ byte group ::
      settingsRecord c = body) :
    exec (.definePoint tag body) s = .next (s.answered { s.begun 0x0A tag body with
      points := s.part.points.set id
        { outstation := os, input := input, district := district, group := group, body := .pressure segment c {} } }
      .ok []) := by
  have reads :=
    definePoint_reads (kind := 0) hid (by decide) ho (by simpa using Nat.le_of_lt_succ hi) hd hg hs (settingsRecord c)
  simp only [whole_body] at reads
  obtain ⟨r0, r1, r2, r3, r4, r8, _, segment_eq, common, pre, len, whole⟩ := reads
  have read : settingsAt body 9 = c := by
    rw [whole, ← len, settingsAt_append, settings]
  have length : pointLengthOk body = true := by
    have total : body.length = 32 := (congrArg List.length whole).trans (by simp [len])
    have kind : u8 body 1 = 0 := r1
    simp [pointLengthOk, kind, total]
  refine request_ok (h := definePointRule) rfl tag ready.1 length (decide_eq_true ready.2)
    ((definePointRule_act r0 r1 r2 r3 r4 r8 (by decide) common).trans ?_)
  simp only [read, range, segment_eq, if_true]
  rfl

/-- DEFINE_POINT of a DISCRETE point with every operand in its range (R43, R45). -/
theorem exec_defineDiscrete (tag : Byte) {s : State} (ready : s.loading) {id os input district group mode debounce : Nat}
    (hid : id < 256) (ho : os < 64) (hi : input < 16) (hd : district < 32) (hg : group < 8) (hm : mode < 4)
    (d1 : 1 ≤ debounce) (d2 : debounce ≤ 8)
    {body : List Byte} (whole_body : [byte id, byte 1, byte os, byte input, byte district] ++ segmentBytes none (0, 0) ++
      byte group :: [byte mode, byte debounce] = body) :
    exec (.definePoint tag body) s = .next (s.answered { s.begun 0x0A tag body with
      points := s.part.points.set id
        { outstation := os, input := input, district := district, group := group
          body := .discrete { mode := edgeModeOf mode, debounce := debounce } } } .ok []) := by
  have reads := definePoint_reads (kind := 1) (segment := none) hid (by decide) ho
    (by simpa using Nat.le_of_lt_succ hi) hd hg (by simp) [byte mode, byte debounce]
  have r9 : u8 body 9 = mode := by subst whole_body; exact Nat.mod_eq_of_lt (by omega)
  have r10 : u8 body 10 = debounce := by subst whole_body; exact Nat.mod_eq_of_lt (by omega)
  have length : pointLengthOk body = true := by subst whole_body; rfl
  simp only [whole_body] at reads
  obtain ⟨r0, r1, r2, r3, r4, r8, r5, _, common, _⟩ := reads
  refine request_ok (h := definePointRule) rfl tag ready.1 length (decide_eq_true ready.2)
    ((definePointRule_act r0 r1 r2 r3 r4 r8 (by decide) common).trans ?_)
  have tests : (decide (u8 body 5 = 1) || decide (3 < mode) || decide (debounce < 1) || decide (8 < debounce)) = false := by
    have presence : u8 body 5 = 0 := r5
    simp only [presence, Bool.or_eq_false_iff, decide_eq_false_iff_not]
    omega
  simp only [r9, r10, tests, Nat.one_ne_zero, if_false]
  rfl

/-- Settles O23: the operands read back from the body, and each rule past its range tests. -/
theorem definitionsOfTheModelFillTheirEntries : Obligations.DefinitionsOfTheModelFillTheirEntries :=
  ⟨fun tag _ ready => ⟨fun _ _ _ _ _ _ hid hd ht hc hp some_ few once ids =>
      exec_defineSegment tag ready hid hd ht hc hp some_ few once ids,
    fun _ _ _ _ _ _ _ _ hid hx hy apart ha ho hs hn l1 l2 =>
      exec_defineValve tag ready hid hx hy apart ha ho hs hn l1 l2⟩,
    fun tag _ _ _ _ _ ready hid ho hd hg => ⟨fun _ _ _ hi hs range p0 p1 l2 l1 h1 h2 hyst =>
        exec_definePressure tag ready hid ho hi hd hg hs range (settingsAt_settingsRecord range p0 p1 l2 l1 h1 h2 hyst) rfl,
      fun _ _ _ hi hm d1 d2 => exec_defineDiscrete tag ready hid ho hi hd hg hm d1 d2 rfl⟩⟩

end Sys2Proof.Proofs
end


section
/-!
The validation of END_LOAD (R44, R69): its tests, item by item and table by table, come to the description that the rules
ask for.
-/

namespace Sys2Proof.Proofs

open Sys2Proof Sys2Proof.Machine

/-! ## Tests one after another -/

theorem firstFault_eq_none {tests : List (Bool × LoadFault)} : firstFault tests = none ↔ ∀ t ∈ tests, t.1 = false := by
  induction tests with
  | nil => simp [firstFault]
  | cons t tests ih =>
    obtain ⟨fails, why⟩ := t
    cases fails <;> simp [firstFault, ih]

theorem firstFailing_eq_none {α : Type} {test : Nat → α → Option LoadFault} {es : List (Nat × α)} :
    firstFailing test es = none ↔ ∀ e ∈ es, test e.1 e.2 = none := by
  induction es with
  | nil => simp [firstFailing]
  | cons e es ih =>
    obtain ⟨id, a⟩ := e
    cases h : test id a <;> simp [firstFailing, h, ih]

section
variable {α : Type} {t : Table α} {room : Nat} (w : t.wf room = true)
include w

theorem forall_mem_entries {P : Nat → α → Prop} : (∀ e ∈ t.entries, P e.1 e.2) ↔ ∀ id x, t.get? id = some x → P id x :=
  ⟨fun h id x hx => h _ (Laws.mem_of_get? t id x hx), fun h _ he => h _ _ (get?_of_mem w he)⟩

theorem firstFailing_table {test : Nat → α → Option LoadFault} :
    firstFailing test t.entries = none ↔ ∀ id x, t.get? id = some x → test id x = none :=
  firstFailing_eq_none.trans (forall_mem_entries w (P := fun id x => test id x = none))

/-- At most n entries pass a test just when each of them has fewer than n before it. -/
theorem count_le_iff (f : Nat → α → Bool) (n : Nat) :
    t.count f ≤ n ↔ ∀ id x, t.get? id = some x → f id x = true → t.count (fun i y => decide (i < id) && f i y) < n := by
  rw [← forall_mem_entries w (P := fun id x => f id x = true → t.count (fun i y => decide (i < id) && f i y) < n)]
  have rise := ((Laws.wf_iff t room).mp w).1
  have before (id : Nat) : (t.entries.filter fun e => decide (e.1 < id) && f e.1 e.2) =
      (t.entries.filter fun e => f e.1 e.2).filter fun e => decide (e.1 < id) := by
    rw [List.filter_filter]
  have passed : ((t.entries.filter fun e => f e.1 e.2).map (·.1)).Pairwise (· < ·) :=
    rise.sublist (List.filter_sublist.map _)
  unfold Table.count
  generalize passing : (t.entries.filter fun e => f e.1 e.2) = F at *
  have mem (e : Nat × α) : e ∈ F ↔ e ∈ t.entries ∧ f e.1 e.2 = true := by rw [← passing, List.mem_filter]
  constructor
  · intro few e he pass
    rw [before]
    refine Nat.lt_of_lt_of_le (List.length_filter_lt_length_iff_exists.mpr ⟨e, (mem e).mpr ⟨he, pass⟩, by simp⟩) few
  · intro fewer
    by_contra many
    have long : n < F.length := by omega
    obtain ⟨he, pass⟩ := (mem F[n]).mp (List.getElem_mem long)
    have few := fewer F[n] he pass
    rw [before] at few
    have early : (F.take n).filter (fun e => decide (e.1 < F[n].1)) = F.take n := by
      refine List.filter_eq_self.mpr fun e he => ?_
      rw [← List.take_append_drop n F, List.map_append, List.pairwise_append] at passed
      refine decide_eq_true (passed.2.2 e.1 (List.mem_map_of_mem he) _ (List.mem_map_of_mem ?_))
      rw [List.drop_eq_getElem_cons long]
      exact List.mem_cons_self
    have sub := ((List.take_sublist n F).filter fun e => decide (e.1 < F[n].1)).length_le
    rw [early, List.length_take, Nat.min_eq_left long.le] at sub
    omega

/-- No two entries share what a test compares just when none shares it with an earlier one. -/
theorem apart_iff {same : α → α → Bool} (symm : ∀ a b, same a b = same b a) :
    (∀ id x, t.get? id = some x → (t.any fun i y => decide (i < id) && same y x) = false) ↔
      ∀ i j x y, t.get? i = some x → t.get? j = some y → same x y = true → i = j := by
  constructor
  · intro none_ i j x y hx hy shared
    rcases Nat.lt_trichotomy i j with lt | eq | gt
    · have := none_ j y hy
      simp only [Table.any, List.any_eq_false] at this
      exact absurd (this _ (Laws.mem_of_get? t i x hx)) (by simp [lt, shared])
    · exact eq
    · have := none_ i x hx
      simp only [Table.any, List.any_eq_false] at this
      exact absurd (this _ (Laws.mem_of_get? t j y hy)) (by simp [gt, symm y x, shared])
  · intro apart id x hx
    simp only [Table.any, List.any_eq_false]
    rintro ⟨i, y⟩ he both
    simp only [Bool.and_eq_true, decide_eq_true_eq] at both
    exact absurd (apart i id y x (get?_of_mem w he) hx both.2) both.1.ne

end

/-! ## The tests of one item -/

theorem has_iff {α : Type} {t : Table α} {k : Nat} : t.has k = true ↔ ∃ x, t.get? k = some x := by
  simp [Table.has, Option.isSome_iff_exists]

theorem ordered_iff {c : PressureSettings} : ordered c = true ↔ c.Ordered := by
  simp only [ordered, PressureSettings.Ordered, Bool.and_eq_true, decide_eq_true_eq]
  omega

section
variable {p : Part}

theorem osKind_eq {os : Nat} {k : OsKind} (h : p.outstations.has os = true) :
    p.osKind os = k ↔ ∃ o, p.outstations.get? os = some o ∧ o.kind = k := by
  obtain ⟨o, ho⟩ := has_iff.mp h
  simp [Part.osKind, ho]

/-- The tests of a point, in words (R44, R69). -/
theorem pointFault_eq_none {id : Nat} {pt : Point} : p.pointFault id pt = none ↔
    p.outstations.has pt.outstation = true ∧ p.districts.has pt.district = true ∧
      ∀ seg c st, pt.body = .pressure seg c st →
        (∃ o, p.outstations.get? pt.outstation = some o ∧ o.kind = .station) ∧
        (∀ x, seg = some x → p.segments.has x = true) ∧ c.Ordered ∧
        ∀ x, seg = some x → p.points.count (fun i q => decide (i < id) && q.names x) < 4 := by
  unfold Part.pointFault
  cases body : pt.body with
  | discrete d => simp [firstFault_eq_none]
  | pressure seg c st =>
    simp only [firstFault_eq_none, List.forall_mem_cons, List.not_mem_nil, false_implies, implies_true, and_true,
      Bool.or_eq_false_iff, Bool.not_eq_false', Option.any_eq_false, PointBody.pressure.injEq, bne_eq_false_iff_eq,
      decide_eq_false_iff_not, Nat.not_le, ordered_iff]
    constructor
    · rintro ⟨⟨⟨os, district⟩, segment⟩, station, few, settings⟩
      refine ⟨os, district, ?_⟩
      rintro _ _ _ ⟨rfl, rfl, rfl⟩
      exact ⟨(osKind_eq os).mp station, fun x hx => by simpa using segment x hx, settings,
        fun x hx => by simpa using few x hx⟩
    · rintro ⟨os, district, rest⟩
      obtain ⟨station, segment, settings, few⟩ := rest seg c st ⟨rfl, rfl, rfl⟩
      exact ⟨⟨⟨os, district⟩, fun x hx => by simpa using segment x hx⟩, (osKind_eq os).mpr station,
        fun x hx => by simpa using few x hx, settings⟩

/-- The tests of a segment (R69). -/
theorem segmentFault_eq_none {id : Nat} {s : Segment} : p.segmentFault id s = none ↔
    p.districts.has s.district = true ∧
      ∀ v ∈ s.valves, ∃ valve, p.valves.get? v = some valve ∧ (valve.endA = id ∨ valve.endB = id) := by
  simp only [Part.segmentFault, firstFault_eq_none, List.forall_mem_cons, List.not_mem_nil, false_implies, implies_true,
    and_true, Bool.or_eq_false_iff, Bool.not_eq_false', List.any_eq_false, Bool.not_eq_true', Bool.not_eq_false]
  constructor
  · rintro ⟨⟨district, defined⟩, ends⟩
    refine ⟨district, fun v hv => ?_⟩
    obtain ⟨valve, hvalve⟩ := has_iff.mp (defined v hv)
    have at_ := ends v hv
    rw [hvalve] at at_
    refine ⟨valve, hvalve, ?_⟩
    simp only [Bool.and_eq_true, bne_iff_ne, ne_eq, not_and, not_not] at at_
    by_cases h : valve.endA = id
    · exact .inl h
    · exact .inr (at_ h)
  · rintro ⟨district, listed⟩
    refine ⟨⟨district, fun v hv => ?_⟩, fun v hv => ?_⟩
    · obtain ⟨valve, hvalve, _⟩ := listed v hv
      exact has_iff.mpr ⟨valve, hvalve⟩
    · obtain ⟨valve, hvalve, ends⟩ := listed v hv
      rw [hvalve]
      rcases ends with h | h <;> simp [h]

theorem mem_valveList {v x : Nat} : v ∈ p.valveList x ↔ ∃ s, p.segments.get? x = some s ∧ v ∈ s.valves := by
  cases h : p.segments.get? x <;> simp [Part.valveList, h]

/-- Two valves share a slot of an outstation (R69). -/
def sharesSlot (a b : Valve) : Bool := a.actuated && b.actuated && (a.outstation = b.outstation && a.slot = b.slot)

theorem sharesSlot_comm (a b : Valve) : sharesSlot a b = sharesSlot b a := by
  unfold sharesSlot
  rw [Bool.and_comm a.actuated, decide_eq_decide.mpr (eq_comm (a := a.outstation)), decide_eq_decide.mpr (eq_comm (a := a.slot))]

/-- The tests of a valve (R69). -/
theorem valveFault_eq_none {id : Nat} {v : Valve} : p.valveFault id v = none ↔
    (∃ a b, p.segments.get? v.endA = some a ∧ p.segments.get? v.endB = some b ∧ id ∈ a.valves ∧ id ∈ b.valves) ∧
      (v.actuated = true → ∃ o, p.outstations.get? v.outstation = some o ∧ o.kind = .actuator) ∧
      (p.valves.any fun i w => decide (i < id) && sharesSlot w v) = false := by
  have shares : (v.actuated && p.valves.any fun i w => decide (i < id) && w.actuated && w.outstation = v.outstation &&
      w.slot = v.slot) = p.valves.any fun i w => decide (i < id) && sharesSlot w v := by
    rw [Bool.eq_iff_iff]
    simp only [Table.any, Bool.and_eq_true, List.any_eq_true, sharesSlot, decide_eq_true_eq]
    exact ⟨fun ⟨a, e, he, ⟨⟨lt, b⟩, os⟩, slot⟩ => ⟨e, he, lt, ⟨b, a⟩, os, slot⟩,
      fun ⟨e, he, lt, ⟨b, a⟩, os, slot⟩ => ⟨a, e, he, ⟨⟨lt, b⟩, os⟩, slot⟩⟩
  simp only [Part.valveFault, firstFault_eq_none, List.forall_mem_cons, List.not_mem_nil, false_implies, implies_true,
    and_true, shares, Bool.or_eq_false_iff, Bool.not_eq_false', List.contains_iff_mem, Bool.and_eq_false_imp,
    bne_eq_false_iff_eq]
  constructor
  · rintro ⟨⟨⟨_, _⟩, os⟩, kind, ⟨inA, inB⟩, slot⟩
    obtain ⟨a, ha, ma⟩ := mem_valveList.mp inA
    obtain ⟨b, hb, mb⟩ := mem_valveList.mp inB
    exact ⟨⟨a, b, ha, hb, ma, mb⟩, fun act => (osKind_eq (os act)).mp (kind act), slot⟩
  · rintro ⟨⟨a, b, ha, hb, ma, mb⟩, kind, slot⟩
    have os (act : v.actuated = true) : p.outstations.has v.outstation = true :=
      have ⟨o, ho, _⟩ := kind act
      has_iff.mpr ⟨o, ho⟩
    exact ⟨⟨⟨has_iff.mpr ⟨a, ha⟩, has_iff.mpr ⟨b, hb⟩⟩, os⟩, fun act => (osKind_eq (os act)).mpr (kind act),
      ⟨mem_valveList.mpr ⟨a, ha, ma⟩, mem_valveList.mpr ⟨b, hb, mb⟩⟩, slot⟩

/-- The tests of a feed (R69). -/
theorem feedFault_eq_none {id : Nat} {f : Feed} : p.feedFault id f = none ↔
    p.segments.has f.segment = true ∧
      (∀ pt, f.outlet = some pt → ∃ q seg c st, p.points.get? pt = some q ∧ q.body = .pressure seg c st) ∧
      p.feeds.count (fun i g => decide (i < id) && decide (g.segment = f.segment)) < 4 := by
  simp only [Part.feedFault, firstFault_eq_none, List.forall_mem_cons, List.not_mem_nil, false_implies, implies_true,
    and_true, Bool.or_eq_false_iff, Bool.not_eq_false', Option.any_eq_false, decide_eq_false_iff_not, Nat.not_lt]
  constructor
  · rintro ⟨⟨segment, defined⟩, kind, few⟩
    refine ⟨segment, fun pt hpt => ?_, by omega⟩
    obtain ⟨q, hq⟩ := has_iff.mp (by simpa using defined pt hpt)
    have band := kind pt hpt
    cases body : q.body with
    | discrete d => simp [hq, Point.band?, body] at band
    | pressure seg c st => exact ⟨q, seg, c, st, hq, body⟩
  · rintro ⟨segment, outlet, few⟩
    refine ⟨⟨segment, fun pt hpt => ?_⟩, fun pt hpt => ?_, by omega⟩
    · obtain ⟨q, _, _, _, hq, _⟩ := outlet pt hpt
      simpa using has_iff.mpr ⟨q, hq⟩
    · obtain ⟨q, seg, c, st, hq, body⟩ := outlet pt hpt
      simp [hq, Point.band?, body]

theorem districtFault_eq_none {id : Nat} {d : District} : p.districtFault id d = none ↔
    (p.districts.any fun i e => decide (i < id) && decide (e.lamp = d.lamp)) = false := by
  simp [Part.districtFault, firstFault_eq_none]

theorem crewFault_eq_none {id : Nat} {c : Crew} : p.crewFault id c = none ↔ p.districts.has c.home = true := by
  simp [Part.crewFault, firstFault_eq_none]

theorem names_iff {pt : Point} {x : Nat} : pt.names x = true ↔ ∃ c st, pt.body = .pressure (some x) c st := by
  unfold Point.names
  cases pt.body <;> simp

/-- The validation finds nothing just when no table has a failing item (R69). -/
theorem loadFault_eq_none : p.loadFault = none ↔
    firstFailing p.pointFault p.points.entries = none ∧ firstFailing p.segmentFault p.segments.entries = none ∧
    firstFailing p.valveFault p.valves.entries = none ∧ firstFailing p.feedFault p.feeds.entries = none ∧
    firstFailing p.districtFault p.districts.entries = none ∧
    firstFailing p.crewFault p.dispatch.crews.entries = none := by
  unfold Part.loadFault
  cases firstFailing p.pointFault p.points.entries <;> cases firstFailing p.segmentFault p.segments.entries <;>
    cases firstFailing p.valveFault p.valves.entries <;> cases firstFailing p.feedFault p.feeds.entries <;>
    cases firstFailing p.districtFault p.districts.entries <;> simp

/-- The validation of END_LOAD finds nothing just when the description is as R44 and R69 ask. -/
theorem loadFault_eq_none_iff_described (tables : p.tablesOk) : p.loadFault = none ↔ p.Described := by
  obtain ⟨_, points, segments, valves, feeds, districts, _, _, _, crews, _, _⟩ := tables
  rw [loadFault_eq_none, firstFailing_table points, firstFailing_table segments, firstFailing_table valves,
    firstFailing_table feeds, firstFailing_table districts, firstFailing_table crews]
  simp only [pointFault_eq_none, segmentFault_eq_none, valveFault_eq_none, feedFault_eq_none, districtFault_eq_none,
    crewFault_eq_none]
  have slots := apart_iff valves sharesSlot_comm
  have lamps := apart_iff districts (same := fun a b => decide (a.lamp = b.lamp)) fun a b => by simp [eq_comm]
  constructor
  · rintro ⟨points_ok, segments_ok, valves_ok, feeds_ok, districts_ok, crews_ok⟩
    refine ⟨fun id pt hpt => ?_, fun x => ?_, segments_ok, fun v valve hv => ?_, fun v w a b hv hw av aw os slot => ?_,
      fun f fd hf => ?_, fun x => ?_, fun d e a b hd he same => ?_, crews_ok⟩
    · obtain ⟨os, district, rest⟩ := points_ok id pt hpt
      refine ⟨os, district, fun seg c st body => ?_⟩
      obtain ⟨station, segment, settings, _⟩ := rest seg c st body
      exact ⟨station, segment, settings⟩
    · refine (count_le_iff points _ 4).mpr fun id pt hpt named => ?_
      obtain ⟨c, st, body⟩ := names_iff.mp named
      obtain ⟨_, _, _, few⟩ := (points_ok id pt hpt).2.2 _ c st body
      exact few x rfl
    · obtain ⟨ends, kind, _⟩ := valves_ok v valve hv
      exact ⟨ends, kind⟩
    · exact slots.mp (fun id x hx => (valves_ok id x hx).2.2) v w a b hv hw (by simp [sharesSlot, av, aw, os, slot])
    · obtain ⟨segment, outlet, _⟩ := feeds_ok f fd hf
      exact ⟨segment, outlet⟩
    · refine (count_le_iff feeds _ 4).mpr fun id fd hf named => ?_
      rw [← of_decide_eq_true named]
      exact (feeds_ok id fd hf).2.2
    · exact lamps.mp districts_ok d e a b hd he (decide_eq_true same)
  · intro ok
    refine ⟨fun id pt hpt => ?_, ok.segments, fun v valve hv => ?_, fun f fd hf => ?_, ?_, ok.homes⟩
    · obtain ⟨os, district, rest⟩ := ok.points id pt hpt
      refine ⟨os, district, fun seg c st body => ?_⟩
      obtain ⟨station, segment, settings⟩ := rest seg c st body
      refine ⟨station, segment, settings, ?_⟩
      rintro x rfl
      exact (count_le_iff points _ 4).mp (ok.watched x) id pt hpt (names_iff.mpr ⟨c, st, body⟩)
    · obtain ⟨ends, kind⟩ := ok.valves v valve hv
      refine ⟨ends, kind, slots.mpr (fun i j a b hi hj shared => ?_) v valve hv⟩
      simp only [sharesSlot, Bool.and_eq_true, decide_eq_true_eq] at shared
      obtain ⟨⟨ai, aj⟩, os, slot⟩ := shared
      exact ok.slots i j a b hi hj ai aj os slot
    · obtain ⟨segment, outlet⟩ := ok.feeds f fd hf
      exact ⟨segment, outlet, (count_le_iff feeds _ 4).mp (ok.fed fd.segment) f fd hf (decide_eq_true rfl)⟩
    · exact lamps.mpr fun i j a b hi hj same => ok.lamps i j a b hi hj (of_decide_eq_true same)

end

end Sys2Proof.Proofs
end


section
/-!
The poll cycle of a field line (02, sections 2.4 and 2.5): the turn that comes next, the end of the polls, the start of a
cycle, and the line's next transaction.
-/

namespace Sys2Proof.Proofs

open Sys2Proof Sys2Proof.Machine

section
variable {p : Part} {n : Nat}

/-! ## One line changed -/

theorem onLine_onLine (n : Nat) (f g : Line → Line) (p : Part) : (p.onLine n f).onLine n g = p.onLine n fun l => g (f l) := by
  match n with
  | 0 | 1 | 2 | _ + 3 => rfl

theorem onLine_eq_const (n : Nat) (f : Line → Line) (p : Part) : p.onLine n f = p.onLine n fun _ => f (p.line n) := rfl

/-- A line put back as it is. -/
theorem onLine_id (n : Nat) (p : Part) : (p.onLine n fun l => l) = p := by
  match n with
  | 0 | 1 | 2 | _ + 3 => rfl

/-- A line written, and written again. -/
@[simp] theorem onLine_const_const (n : Nat) (l : Line) (f : Line → Line) (p : Part) :
    (p.onLine n fun _ => l).onLine n f = p.onLine n fun _ => f l := onLine_onLine n _ f p

/-! ## The next turn (R28, R29) -/

/-- The outstations whose turn is to come on a line that stands so. -/
theorem nextTurn_onLine (l : Line) : nextTurn n (p.onLine n fun _ => l) =
    (p.outstations.idsWhere fun id o =>
      lineOf id = n && decide (l.nextDrop ≤ dropOf id) && o.polledIn l.cycle).head? := by
  simp only [nextTurn, Laws.line_onLine_same]
  rfl

/-- The next turn looks at the outstations, and at the cycle and the place of the line in it. -/
theorem nextTurn_congr {q : Part} (os : q.outstations = p.outstations) (drop : (q.line n).nextDrop = (p.line n).nextDrop)
    (cycle : (q.line n).cycle = (p.line n).cycle) : nextTurn n q = nextTurn n p := by
  simp only [nextTurn, os, drop, cycle]

/-- With no turn to come, no outstation from the place on is polled in the cycle. -/
theorem nextTurn_none (h : nextTurn n p = none) {os : Nat} {o : Outstation} (ho : p.outstations.get? os = some o)
    (line : os / 16 = n) (place : (p.line n).nextDrop ≤ os % 16 + 1) : o.polledIn (p.line n).cycle = false := by
  unfold nextTurn at h
  rw [List.head?_eq_none_iff] at h
  by_contra polled
  have : os ∈ p.outstations.idsWhere fun id o =>
      lineOf id = n && decide ((p.line n).nextDrop ≤ dropOf id) && o.polledIn (p.line n).cycle := by
    refine List.mem_map.mpr ⟨(os, o), List.mem_filter.mpr ⟨Laws.mem_of_get? _ _ _ ho, ?_⟩, rfl⟩
    simp only [Bool.and_eq_true, decide_eq_true_eq]
    exact ⟨⟨line, place⟩, by simpa using polled⟩
  rw [h] at this
  cases this

/-- The first of the ids that pass a test, in a table whose ids rise. -/
theorem head?_idsWhere {α : Type} {t : Table α} {room k : Nat} {f : Nat → α → Bool} (w : t.wf room = true)
    (h : (t.idsWhere f).head? = some k) :
    (∃ x, t.get? k = some x ∧ f k x = true) ∧ ∀ j y, t.get? j = some y → f j y = true → k ≤ j := by
  obtain ⟨rest, ids⟩ : ∃ rest, t.idsWhere f = k :: rest := List.head?_eq_some_iff.mp h
  refine ⟨(mem_idsWhere w).mp (ids ▸ List.mem_cons_self), fun j y hy pass => ?_⟩
  have listed : j ∈ t.idsWhere f := (mem_idsWhere w).mpr ⟨y, hy, pass⟩
  have rise : (t.idsWhere f).Pairwise (· < ·) := ((Laws.wf_iff t room).mp w).1.sublist (List.filter_sublist.map _)
  rw [ids] at listed rise
  rcases List.mem_cons.mp listed with rfl | later
  · exact Nat.le_refl _
  · exact (List.rel_of_pairwise_cons rise later).le

/-- The turn that comes next is that of the lowest outstation that the cycle polls from the place on. -/
theorem nextTurn_some (w : p.outstations.wf 64 = true) {os : Nat} (h : nextTurn n p = some os) :
    (∃ o, p.outstations.get? os = some o ∧ o.polledIn (p.line n).cycle = true) ∧ os / 16 = n ∧
      (p.line n).nextDrop ≤ os % 16 + 1 ∧
      ∀ os' o', p.outstations.get? os' = some o' → os' / 16 = n → (p.line n).nextDrop ≤ os' % 16 + 1 →
        o'.polledIn (p.line n).cycle = true → os ≤ os' := by
  obtain ⟨⟨o, ho, pass⟩, least⟩ := head?_idsWhere w h
  simp only [Bool.and_eq_true, decide_eq_true_eq] at pass least
  obtain ⟨⟨line, place⟩, polled⟩ := pass
  exact ⟨⟨o, ho, polled⟩, line, place, fun os' o' ho' line' place' polled' =>
    least os' o' ho' ⟨⟨line', place'⟩, polled'⟩⟩

theorem polledIn_iff (o : Outstation) (cycle : Nat) : o.polledIn cycle = true ↔
    o.comm = .unknown ∨ o.comm = .online ∨ o.comm = .suspect ∨ (o.comm = .offline ∧ cycle = 0) := by
  unfold Outstation.polledIn
  cases o.comm <;> simp

/-! ## The cycle (R28) -/

/-- A line as a cycle opens on it. -/
def openedLine (number clock : Nat) (l : Line) : Line :=
  { l with cond := .cycling, cycle := number, cycleStart := clock, cyclePeriod := l.period, nextDrop := 1 }

/-- A line with the POLL of an outstation being sent. -/
def pollingLine (os : Nat) (l : Line) : Line :=
  { l with
    run := 0, nextDrop := os % 16 + 2
    phase := .sending
      { outstation := os, isCommand := false, bit := false, frame := fieldFrame (byte (os % 16 + 1)) 0x01 []
        rate := l.rate, window := l.window } }

/-- A line with its head command being sent. -/
def commandingLine (c : Command) (rest : List Command) (bit : Bool) (l : Line) : Line :=
  { l with
    queue := { c with bit := some bit } :: rest, run := l.run + 1
    phase := .sending
      { outstation := c.outstation, isCommand := true, bit := bit
        frame := fieldFrame (byte (c.outstation % 16 + 1)) 0x02 [byte c.slot, byte c.action.code, flag bit]
        rate := l.rate, window := l.window } }

theorem sendPoll_eq (n os : Nat) (p : Part) : sendPoll n os p = p.onLine n fun _ => pollingLine os (p.line n) := rfl

/-- A command at its first sending takes the opposite of its outstation's sequence bit, which is recorded (R27). -/
theorem sendCommand_first {c : Command} {rest : List Command} {o : Outstation} (queue : (p.line n).queue = c :: rest)
    (first : c.bit = none) (ho : p.outstations.get? c.outstation = some o) : sendCommand n p =
      { p.onLine n fun _ => commandingLine c rest (!o.seqBit) (p.line n) with
        outstations := p.outstations.set c.outstation { o with seqBit := !o.seqBit } } := by
  simp only [sendCommand, queue, ho, first]
  simp only [Option.map_some, Option.getD_some, Option.getD_none, Option.isNone_none, if_true, Part.onOutstation,
    Table.modify, ho]
  rfl

/-- A command that has been sent before keeps its sequence bit (R27). -/
theorem sendCommand_again {c : Command} {rest : List Command} {bit : Bool} (queue : (p.line n).queue = c :: rest)
    (sent : c.bit = some bit) : sendCommand n p = p.onLine n fun _ => commandingLine c rest bit (p.line n) := by
  simp only [sendCommand, queue, sent]
  rfl

/-- A cycle that starts on a line: CYCLING, or WAITING when it passes over every outstation (R28). -/
theorem startCycle_eq (n number : Nat) (p : Part) : startCycle n number p = p.onLine n fun _ =>
    if nextTurn n (p.onLine n fun _ => openedLine number p.clock (p.line n)) = none
      then { openedLine number p.clock (p.line n) with cond := .waiting } else openedLine number p.clock (p.line n) := by
  unfold startCycle
  dsimp only
  rw [show openCycle n number p = p.onLine n fun _ => openedLine number p.clock (p.line n) from rfl]
  cases nextTurn n (p.onLine n fun _ => openedLine number p.clock (p.line n)) with
  | none => simp [waitForPeriod]
  | some os => simp

theorem periodOver_iff : p.periodOver n = true ↔ (p.line n).cycleStart + (p.line n).cyclePeriod * 96000 ≤ p.clock := by
  rw [Part.periodOver, decide_eq_true_eq]; rfl

/-- The end of the polls (R28). -/
theorem pollsEnd_eq (n : Nat) (p : Part) : pollsEnd n p =
    if (p.line n).cond = .cycling ∧ nextTurn n p = none then
      if p.periodOver n = true then startCycle n (((p.line n).cycle + 1) % 8) p
      else p.onLine n fun _ => { p.line n with cond := .waiting }
    else p := by
  simp only [pollsEnd, Bool.and_eq_true, decide_eq_true_eq, Option.isNone_iff_eq_none]
  rfl

theorem commandDue_iff {l : Line} : l.commandDue = true ↔ l.queue ≠ [] ∧ l.run < 4 := by
  rw [Line.commandDue, Bool.and_eq_true, decide_eq_true_eq]; simp [maxRun]

/-! ## The next transaction (R30) -/

theorem takeTurn_command (working : (p.line n).cond = .cycling ∨ (p.line n).cond = .waiting)
    (due : (p.line n).commandDue = true) : takeTurn n p = sendCommand n p := by
  rcases working with h | h <;> simp [takeTurn, h, due]

theorem takeTurn_poll {os : Nat} (cycling : (p.line n).cond = .cycling) (none_ : (p.line n).commandDue = false)
    (turn : nextTurn n p = some os) : takeTurn n p = p.onLine n fun _ => pollingLine os (p.line n) := by
  simp [takeTurn, cycling, none_, turn, sendPoll_eq]

theorem takeTurn_rest (waiting : (p.line n).cond = .waiting) (none_ : (p.line n).commandDue = false) :
    takeTurn n p = p.onLine n fun _ => { p.line n with phase := .idle } := by
  have rests : takeTurn n p = restLine n p := by
    simp only [takeTurn, waiting, none_]
    rfl
  rw [rests]
  rfl

theorem chooseTransaction_command (working : (p.line n).cond = .cycling ∨ (p.line n).cond = .waiting)
    (due : (p.line n).commandDue = true) : chooseTransaction n p = sendCommand n p := by
  rw [chooseTransaction, if_pos due, takeTurn_command working due]

theorem chooseTransaction_of_none (none_ : (p.line n).commandDue = false) :
    chooseTransaction n p = takeTurn n (pollsEnd n p) := by
  simp [chooseTransaction, none_]

theorem quietEnds_of_quiet {since rate : Nat} (quiet : (p.line n).phase = .quiet since rate) : quietEnds n p =
    if since + 2 * charTicks rate ≤ p.clock then chooseTransaction n p else p := by
  simp [quietEnds, Part.quietOver, quiet]

theorem exec_quietTimeEnd {s : State} (hn : n < 4) :
    exec (.quietTimeEnd n) s = .next (s.withPart (dispatchDecide (quietEnds n s.part))) := by
  show onPart (lineEvent n (quietEnds n)) s = _
  simp [onPart, lineEvent, hn, State.withPart]

/-- A cycle that polls some outstation starts with its POLL, when no command is due. -/
theorem startCycle_poll {os number : Nat} (none_ : (p.line n).commandDue = false)
    (turn : nextTurn n (p.onLine n fun _ => openedLine number p.clock (p.line n)) = some os) :
    takeTurn n (startCycle n number p) = p.onLine n fun _ => pollingLine os (openedLine number p.clock (p.line n)) := by
  rw [startCycle_eq, turn, if_neg (by simp)]
  have idle : ((p.onLine n fun _ => openedLine number p.clock (p.line n)).line n).commandDue = false := by
    rw [Laws.line_onLine_same]; exact none_
  rw [takeTurn_poll (by rw [Laws.line_onLine_same]; rfl) idle turn, onLine_const_const, Laws.line_onLine_same]

/-- A cycle that passes over every outstation leaves the line WAITING. -/
theorem startCycle_wait {number : Nat}
    (turn : nextTurn n (p.onLine n fun _ => openedLine number p.clock (p.line n)) = none) :
    startCycle n number p = p.onLine n fun _ => { openedLine number p.clock (p.line n) with cond := .waiting } := by
  rw [startCycle_eq, if_pos turn]

/-- A cycle that polls some outstation runs. -/
theorem startCycle_runs {number : Nat}
    (turn : nextTurn n (p.onLine n fun _ => openedLine number p.clock (p.line n)) ≠ none) :
    startCycle n number p = p.onLine n fun _ => openedLine number p.clock (p.line n) := by
  rw [startCycle_eq, if_neg turn]

theorem takeTurn_wait {l : Line} (waiting : l.cond = .waiting) (none_ : l.commandDue = false) :
    takeTurn n (p.onLine n fun _ => l) = p.onLine n fun _ => { l with phase := .idle } := by
  rw [takeTurn_rest (by rw [Laws.line_onLine_same]; exact waiting) (by rw [Laws.line_onLine_same]; exact none_),
    onLine_const_const, Laws.line_onLine_same]

/-- The quiet time of a CYCLING line ends with no command due and no turn to come (R28, R30). -/
theorem chooseTransaction_pollsEnd (cycling : (p.line n).cond = .cycling) (none_ : (p.line n).commandDue = false)
    (turn : nextTurn n p = none) :
    let next := openedLine (((p.line n).cycle + 1) % 8) p.clock (p.line n)
    (p.periodOver n = false →
      chooseTransaction n p = p.onLine n fun _ => { p.line n with cond := .waiting, phase := .idle }) ∧
    (p.periodOver n = true →
      (∀ os, nextTurn n (p.onLine n fun _ => next) = some os →
        chooseTransaction n p = p.onLine n fun _ => pollingLine os next) ∧
      (nextTurn n (p.onLine n fun _ => next) = none →
        chooseTransaction n p = p.onLine n fun _ => { next with cond := .waiting, phase := .idle })) := by
  rw [chooseTransaction_of_none none_, pollsEnd_eq, if_pos ⟨cycling, turn⟩]
  refine ⟨fun early => ?_, fun late => ⟨fun os next => ?_, fun next => ?_⟩⟩
  · rw [if_neg (by simp [early])]
    exact takeTurn_wait rfl none_
  · rw [if_pos late]
    exact startCycle_poll none_ next
  · rw [if_pos late, startCycle_wait next]
    exact takeTurn_wait rfl none_

end

/-- Settles O26: the choice of R30 by what is due, the polls' end, and the next turn. -/
theorem quietTimeEndChoosesTheNextTransaction : Obligations.QuietTimeEndChoosesTheNextTransaction := by
  intro n s hn p l next poll at_ quiet
  refine ⟨fun since rate phase => ?_, commandDue_iff, periodOver_iff, ?_, fun none_ os o => nextTurn_none none_,
    fun w os => nextTurn_some w, polledIn_iff⟩
  · have ends := exec_quietTimeEnd (s := s) hn
    rw [quietEnds_of_quiet phase] at ends
    refine ⟨fun early => ?_, fun late => ?_⟩
    · rwa [if_neg (by exact Nat.not_le.mpr early)] at ends
    rw [if_pos late] at ends
    have chosen {q : Part} (h : chooseTransaction n p = q) : quiet q := by rw [← h]; exact ends
    refine ⟨fun c rest bit working queue run => ?_, fun os cycling none_ turn => chosen ?_, fun cycling none_ turn => ?_,
      fun waiting none_ => chosen ?_⟩
    · have due : l.commandDue = true := commandDue_iff.mpr ⟨by simp [queue], run⟩
      have sends := chooseTransaction_command working due
      refine ⟨fun o first ho bit_eq => chosen ?_, fun sent => chosen ?_⟩
      · subst bit_eq
        exact sends.trans (sendCommand_first queue first ho)
      · exact sends.trans (sendCommand_again queue sent)
    · rw [chooseTransaction_of_none none_, pollsEnd_eq, if_neg (by simp [p, turn])]
      exact takeTurn_poll cycling none_ turn
    · obtain ⟨early, late⟩ := chooseTransaction_pollsEnd cycling none_ turn
      exact ⟨fun h => chosen (early h), fun h => ⟨fun os t => chosen ((late h).1 os t), fun t => chosen ((late h).2 t)⟩⟩
    · rw [chooseTransaction_of_none none_, pollsEnd_eq, if_neg (by simp [p, show (s.part.line n).cond = _ from waiting])]
      exact takeTurn_rest waiting none_
  · rw [pollsEnd_eq]
    by_cases ended : (p.line n).cond = .cycling ∧ nextTurn n p = none
    · rw [if_pos ended, if_pos ended]
      by_cases late : p.periodOver n = true
      · rw [if_pos late, if_pos (periodOver_iff.mp late), startCycle_eq]
        rfl
      · rw [if_neg late, if_neg fun h => late (periodOver_iff.mpr h)]
    · rw [if_neg ended, if_neg ended]

/-! ## The end of the cycle period (R28) -/

theorem exec_cyclePeriodExpiry {n : Nat} {s : State} (hn : n < 4) :
    exec (.cyclePeriodExpiry n) s = .next (s.withPart (dispatchDecide (periodEnds n s.part))) := by
  show onPart (lineEvent n (periodEnds n)) s = _
  simp [onPart, lineEvent, hn, State.withPart]

/-- Settles O27: the next cycle by what the line has under way. -/
theorem cyclePeriodExpiryStartsTheNextCycle : Obligations.CyclePeriodExpiryStartsTheNextCycle := by
  intro n s hn p l next poll at_ expiry
  have happens {q : Part} (h : periodEnds n p = q) : expiry q := by rw [← h]; exact exec_cyclePeriodExpiry hn
  refine ⟨fun undue => happens ?_, fun waiting late => ?_⟩
  · have still : ((p.line n).cond = .waiting && p.periodOver n) = false := by
      rw [Bool.and_eq_false_iff, decide_eq_false_iff_not, ← Bool.not_eq_true, periodOver_iff]
      exact undue.imp id Nat.not_le.mpr
    simp [periodEnds, still]
  · have due : ((p.line n).cond = .waiting && p.periodOver n) = true := by
      rw [Bool.and_eq_true, decide_eq_true_eq, periodOver_iff]
      exact ⟨waiting, late⟩
    refine ⟨fun busy => ?_, fun idle none_ => ?_⟩
    · have starts : periodEnds n p = startCycle n (((p.line n).cycle + 1) % 8) p := by
        simp [periodEnds, due, show (p.line n).phase ≠ .idle from busy]
      exact ⟨fun turn => happens (starts.trans (startCycle_runs turn)),
        fun turn => happens (starts.trans (startCycle_wait turn))⟩
    · have starts : periodEnds n p = takeTurn n (startCycle n (((p.line n).cycle + 1) % 8) p) := by
        simp [periodEnds, due, show (p.line n).phase = .idle from idle]
      refine ⟨fun os turn => happens (starts.trans (startCycle_poll none_ turn)), fun turn => happens (starts.trans ?_)⟩
      have rests := takeTurn_wait (p := p) (n := n) (l := { next with cond := .waiting }) rfl none_
      refine (congrArg (takeTurn n) (startCycle_wait turn)).trans (rests.trans ?_)
      exact congrArg (fun ph => p.onLine n fun _ => { next with cond := .waiting, phase := ph }) idle.symm

end Sys2Proof.Proofs
end


section
/-!
The start of the lines (R22, R41), and END_LOAD, which starts all four (R70).
-/

namespace Sys2Proof.Proofs

open Sys2Proof Sys2Proof.Machine

/-- What a line's own doings leave: the other lines, the clock, and the communication state of every outstation. -/
structure LineOnly (n : Nat) (p q : Part) : Prop where
  other : ∀ m, m < 4 → n < 4 → m ≠ n → q.line m = p.line m
  comm : ∀ i, (q.outstations.get? i).map (·.comm) = (p.outstations.get? i).map (·.comm)
  wf : p.outstations.wf 64 = true → q.outstations.wf 64 = true
  clock : q.clock = p.clock

section
variable {n : Nat} {p q r : Part}

theorem LineOnly.refl (n : Nat) (p : Part) : LineOnly n p p := ⟨fun _ _ _ _ => rfl, fun _ => rfl, fun h => h, rfl⟩

theorem LineOnly.trans (h : LineOnly n p q) (k : LineOnly n q r) : LineOnly n p r :=
  ⟨fun m hm hn ne => (k.other m hm hn ne).trans (h.other m hm hn ne), fun i => (k.comm i).trans (h.comm i),
    fun w => k.wf (h.wf w), k.clock.trans h.clock⟩

theorem lineOnly_onLine (n : Nat) (f : Line → Line) (p : Part) : LineOnly n p (p.onLine n f) :=
  ⟨fun m _ _ ne => Laws.line_onLine_other p m n f (by omega), fun _ => rfl, fun h => h, rfl⟩

theorem lineOnly_onOutstation {os : Nat} {f : Outstation → Outstation} (hf : ∀ o, (f o).comm = o.comm) (p : Part) :
    LineOnly n p (p.onOutstation os f) := by
  refine ⟨fun _ _ _ _ => rfl, fun i => ?_, fun h => Laws.wf_modify _ _ _ _ h, rfl⟩
  by_cases h : i = os
  · subst h
    simp only [Part.onOutstation, Laws.get?_modify_same, Option.map_map, Function.comp_def, hf]
  · simp only [Part.onOutstation, Laws.get?_modify_other _ _ _ _ h]

theorem lineOnly_sendCommand (n : Nat) (p : Part) : LineOnly n p (sendCommand n p) := by
  unfold sendCommand
  split
  · exact .refl n p
  · dsimp only
    refine LineOnly.trans ?_ (lineOnly_onLine n _ _)
    split
    · apply lineOnly_onOutstation
      intro _
      rfl
    · exact .refl n p

theorem lineOnly_takeTurn (n : Nat) (p : Part) : LineOnly n p (takeTurn n p) := by
  unfold takeTurn
  dsimp only
  split
  · split
    · exact lineOnly_sendCommand n p
    · split
      · exact lineOnly_onLine n _ p
      · exact lineOnly_onLine n _ p
  · split
    · exact lineOnly_sendCommand n p
    · exact lineOnly_onLine n _ p
  all_goals exact lineOnly_onLine n _ p

theorem lineOnly_startLine (n : Nat) (p : Part) : LineOnly n p (startLine n p) := by
  unfold startLine
  split
  · exact lineOnly_onLine n _ p
  · dsimp only
    have started : LineOnly n p (startCycle n 0 p) := by rw [startCycle_eq]; exact lineOnly_onLine n _ p
    split
    · exact started.trans (lineOnly_takeTurn n _)
    · exact started

/-- What a turn leaves of its own line: all but the queue, the command run, the place in the cycle and the phase. -/
theorem takeTurn_line {γ : Type} (g : Line → γ)
    (hg : ∀ (l : Line) queue run drop phase, g { l with queue := queue, run := run, nextDrop := drop, phase := phase } = g l)
    (n : Nat) (p : Part) : g ((takeTurn n p).line n) = g (p.line n) := by
  have sends : g ((sendCommand n p).line n) = g (p.line n) := by
    unfold sendCommand
    split
    · rfl
    · simp only [Laws.line_onLine_same]
      refine (hg _ _ _ _ _).trans (congrArg g ?_)
      split <;> rfl
  have polls (os : Nat) : g ((sendPoll n os p).line n) = g (p.line n) := by
    rw [sendPoll_eq, Laws.line_onLine_same]; exact hg _ _ _ _ _
  have rests : g ((restLine n p).line n) = g (p.line n) := by
    rw [restLine, Laws.line_onLine_same]; exact hg _ _ _ _ _
  unfold takeTurn
  dsimp only
  split
  · split
    · exact sends
    · split
      · exact polls _
      · exact rests
  · split
    · exact sends
    · exact rests
  all_goals exact rests

/-! ## Lines with and without outstations -/

/-- An id of a table is in use. -/
theorem get?_of_mem_ids {α : Type} {t : Table α} {k : Nat} (h : k ∈ t.ids) : ∃ x, t.get? k = some x := by
  obtain ⟨es⟩ := t
  induction es with
  | nil => cases h
  | cons e rest ih =>
    obtain ⟨i, a⟩ := e
    by_cases same : i = k
    · exact ⟨a, if_pos same⟩
    · obtain ⟨x, hx⟩ := ih (by simpa [Table.ids, Ne.symm same] using h)
      exact ⟨x, (if_neg same).trans hx⟩

theorem outstationsOf_eq_nil : p.outstationsOf n = [] ↔ ∀ os o, p.outstations.get? os = some o → os / 16 ≠ n := by
  unfold Part.outstationsOf Table.idsWhere
  rw [List.map_eq_nil_iff, List.filter_eq_nil_iff]
  constructor
  · intro none_ os o ho line
    exact none_ _ (Laws.mem_of_get? _ _ _ ho) (decide_eq_true line)
  · rintro none_ ⟨os, o⟩ he line
    obtain ⟨x, hx⟩ := get?_of_mem_ids (t := p.outstations) (List.mem_map_of_mem he)
    exact none_ os x hx (of_decide_eq_true line)

theorem outstationsOf_eq_nil_congr (h : ∀ i, (q.outstations.get? i).map (·.comm) = (p.outstations.get? i).map (·.comm)) :
    q.outstationsOf n = [] ↔ p.outstationsOf n = [] := by
  rw [outstationsOf_eq_nil, outstationsOf_eq_nil]
  have moved {a b : Part} (hab : ∀ i, (b.outstations.get? i).map (·.comm) = (a.outstations.get? i).map (·.comm))
      (none_ : ∀ os o, a.outstations.get? os = some o → os / 16 ≠ n) : ∀ os o, b.outstations.get? os = some o → os / 16 ≠ n := by
    intro os o ho
    have same := hab os
    rw [ho] at same
    obtain ⟨x, hx, _⟩ := Option.map_eq_some_iff.mp same.symm
    exact none_ os x hx
  exact ⟨moved fun i => (h i).symm, moved h⟩

/-- The turn of an outstation that the cycle polls, with none lower. -/
theorem nextTurn_of_least (w : p.outstations.wf 64 = true) {os : Nat} {o : Outstation}
    (ho : p.outstations.get? os = some o) (line : os / 16 = n) (place : (p.line n).nextDrop ≤ os % 16 + 1)
    (polled : o.polledIn (p.line n).cycle = true) (least : ∀ i x, p.outstations.get? i = some x → i / 16 = n → os ≤ i) :
    nextTurn n p = some os := by
  cases turn : nextTurn n p with
  | none => exact absurd (nextTurn_none turn ho line place) (by simp [polled])
  | some k =>
    obtain ⟨⟨x, hx, _⟩, line', _, first⟩ := nextTurn_some w turn
    exact congrArg some (Nat.le_antisymm (first os o ho line place polled) (least k x hx line'))

/-- The first outstation of a line is its lowest. -/
theorem outstationsOf_head {os : Nat} {rest : List Nat} (w : p.outstations.wf 64 = true)
    (h : p.outstationsOf n = os :: rest) : (∃ o, p.outstations.get? os = some o) ∧ os / 16 = n ∧
      ∀ i x, p.outstations.get? i = some x → i / 16 = n → os ≤ i := by
  obtain ⟨⟨o, ho, line⟩, least⟩ := head?_idsWhere w (show (p.outstationsOf n).head? = some os by rw [h]; rfl)
  exact ⟨⟨o, ho⟩, of_decide_eq_true line, fun i x hx hi => least i x hx (decide_eq_true hi)⟩

theorem polledIn_zero {o : Outstation} (h : o.comm ≠ .held) : o.polledIn 0 = true := by
  cases comm : o.comm <;> simp_all [Outstation.polledIn]

/-! ## The start of a line (R22, R41) -/

/-- The line of a start without outstations is IDLE. -/
theorem startLine_empty (none_ : p.outstationsOf n = []) : startLine n p = p.onLine n fun l => { l with cond := .idle } := by
  simp [startLine, none_]

theorem startLine_eq (some_ : p.outstationsOf n ≠ []) : startLine n p =
    if (((startCycle n 0 p).line n).phase = .idle || (startCycle n 0 p).quietOver n) = true then takeTurn n (startCycle n 0 p)
    else startCycle n 0 p := by
  simp [startLine, some_]

/-- A line that starts with outstations is CYCLING or WAITING in cycle 0 from now. -/
theorem startLine_line (some_ : p.outstationsOf n ≠ []) :
    (((startLine n p).line n).cond = .cycling ∨ ((startLine n p).line n).cond = .waiting) ∧
      ((startLine n p).line n).cycle = 0 ∧ ((startLine n p).line n).cycleStart = p.clock := by
  have started : (((startCycle n 0 p).line n).cond = .cycling ∨ ((startCycle n 0 p).line n).cond = .waiting) ∧
      ((startCycle n 0 p).line n).cycle = 0 ∧ ((startCycle n 0 p).line n).cycleStart = p.clock := by
    rw [startCycle_eq, Laws.line_onLine_same]
    split
    · exact ⟨.inr rfl, rfl, rfl⟩
    · exact ⟨.inl rfl, rfl, rfl⟩
  rw [startLine_eq some_]
  split
  · have cond := takeTurn_line (·.cond) (fun _ _ _ _ _ => rfl) n (startCycle n 0 p)
    have cycle := takeTurn_line (·.cycle) (fun _ _ _ _ _ => rfl) n (startCycle n 0 p)
    have start := takeTurn_line (·.cycleStart) (fun _ _ _ _ _ => rfl) n (startCycle n 0 p)
    rw [cond, cycle, start]
    exact started
  · exact started

/-- A line that starts with an outstation to poll is CYCLING: with its POLL being sent, when nothing is queued and the
line rests, or waiting for the end of a quiet time that runs. -/
theorem startLine_polls (some_ : p.outstationsOf n ≠ []) {os : Nat}
    (turn : nextTurn n (p.onLine n fun _ => openedLine 0 p.clock (p.line n)) = some os) :
    ((startLine n p).line n).cond = .cycling ∧
    ((p.line n).queue = [] → ((p.line n).phase = .idle ∨ p.quietOver n = true) →
      startLine n p = p.onLine n fun _ => pollingLine os (openedLine 0 p.clock (p.line n))) ∧
    ((p.line n).phase ≠ .idle → p.quietOver n = false →
      startLine n p = p.onLine n fun _ => openedLine 0 p.clock (p.line n)) := by
  have runs := startCycle_runs (p := p) (n := n) (number := 0) (by rw [turn]; simp)
  have phase : ((startCycle n 0 p).line n).phase = (p.line n).phase := by rw [runs, Laws.line_onLine_same]; rfl
  have quiet : (startCycle n 0 p).quietOver n = p.quietOver n := by
    unfold Part.quietOver
    rw [phase, runs]
    rfl
  have cond : ((startCycle n 0 p).line n).cond = .cycling := by rw [runs, Laws.line_onLine_same]; rfl
  rw [startLine_eq some_, phase, quiet]
  refine ⟨?_, fun queue rests => ?_, fun busy early => ?_⟩
  · split
    · exact (takeTurn_line (·.cond) (fun _ _ _ _ _ => rfl) n _).trans cond
    · exact cond
  · rw [if_pos (by simpa using rests)]
    exact startCycle_poll (by simp [Line.commandDue, queue]) turn
  · rw [if_neg (by simp [busy, early]), runs]

/-! ## All four lines (R70) -/

/-- A part before and after the doings of other lines than one. -/
structure Elsewhere (n : Nat) (p q : Part) : Prop where
  line : q.line n = p.line n
  comm : ∀ i, (q.outstations.get? i).map (·.comm) = (p.outstations.get? i).map (·.comm)
  wf : p.outstations.wf 64 = true → q.outstations.wf 64 = true
  clock : q.clock = p.clock

theorem elsewhere_startLines (hn : n < 4) {ms : List Nat} (h : ∀ m ∈ ms, m < 4 ∧ m ≠ n) (p : Part) :
    Elsewhere n p (ms.foldl (fun p m => startLine m p) p) := by
  induction ms generalizing p with
  | nil => exact ⟨rfl, fun _ => rfl, fun w => w, rfl⟩
  | cons m ms ih =>
    obtain ⟨low, ne⟩ := h m (by simp)
    have first := lineOnly_startLine m p
    have rest := ih (fun k hk => h k (by simp [hk])) (startLine m p)
    exact ⟨rest.line.trans (first.other n hn low ne.symm), fun i => (rest.comm i).trans (first.comm i),
      fun w => rest.wf (first.wf w), rest.clock.trans first.clock⟩

/-- Each of the four lines starts on a part in which only other lines have done anything. -/
theorem startLines_line (hn : n < 4) (p : Part) : ∃ r, Elsewhere n p r ∧
    ([0, 1, 2, 3].foldl (fun p m => startLine m p) p).line n = (startLine n r).line n := by
  obtain ⟨before, after, split, others⟩ : ∃ before after, [0, 1, 2, 3] = before ++ n :: after ∧
      ∀ m ∈ before ++ after, m < 4 ∧ m ≠ n := by
    refine ⟨List.range n, List.range' (n + 1) (3 - n), ?_⟩
    interval_cases n <;> decide
  refine ⟨before.foldl (fun p m => startLine m p) p, elsewhere_startLines hn (fun m hm => others m (by simp [hm])) p, ?_⟩
  rw [split, List.foldl_append, List.foldl_cons]
  exact (elsewhere_startLines hn (fun m hm => others m (by simp [hm])) _).line

/-- A line after the start of all four (R22). -/
theorem startLines_spec (hn : n < 4) (p : Part) {q : Part}
    (hq : q = [0, 1, 2, 3].foldl (fun p m => startLine m p) p) :
    ((q.line n).cond = .idle ↔ p.outstationsOf n = []) ∧ (q.line n).cond ≠ .stopped ∧ (q.line n).cond ≠ .held ∧
      ∀ os rest, p.outstationsOf n = os :: rest → (∀ i o, p.outstations.get? i = some o → o.comm ≠ .held) →
        p.outstations.wf 64 = true →
        (q.line n).cond = .cycling ∧ (q.line n).cycle = 0 ∧ (q.line n).cycleStart = p.clock ∧
        ((p.line n).queue = [] → (p.line n).phase = .idle → q.line n = pollingLine os (openedLine 0 p.clock (p.line n))) := by
  obtain ⟨r, elsewhere, line⟩ := startLines_line hn p
  rw [← hq] at line
  have empty : r.outstationsOf n = [] ↔ p.outstationsOf n = [] := outstationsOf_eq_nil_congr elsewhere.comm
  rw [line]
  by_cases none_ : r.outstationsOf n = []
  · rw [startLine_empty none_, Laws.line_onLine_same]
    refine ⟨⟨fun _ => empty.mp none_, fun _ => rfl⟩, by simp, by simp, fun os rest some_ => ?_⟩
    rw [empty.mp none_] at some_
    cases some_
  · obtain ⟨cond, cycle, start⟩ := startLine_line none_
    refine ⟨⟨fun idle => ?_, fun h => absurd (empty.mpr h) none_⟩, ?_, ?_, fun os rest some_ free w => ?_⟩
    · rw [idle] at cond; simp at cond
    · rcases cond with h | h <;> rw [h] <;> decide
    · rcases cond with h | h <;> rw [h] <;> decide
    · obtain ⟨⟨o, ho⟩, on, least⟩ := outstationsOf_head w some_
      have moved (i : Nat) (x : Outstation) (hx : r.outstations.get? i = some x) :
          ∃ y, p.outstations.get? i = some y ∧ y.comm = x.comm := by
        have same := elsewhere.comm i
        rw [hx] at same
        exact Option.map_eq_some_iff.mp same.symm
      obtain ⟨x, hx⟩ : ∃ x, r.outstations.get? os = some x := by
        have same := elsewhere.comm os
        rw [ho] at same
        obtain ⟨x, hx, _⟩ := Option.map_eq_some_iff.mp same
        exact ⟨x, hx⟩
      have turn : nextTurn n (r.onLine n fun _ => openedLine 0 r.clock (r.line n)) = some os := by
        refine nextTurn_of_least (p := r.onLine n fun _ => openedLine 0 r.clock (r.line n)) (elsewhere.wf w) hx on ?_ ?_
          fun i y hy hi => ?_
        · rw [Laws.line_onLine_same]; exact Nat.succ_le_succ (Nat.zero_le _)
        · rw [Laws.line_onLine_same]
          obtain ⟨y, hy, comm⟩ := moved os x hx
          exact polledIn_zero (comm ▸ free os y hy)
        · obtain ⟨z, hz, _⟩ := moved i y hy
          exact least i z hz hi
      obtain ⟨cycling, polls, _⟩ := startLine_polls none_ turn
      refine ⟨cycling, cycle, start.trans elsewhere.clock, fun queue idle => ?_⟩
      rw [polls (elsewhere.line ▸ queue) (.inl (elsewhere.line ▸ idle)), Laws.line_onLine_same, elsewhere.line,
        elsewhere.clock]

end

/-! ## END_LOAD -/

theorem endLoadRule_act_of_fault {b : List Byte} {p : Part} {code id : Nat} {why : LoadFault}
    (h : p.loadFault = some (code, id, why)) :
    endLoadRule.act b p = ⟨.refusedRange, [byte code] ++ be16 id ++ [byte why.code], p⟩ := by
  simp [endLoadRule, h, refuseWith]

theorem endLoadRule_act_of_none {b : List Byte} {p : Part} (h : p.loadFault = none) :
    endLoadRule.act b p = ⟨.ok, [], enterRunning p⟩ := by
  simp [endLoadRule, h, okWith]

/-- What the start of the lines, the raise, the lamps and the arbiter leave is as the set-up makes it. -/
theorem enterRunning_field {γ : Type} (g : Part → γ) (decides : ∀ q, g (dispatchDecide q) = g q)
    (lamps : ∀ q, g (refreshLamps q) = g q) (lines : ∀ q m, g (startLine m q) = g q) (raises : ∀ q, g (raise .load q) = g q)
    (p : Part) : g (enterRunning p) = g (setUp p) := by
  rw [enterRunning_eq, decides, lamps, Laws.foldl_keeps g _ lines, raises]

theorem dispatchDecide_partState (p : Part) : (dispatchDecide p).link.partState = p.link.partState :=
  (Laws.m_dispatchDecide p).link.partState

theorem enterRunning_lines (p : Part) (n : Nat) : (enterRunning p).line n =
    ([0, 1, 2, 3].foldl (fun p m => startLine m p) (raise .load (setUp p))).line n := by
  rw [enterRunning_eq]
  simp only [Part.line, Laws.f_dispatchDecide_lines, Laws.refreshLamps_lines]

theorem raise_pending (c : Cause) (p : Part) : (raise c p).trace.pendingCause = some (p.trace.pendingCause.getD c) := by
  unfold raise
  cases h : p.trace.pendingCause <;> simp [h]

/-- The part that has entered RUNNING (R70). -/
theorem enterRunning_spec (p : Part) : (enterRunning p).link.partState = .running ∧ (enterRunning p).clock = p.clock ∧
    (enterRunning p).points = p.points ∧ (enterRunning p).districts = p.districts ∧ (enterRunning p).plans = p.plans ∧
    (enterRunning p).register = p.register ∧ (enterRunning p).outages = p.outages ∧
    (enterRunning p).segments = (setUp p).segments ∧ (enterRunning p).feeds = (setUp p).feeds ∧
    (enterRunning p).valves = (setUp p).valves ∧
    (enterRunning p).trace.pendingCause = some (p.trace.pendingCause.getD .load) := by
  refine ⟨?_, ?_, ?_, ?_, ?_, ?_, ?_, ?_, ?_, ?_, ?_⟩
  · exact enterRunning_field (·.link.partState) dispatchDecide_partState (by simp) (by simp) (by simp) p
  · exact enterRunning_field (·.clock) (by simp) (by simp) (by simp) (by simp) p
  · exact enterRunning_field (·.points) (by simp) (by simp) (by simp) (by simp) p
  · exact enterRunning_field (·.districts) (by simp) (by simp) (by simp) (by simp) p
  · exact enterRunning_field (·.plans) (by simp) (by simp) (by simp) (by simp) p
  · exact enterRunning_field (·.register) (by simp) (by simp) (by simp) (by simp) p
  · exact enterRunning_field (·.outages) (by simp) (by simp) (by simp) (by simp) p
  · exact enterRunning_field (·.segments) (by simp) (by simp) (by simp) (by simp) p
  · exact enterRunning_field (·.feeds) (by simp) (by simp) (by simp) (by simp) p
  · exact enterRunning_field (·.valves) (by simp) (by simp) (by simp) (by simp) p
  · rw [enterRunning_eq, Laws.f_dispatchDecide_trace, Laws.refreshLamps_trace,
      Laws.foldl_keeps (·.trace) (fun p m => startLine m p) (by simp), raise_pending]
    rfl

/-- Settles O24: the validation, and the tables and lines as the part enters RUNNING. -/
theorem endLoadValidatesOrEntersRunning : Obligations.EndLoadValidatesOrEntersRunning := by
  intro tag s ready
  have answer {st : Status} {res : List Byte} {q : Part} (act : endLoadRule.act [] (s.begun 0x07 tag []) = ⟨st, res, q⟩) :
      exec (.endLoad tag []) s = .next (s.answered q st res) :=
    request_of_admitted (h := endLoadRule) rfl tag ready.1 rfl (decide_eq_true ready.2) act
  dsimp only
  generalize s.begun 0x07 tag [] = p at *
  refine ⟨fun code id why fault => answer (endLoadRule_act_of_fault fault), loadFault_eq_none_iff_described,
    fun passed => ⟨enterRunning p, answer (endLoadRule_act_of_none passed), ?_⟩⟩
  obtain ⟨running, clock, points, districts, plans, register, outages, segments, feeds, valves, pending⟩ := enterRunning_spec p
  refine ⟨running, clock, points, districts, plans, register, outages, fun id x => ?_, fun id x => ?_, fun id x => ?_,
    by rw [pending]; rfl, fun none_ => by rw [pending, none_]; rfl, fun n hn => ?_⟩
  · rw [segments]
    simp only [setUp, Laws.get?_map, Option.map_eq_some_iff, eq_comm (a := x)]
    rfl
  · rw [feeds]
    simp only [setUp, Laws.get?_map, Option.map_eq_some_iff, eq_comm (a := x)]
  · rw [valves]
    simp only [setUp, Laws.get?_map, Option.map_eq_some_iff, eq_comm (a := x)]
  · have spec := startLines_spec hn (raise .load (setUp p)) rfl
    rw [← enterRunning_lines] at spec
    have same : (raise .load (setUp p)).outstations = p.outstations ∧ (raise .load (setUp p)).clock = p.clock ∧
        (raise .load (setUp p)).lines = p.lines := ⟨by simp [setUp], by simp [setUp], by simp [setUp]⟩
    obtain ⟨os, clock', lines⟩ := same
    generalize raise .load (setUp p) = r at spec os clock' lines
    simp only [Part.outstationsOf, Part.line, os, clock', lines] at spec
    exact spec

end Sys2Proof.Proofs
end


section
/-!
Counting over a table: what a write, an erasure or a map does to a sum over its records.
-/

namespace Sys2Proof.Proofs

open Sys2Proof Sys2Proof.Machine

/-- The sum of a number over the records of a table. -/
def tally {α : Type} (t : Table α) (g : Nat → α → Nat) : Nat := (t.entries.map fun e => g e.1 e.2).sum

section
variable {α : Type} {t : Table α} {room k : Nat} {v w : α} {g : Nat → α → Nat}

theorem count_eq_tally (f : Nat → α → Bool) : t.count f = tally t fun k x => if f k x then 1 else 0 := by
  simp only [Table.count, tally]
  induction t.entries with
  | nil => rfl
  | cons e es ih => cases h : f e.1 e.2 <;> simp [h, ih]; omega

theorem sum_filter_eq_tally (f : Nat → α → Bool) (n : α → Nat) :
    (((t.entries.filter fun e => f e.1 e.2).map (·.2)).map n).sum = tally t fun k x => if f k x then n x else 0 := by
  simp only [tally]
  induction t.entries with
  | nil => rfl
  | cons e es ih => cases h : f e.1 e.2 <;> simp [h] <;> simpa using ih

theorem tally_map (f : Nat → α → α) : tally (t.map f) g = tally t fun k x => g k (f k x) := by
  simp [tally, Table.map, Function.comp_def]

/-- The entries before and after the entry of an id, and what a write and an erasure leave. -/
theorem entries_around (c : t.wf room = true) (h : t.get? k = some v) : ∃ before after,
    t.entries = before ++ (k, v) :: after ∧ (∀ x, (t.set k x).entries = before ++ (k, x) :: after) ∧
      (t.erase k).entries = before ++ after := by
  obtain ⟨es⟩ := t
  have rise := ((Laws.wf_iff _ room).mp c).1
  simp only [Table.get?, Table.set, Table.erase, Table.ids] at h rise ⊢
  clear c
  induction es with
  | nil => simp [findEntry] at h
  | cons e rest ih =>
    obtain ⟨i, a⟩ := e
    rw [List.map_cons, List.pairwise_cons] at rise
    by_cases same : i = k
    · subst same
      have other : ∀ e ∈ rest, e.1 ≠ i := fun e he => Nat.ne_of_gt (rise.1 e.1 (List.mem_map_of_mem he))
      obtain rfl : a = v := by simpa [findEntry] using h
      refine ⟨[], rest, rfl, fun x => by simp [putEntry], ?_⟩
      simpa using other
    · have later : findEntry k rest = some v := by simpa [findEntry, same] using h
      have below : i < k := rise.1 k (List.mem_map_of_mem (f := (·.1)) (Laws.mem_of_get? ⟨rest⟩ k v later))
      obtain ⟨before, after, split, written, erased⟩ := ih later rise.2
      refine ⟨(i, a) :: before, after, by rw [split]; rfl, fun x => ?_, ?_⟩
      · simp [putEntry, same, Nat.not_lt.mpr (Nat.le_of_lt below), written]
      · simp [same, erased]

theorem entries_around_new (h : t.get? k = none) (x : α) : ∃ before after,
    t.entries = before ++ after ∧ (t.set k x).entries = before ++ (k, x) :: after := by
  obtain ⟨es⟩ := t
  simp only [Table.get?, Table.set] at h ⊢
  induction es with
  | nil => exact ⟨[], [], rfl, rfl⟩
  | cons e rest ih =>
    obtain ⟨i, a⟩ := e
    have other : i ≠ k := fun same => by simp [findEntry, same] at h
    by_cases first : k < i
    · exact ⟨[], (i, a) :: rest, rfl, by simp [putEntry, first]⟩
    · obtain ⟨before, after, split, written⟩ := ih (by simpa [findEntry, other] using h)
      exact ⟨(i, a) :: before, after, by rw [split]; rfl, by simp [putEntry, first, other, written]⟩

theorem tally_set (c : t.wf room = true) (h : t.get? k = some v) (x : α) :
    tally (t.set k x) g + g k v = tally t g + g k x := by
  obtain ⟨before, after, split, written, _⟩ := entries_around c h
  simp only [tally, written, split, List.map_append, List.map_cons, List.sum_append, List.sum_cons]
  omega

theorem tally_set_new (h : t.get? k = none) (x : α) : tally (t.set k x) g = tally t g + g k x := by
  obtain ⟨before, after, split, written⟩ := entries_around_new h x
  simp only [tally, written, split, List.map_append, List.map_cons, List.sum_append, List.sum_cons]
  omega

theorem tally_erase (c : t.wf room = true) (h : t.get? k = some v) : tally (t.erase k) g + g k v = tally t g := by
  obtain ⟨before, after, split, _, erased⟩ := entries_around c h
  simp only [tally, erased, split, List.map_append, List.map_cons, List.sum_append, List.sum_cons]
  omega

theorem tally_congr (c : t.wf room = true) {g' : Nat → α → Nat} (h : ∀ k x, t.get? k = some x → g k x = g' k x) :
    tally t g = tally t g' := by
  unfold tally
  exact congrArg List.sum (List.map_congr_left fun e he => h _ _ (get?_of_mem c he))

/-- A write that leaves a number of its record leaves the sum. -/
theorem tally_set_eq (c : t.wf room = true) (h : t.get? k = some v) {x : α} (same : g k x = g k v) :
    tally (t.set k x) g = tally t g := by
  have := tally_set (g := g) c h x
  omega

/-- A modification that leaves a number of each record leaves the sum. -/
theorem tally_modify_eq (c : t.wf room = true) {f : α → α} (same : ∀ x, t.get? k = some x → g k (f x) = g k x) :
    tally (t.modify k f) g = tally t g := by
  unfold Table.modify
  split
  next => rfl
  next x hx => exact tally_set_eq c hx (same x hx)

theorem count_congr (c : t.wf room = true) {f f' : Nat → α → Bool} (h : ∀ k x, t.get? k = some x → f k x = f' k x) :
    t.count f = t.count f' := by
  rw [count_eq_tally, count_eq_tally]
  exact tally_congr c fun k x hx => by rw [h k x hx]

end

end Sys2Proof.Proofs
end


section
/-!
What the shared operations do to the records: marks, raises, and plans that look on (R79, R85, R89, R107). And the state
after reset, whose records agree.
-/

namespace Sys2Proof.Proofs

open Sys2Proof Sys2Proof.Machine

/-! ## Ids in ascending lists -/

theorem mem_insertId {k v : Nat} {l : List Nat} : v ∈ insertId k l ↔ v = k ∨ v ∈ l := by
  induction l with
  | nil => simp [insertId]
  | cons i l ih =>
    unfold insertId
    split
    · simp
    · split
      next same => simp [← same]
      next => simp only [List.mem_cons, ih]; tauto

theorem mem_foldl_insertId {v : Nat} {ks l : List Nat} :
    v ∈ ks.foldl (fun acc k => insertId k acc) l ↔ v ∈ ks ∨ v ∈ l := by
  induction ks generalizing l with
  | nil => simp
  | cons k ks ih => rw [List.foldl_cons, ih, mem_insertId, List.mem_cons]; tauto

theorem mem_sortIds {v : Nat} {ks : List Nat} : v ∈ sortIds ks ↔ v ∈ ks := by simp [sortIds, mem_foldl_insertId]

theorem set_set {α : Type} (t : Table α) (k : Nat) (v w : α) : (t.set k v).set k w = t.set k w := by
  obtain ⟨es⟩ := t
  simp only [Table.set, Table.mk.injEq]
  induction es with
  | nil => simp [putEntry]
  | cons e rest ih =>
    obtain ⟨i, a⟩ := e
    by_cases first : k < i
    · simp [putEntry, first]
    · by_cases same : i = k
      · simp [putEntry, same]
      · simp [putEntry, first, same, ih]

theorem get?_set {α : Type} (t : Table α) (j k : Nat) (v : α) :
    (t.set k v).get? j = if j = k then some v else t.get? j := by
  split
  next same => rw [same, Laws.get?_set_same]
  next other => exact Laws.get?_set_other _ _ _ _ other

theorem get?_modify {α : Type} (t : Table α) (j k : Nat) (f : α → α) :
    (t.modify k f).get? j = (t.get? j).map fun x => if j = k then f x else x := by
  by_cases same : j = k
  · simp [same, Laws.get?_modify_same]
  · simp [same, Laws.get?_modify_other _ _ _ _ same]

theorem get?_erase {α : Type} (t : Table α) (j k : Nat) : (t.erase k).get? j = if j = k then none else t.get? j := by
  split
  next same => rw [same, Laws.get?_erase_same]
  next other => exact Laws.get?_erase_other _ _ _ other

theorem modify_of_get? {α : Type} {t : Table α} {k : Nat} {v : α} (h : t.get? k = some v) (f : α → α) :
    t.modify k f = t.set k (f v) := by
  simp [Table.modify, h]

section
variable {p : Part} {id : Nat}

/-! ## Marks -/

theorem onSegment_of_get? {x : Segment} (h : p.segments.get? id = some x) (f : Segment → Segment) :
    p.onSegment id f = { p with segments := p.segments.set id (f x) } := by
  simp only [Part.onSegment, modify_of_get? h]

theorem markSegment_get? (p : Part) (id n : Nat) : (markSegment id p).segments.get? n =
    (p.segments.get? n).map fun x => { x with changed := x.changed || decide (n = id) } := by
  by_cases same : n = id
  · subst same
    unfold markSegment
    split
    next free => simp [free]
    next x hx =>
      split
      next marked => simp [hx, ← marked]
      next => dsimp only; split <;> simp [hx]
  · have kept : (markSegment id p).segments.get? n = p.segments.get? n := by
      unfold markSegment
      split
      · rfl
      · split
        · rfl
        · dsimp only; split <;> simp [Laws.get?_set_other _ _ _ _ same]
    simp [kept, same]

theorem markSegments_get? (ids : List Nat) (p : Part) (n : Nat) : (markSegments ids p).segments.get? n =
    (p.segments.get? n).map fun x => { x with changed := x.changed || decide (n ∈ ids) } := by
  have fold (ks : List Nat) : ∀ p : Part, (ks.foldl (fun p id => markSegment id p) p).segments.get? n =
      (p.segments.get? n).map fun x => { x with changed := x.changed || decide (n ∈ ks) } := by
    induction ks with
    | nil => simp
    | cons k ks ih =>
      intro p
      rw [List.foldl_cons, ih, markSegment_get?]
      cases p.segments.get? n <;> simp [Bool.or_assoc]
  rw [markSegments, fold]
  simp only [mem_sortIds]

/-! ## Plans -/

theorem setPlanState_of_get? {x : Plan} (h : p.plans.get? id = some x) (new : PlanState) (valve : Option Nat) :
    setPlanState id new valve p = place (.planState id x.state new x.target x.incident x.failure valve)
      { p with plans := p.plans.set id { x with
        state := new, stateTime := p.time, blocking := if valve.isSome then valve else x.blocking } } := by
  simp only [setPlanState, h]

theorem setPlanState_get? (id : Nat) (new : PlanState) (valve : Option Nat) (p : Part) (n : Nat) :
    (setPlanState id new valve p).plans.get? n = (p.plans.get? n).map fun x => if n = id then { x with
      state := new, stateTime := p.time, blocking := if valve.isSome then valve else x.blocking } else x := by
  cases h : p.plans.get? id with
  | none =>
    have same : setPlanState id new valve p = p := by simp only [setPlanState, h]
    rw [same]
    by_cases n_eq : n = id
    · simp [n_eq, h]
    · simp [n_eq]
  | some x =>
    rw [setPlanState_of_get? h]
    simp only [Laws.place_plans, get?_set]
    by_cases n_eq : n = id
    · simp [n_eq, h]
    · simp [n_eq]

@[simp] theorem setPlanState_time (id : Nat) (new : PlanState) (valve : Option Nat) (p : Part) :
    (setPlanState id new valve p).time = p.time := by simp [Part.time]

theorem staleAll_get? (ids : List Nat) (p : Part) (n : Nat) :
    (ids.foldl (fun p id => setPlanState id .stale none p) p).plans.get? n =
      (p.plans.get? n).map fun x => if n ∈ ids then { x with state := .stale, stateTime := p.time } else x := by
  induction ids generalizing p with
  | nil => simp
  | cons k ks ih =>
    rw [List.foldl_cons, ih, setPlanState_get?, setPlanState_time]
    cases p.plans.get? n with
    | none => rfl
    | some x => by_cases h : n ∈ ks <;> by_cases e : n = k <;> simp [h, e]

theorem uses_iff {x : Plan} {vs : List Nat} :
    vs.any x.uses = true ↔ ∃ v ∈ vs, v ∈ x.closeList ∨ v ∈ x.holdList := by
  simp [Plan.uses]

/-- The part after some valves have entered the change set of a running plan job (R89). -/
def changesEntered (vs : List Nat) (p : Part) : Part :=
  match p.trace.engine with
  | .planJob _ => { p with trace := { p.trace with changeSet := vs.foldl (fun set v => insertId v set) p.trace.changeSet } }
  | .idle | .supplyJob _ => p

theorem snoop_eq (vs : List Nat) (except : Option Nat) (p : Part) : snoop vs except p =
    ((changesEntered vs p).plans.idsWhere fun id q => q.state = .ready && vs.any q.uses && except != some id).foldl
      (fun p id => setPlanState id .stale none p) (changesEntered vs p) := rfl

theorem changesEntered_plans (vs : List Nat) (p : Part) : (changesEntered vs p).plans = p.plans := by
  unfold changesEntered
  split <;> rfl

theorem changesEntered_time (vs : List Nat) (p : Part) : (changesEntered vs p).time = p.time := by
  unfold changesEntered
  split <;> rfl

theorem changesEntered_entered (vs : List Nat) (p : Part) : Trace.Entered p.trace (changesEntered vs p).trace vs := by
  unfold changesEntered Trace.Entered
  split
  next id h => simp [h, mem_foldl_insertId, or_comm]
  next h => exact ⟨rfl, by simp [h]⟩
  next h => exact ⟨rfl, by simp [h]⟩

/-- The plans after a snoop: each READY one that uses a valve is STALE, but for the one left out (R107). -/
theorem snoop_get? (w : p.plans.wf 16 = true) (vs : List Nat) (except : Option Nat) (n : Nat) :
    (snoop vs except p).plans.get? n =
      (p.plans.get? n).map fun x => if except = some n then x else x.snooped vs p.time := by
  rw [snoop_eq, staleAll_get?, changesEntered_plans, changesEntered_time]
  cases h : p.plans.get? n with
  | none => rfl
  | some x =>
    simp only [Option.map_some, Option.some.injEq, mem_idsWhere w, h, Bool.and_eq_true, decide_eq_true_eq, uses_iff,
      bne_iff_ne, ne_eq, Plan.snooped, exists_eq_left']
    by_cases out : except = some n
    · simp [out]
    · simp [out]

theorem entered_refl (t : Trace) : Trace.Entered t t [] := ⟨rfl, fun v => by simp⟩

theorem snoop_entered (vs : List Nat) (except : Option Nat) (p : Part) :
    Trace.Entered p.trace (snoop vs except p).trace vs := by
  rw [snoop_eq, Laws.foldl_keeps (·.trace) (fun p id => setPlanState id .stale none p) (by simp)]
  exact changesEntered_entered vs p

end

/-! ## The state after reset -/

theorem released_agrees (cause : ResetCause) (rate errors lost : Nat) :
    (Part.released cause rate errors lost).RecordsAgree where
  tables := ⟨rfl, rfl, rfl, rfl, rfl, rfl, rfl, rfl, rfl, rfl, rfl, rfl⟩
  outages := ⟨by rintro _ _ ⟨⟩, by rintro _ _ _ ⟨⟩, by rintro _ _ ⟨⟩, by rintro _ _ ⟨⟩, by rintro _ _ ⟨⟩⟩
  districts := by rintro _ _ ⟨⟩
  plans := ⟨by rintro _ _ _ ⟨⟩, List.nodup_nil, fun id => ⟨by rintro ⟨⟩, by rintro ⟨_, ⟨⟩, _⟩⟩,
    fun id => ⟨by rintro ⟨⟩, by rintro ⟨_, ⟨⟩, _⟩⟩⟩
  incidents := ⟨by rintro _ _ _ _ ⟨⟩, by rintro _ _ ⟨⟩, by rintro _ _ ⟨⟩⟩
  crews := ⟨by rintro _ _ _ _ _ ⟨⟩, by rintro _ _ ⟨⟩, by rintro _ _ _ ⟨⟩, by rintro _ _ _ ⟨⟩⟩
  rest _ := ⟨rfl, rfl, rfl, rfl, by rintro _ _ ⟨⟩, by rintro _ _ ⟨⟩, ⟨rfl, rfl⟩, by rintro _ _ ⟨⟩,
    fun n => by rw [released_line]; exact ⟨rfl, rfl⟩⟩

theorem released_conditions (cause : ResetCause) (rate errors lost : Nat) :
    (Part.released cause rate errors lost).panel.conditions = (Part.released cause rate errors lost).lampConditions :=
  rfl

/-- Settles O3: every table is empty and every line fresh. -/
theorem resetIsLegal : Obligations.ResetIsLegal :=
  ⟨rfl, released_legal _ _ (Nat.zero_le _) (Nat.zero_le _), ⟨by rintro _ _ ⟨⟩, by rintro _ _ ⟨⟩⟩, released_agrees _ _ _ _,
    released_conditions _ _ _ _⟩

end Sys2Proof.Proofs
end


section
/-!
The requests over points, segments, feeds and the inoperable flag while the part runs (R59, R60, R74–R77).
-/

namespace Sys2Proof.Proofs

open Sys2Proof Sys2Proof.Machine

/-! ## ACK_POINT and SET_BANDS -/

theorem acked_of_not_flagged {pt : Point} (h : pt.flagged = false) : pt.acked = pt := by
  obtain ⟨outstation, input, district, group, quality, body⟩ := pt
  cases body with
  | pressure seg c st =>
    obtain ⟨value, filter, filtered, history, falling, band, candidate, lowSeen⟩ := st
    obtain rfl : lowSeen = false := h
    rfl
  | discrete d =>
    obtain ⟨mode, debounce, level, stable, pending⟩ := d
    obtain rfl : pending = false := h
    rfl

theorem not_flagged_acked (pt : Point) : pt.acked.flagged = false := by
  unfold Point.acked Point.flagged
  cases pt.body <;> rfl

theorem ackOne_flagged {p : Part} {id n : Nat} {pt : Point} (h : p.points.get? id = some pt) (flagged : pt.flagged = true) :
    ackOne (p, n) id = (putPoint id pt.acked p, n + 1) := by
  simp [ackOne, h, flagged]

theorem ackOne_not_flagged {p : Part} {id n : Nat} {pt : Point} (h : p.points.get? id = some pt)
    (not_ : pt.flagged = false) : ackOne (p, n) id = (p, n) := by
  simp [ackOne, h, not_]

/-- The acknowledgement of some defined points, one after another: each is acknowledged, and those that had a flag are
counted (R59). -/
theorem ackOne_fold {ids : List Nat} : ∀ {p : Part} (n : Nat), p.points.wf 256 = true →
    (∀ id ∈ ids, p.points.has id = true) → ∃ points, ids.foldl ackOne (p, n) = ({ p with points := points },
      n + p.points.count fun id pt => decide (id ∈ ids) && pt.flagged) ∧
      ∀ id, points.get? id = (p.points.get? id).map fun pt => if id ∈ ids then pt.acked else pt := by
  induction ids with
  | nil => exact fun {p} n _ _ => ⟨p.points, by simp [Table.count], by simp⟩
  | cons k ids ih =>
    intro p n w defined
    obtain ⟨pt, hpt⟩ := has_iff.mp (defined k List.mem_cons_self)
    have later : ∀ id ∈ ids, p.points.has id = true := fun id h => defined id (List.mem_cons_of_mem _ h)
    rw [List.foldl_cons]
    cases flagged : pt.flagged with
    | false =>
      obtain ⟨points, run, got⟩ := ih n w later
      refine ⟨points, ?_, fun id => ?_⟩
      · rw [ackOne_not_flagged hpt flagged, run, count_congr w fun id x hx => ?_]
        by_cases same : id = k
        · obtain rfl : pt = x := Option.some.inj (hpt.symm.trans (same ▸ hx))
          simp [flagged]
        · simp [same]
      · rw [got id]
        by_cases same : id = k
        · simp [same, hpt, acked_of_not_flagged flagged]
        · simp [same]
    | true =>
      have kept : ∀ id ∈ ids, (putPoint k pt.acked p).points.has id = true := fun id h => by
        simp only [putPoint, Table.has, get?_set]
        split
        · rfl
        · exact later id h
      obtain ⟨points, run, got⟩ := ih (p := putPoint k pt.acked p) (n + 1) (Laws.wf_set_used _ _ _ _ _ w hpt) kept
      refine ⟨points, ?_, fun id => ?_⟩
      · rw [ackOne_flagged hpt flagged, run]
        have counted := tally_set (g := fun id pt => if (decide (id ∈ k :: ids) && pt.flagged) = true then 1 else 0) w hpt
          pt.acked
        have same : (p.points.set k pt.acked).count (fun id pt => decide (id ∈ ids) && pt.flagged) =
            (p.points.set k pt.acked).count fun id pt => decide (id ∈ k :: ids) && pt.flagged :=
          count_congr (Laws.wf_set_used _ _ _ _ _ w hpt) fun id x hx => by
            by_cases same : id = k
            · obtain rfl : pt.acked = x := by simpa [get?_set, same] using hx
              simp [not_flagged_acked]
            · simp [same]
        simp only [List.mem_cons_self, decide_true, flagged, Bool.true_and, not_flagged_acked, if_true] at counted
        rw [← count_eq_tally, ← count_eq_tally] at counted
        simp only [putPoint, same, Prod.mk.injEq, true_and]
        simp at counted ⊢
        omega
      · rw [got id]
        by_cases same : id = k
        · simp only [putPoint, same, Laws.get?_set_same, hpt, Option.map_some, List.mem_cons_self, if_true]
          split
          · rw [acked_of_not_flagged (not_flagged_acked pt)]
          · rfl
        · simp [putPoint, get?_set, same]

/-- The names in an ACK_POINT body. -/
theorem ackNames_body {ids : List Nat} (short : ids.length ≤ 16) (small : ∀ id ∈ ids, id < 256) :
    ackNames (byte ids.length :: ids.map byte) = ids := by
  have count : u8 (byte ids.length :: ids.map byte) 0 = ids.length := Nat.mod_eq_of_lt (by omega)
  refine List.ext_getElem (by simp [ackNames, count]) fun i h _ => ?_
  have inside : i < ids.length := by simpa [ackNames, count] using h
  simp only [ackNames, List.getElem_map, List.getElem_range, u8, Nat.add_comm 1 i, List.getD_cons_succ]
  rw [List.getD_eq_getElem _ _ (by simpa using inside), List.getElem_map, toNat_byte]
  exact Nat.mod_eq_of_lt (small _ (List.getElem_mem inside))

theorem ackPointRule_act {p : Part} {ids : List Nat} (w : p.points.wf 256 = true) (some_ : 1 ≤ ids.length)
    (short : ids.length ≤ 16) (known : ∀ id ∈ ids, id < 256 ∧ p.points.has id = true) :
    ∃ points, ackPointRule.act (byte ids.length :: ids.map byte) p = ⟨.ok,
        [byte (p.points.count fun id pt => decide (id ∈ ids) && pt.flagged)], refreshLamps { p with points := points }⟩ ∧
      ∀ id, points.get? id = (p.points.get? id).map fun pt => if id ∈ ids then pt.acked else pt := by
  obtain ⟨points, run, got⟩ := ackOne_fold 0 w fun id h => (known id h).2
  refine ⟨points, ?_, got⟩
  have count : u8 (byte ids.length :: ids.map byte) 0 = ids.length := Nat.mod_eq_of_lt (by omega)
  have all : ids.find? (fun id => !p.points.has id) = none := List.find?_eq_none.mpr fun id h => by simp [(known id h).2]
  simp only [ackPointRule, ackNames_body short fun id h => (known id h).1, all, run]
  have inRange : within 1 16 ids.length = true := by
    simp only [within, Bool.and_eq_true, decide_eq_true_eq]
    exact ⟨some_, short⟩
  rw [if_neg (by rw [count, inRange]; decide)]
  simp [okWith]

theorem setBandsRule_act {p : Part} {b : List Byte} {id : Nat} {pt : Point} {seg : Option Nat} {c c' : PressureSettings}
    {st : PressureState} (id_eq : u8 b 0 = id) (bands : c.withBands b = c') (hpt : p.points.get? id = some pt)
    (body : pt.body = .pressure seg c st) (time : c'.rideThrough ≤ 600) (order : ordered c' = true) :
    setBandsRule.act b p = ⟨.ok, [], { p with
      points := p.points.set id { pt with body := .pressure seg c' { st with candidate := none } } }⟩ := by
  simp only [setBandsRule, id_eq, hpt, body, bands]
  rw [if_neg (by simp [order]; omega)]
  rfl

/-- Settles O34: the acknowledgements one after another, and the bands read back from the body. -/
theorem pointsAreAcknowledgedAndEdited : Obligations.PointsAreAcknowledgedAndEdited := by
  refine ⟨fun tag ids s ready w some_ short known => ?_,
    fun tag id l2 l1 h1 h2 h rt pt seg c st s ready hid b1 b2 b3 b4 b5 b6 hpt body => ?_⟩
  · obtain ⟨points, act, got⟩ := ackPointRule_act
      (p := s.begun 0x14 tag (byte ids.length :: ids.map byte)) w some_ short known
    refine ⟨points, request_ok (h := ackPointRule) rfl tag ready.1 ?_ (decide_eq_true ready.2) act, got⟩
    have count : u8 (byte ids.length :: ids.map byte) 0 = ids.length := Nat.mod_eq_of_lt (by omega)
    simp only [ackPointRule]
    rw [count]
    simp [Nat.add_comm]
  · intro c' order
    refine request_ok (h := setBandsRule) rfl tag ready.1 rfl (decide_eq_true ready.2)
      (setBandsRule_act (p := s.begun 0x15 tag _) (c := c) (Nat.mod_eq_of_lt hid) ?_ hpt body b6 order)
    simp only [PressureSettings.withBands, u16, u8, be16, List.cons_append, List.nil_append, List.getD_cons_succ,
      List.getD_cons_zero, toNat_byte, c', PressureSettings.mk.injEq, true_and]
    omega

/-! ## EDIT_SEGMENT and EDIT_FEED -/

section
variable {p : Part} {b : List Byte} {x : Segment}

theorem editSegmentRule_act_of_defined (inside : u16 b 0 ≤ 511) (hx : p.segments.get? (u16 b 0) = some x) :
    editSegmentRule.act b p =
      if u16 b 2 < u16 b 4 then refuse .refusedRange p
      else if x.supply != .supplied then refuse .refusedState p
      else okWith [] { p with
        segments := p.segments.set (u16 b 0) { x with customers := u16 b 2, priority := u16 b 4 } } := by
  simp only [editSegmentRule, hx, onSegment_of_get? hx]
  rw [if_neg (Nat.not_lt.mpr inside)]

end

theorem deriveLive_eq (points : Table Point) (fd : Feed) : deriveLive points fd = (decide (fd.inService = true) &&
    (match fd.outlet with
      | none => true
      | some id => decide (((points.get? id).bind Point.band?) ≠ some .lowTrip))) := by
  unfold deriveLive
  cases fd.outlet with
  | none => simp
  | some id => cases h : (points.get? id).bind Point.band? with
    | none => simp [h]
    | some band => cases band <;> simp [h]

theorem raise_eq (c : Cause) (p : Part) :
    raise c p = { p with trace := { p.trace with pendingCause := some (p.trace.pendingCause.getD c) } } := by
  obtain ⟨_, _, _, _, _, _, _, _, _, ⟨_, pending, _, _, _⟩, _, _, _, _, _⟩ := p
  cases pending <;> rfl

theorem editFeedRule_act {p : Part} {b : List Byte} {f service : Nat} {fd : Feed} (f_eq : u8 b 0 = f)
    (service_eq : u8 b 1 = service) (hf : f < 64) (hs : service ≤ 1) (hfd : p.feeds.get? f = some fd) {live : Bool}
    (hl : deriveLive p.points { fd with inService := service = 0 } = live) :
    editFeedRule.act b p = ⟨.ok, [], { p with
      feeds := p.feeds.set f { fd with inService := service = 0, live := live }
      trace := { p.trace with pendingCause :=
        if live = fd.live then p.trace.pendingCause else some (p.trace.pendingCause.getD (.feed f)) } }⟩ := by
  simp only [editFeedRule, f_eq, service_eq, hfd]
  rw [if_neg (by simp; omega)]
  simp only [writeLiveness, Laws.get?_set_same, hl]
  by_cases same : live = fd.live
  · simp [same, okWith]
  · simp only [if_neg same, set_set, okWith, raise_eq]

/-- Settles O35: the tests of the two rules, one after another. -/
theorem segmentsAndFeedsAreEdited : Obligations.SegmentsAndFeedsAreEdited := by
  refine ⟨fun tag body s ready => ⟨fun length => ?_, fun length => ⟨fun out => ?_, fun inside free => ?_,
    fun x inside hx => ?_⟩⟩, fun tag f service fd s ready hf hs hfd => ?_⟩
  · exact request_of_badLength (h := editSegmentRule) rfl tag ready.1 (decide_eq_false length)
  · refine request_of_admitted (h := editSegmentRule) rfl tag ready.1 (decide_eq_true length) (decide_eq_true ready.2)
      (a := refuse .refusedRange _) ?_
    exact if_pos out
  · refine request_of_admitted (h := editSegmentRule) rfl tag ready.1 (decide_eq_true length) (decide_eq_true ready.2)
      (a := refuse .notFound _) ?_
    simp only [editSegmentRule, Nat.not_lt.mpr inside, free, if_false]
    rfl
  · have act := editSegmentRule_act_of_defined inside hx
    refine ⟨fun more => ?_, fun few off => ?_, fun few on_ => ?_⟩
    · refine request_of_admitted (h := editSegmentRule) rfl tag ready.1 (decide_eq_true length) (decide_eq_true ready.2)
        (a := ⟨.refusedRange, [], _⟩) (act.trans ?_)
      rw [if_pos more]; rfl
    · refine request_of_admitted (h := editSegmentRule) rfl tag ready.1 (decide_eq_true length) (decide_eq_true ready.2)
        (a := ⟨.refusedState, [], _⟩) (act.trans ?_)
      rw [if_neg (Nat.not_lt.mpr few), if_pos (by simpa using off)]; rfl
    · refine request_ok (h := editSegmentRule) rfl tag ready.1 (decide_eq_true length) (decide_eq_true ready.2)
        (act.trans ?_)
      rw [if_neg (Nat.not_lt.mpr few), if_neg (by simp [on_])]; rfl
  · refine request_ok (h := editFeedRule) rfl tag ready.1 rfl (decide_eq_true ready.2)
      (editFeedRule_act (p := s.begun 0x18 tag _) (f := f) (service := service) (Nat.mod_eq_of_lt (by omega))
        (Nat.mod_eq_of_lt (by omega)) hf hs hfd ?_)
    rw [deriveLive_eq]
    simp <;> rfl

/-! ## EDIT_VALVE -/

theorem changeInoperable_same {p : Part} {v : Nat} {valve : Valve} {b : Bool} (h : p.valves.get? v = some valve)
    (same : valve.inoperable = b) (c : Cause) : changeInoperable v b c p = p := by
  simp [changeInoperable, h, same]

/-- A new value of the inoperable flag (R74). -/
theorem changeInoperable_other {p : Part} {v : Nat} {valve : Valve} {b : Bool} (h : p.valves.get? v = some valve)
    (other : valve.inoperable ≠ b) (c : Cause) : changeInoperable v b c p =
      snoop [v] none (raise c (markSegments [valve.endA, valve.endB]
        { p with valves := p.valves.set v { valve with inoperable := b } })) := by
  simp [changeInoperable, h, other]

theorem editValveRule_act {p : Part} {b : List Byte} {v : Nat} {flag_ : Bool} {valve : Valve} (v_eq : u16 b 0 = v)
    (flag_eq : u8 b 2 = if flag_ then 1 else 0) (hv : v < 768) (h : p.valves.get? v = some valve) :
    editValveRule.act b p = ⟨.ok, [], changeInoperable v flag_ .edit p⟩ := by
  have used : p.valves.has v = true := has_iff.mpr ⟨valve, h⟩
  simp only [editValveRule, v_eq, flag_eq, used]
  rw [if_neg (by cases flag_ <;> simp <;> omega), if_neg (by simp)]
  cases flag_ <;> rfl

/-- Settles O36: a new value is written, marked, raised and handed to the snoop. -/
theorem editValveWritesTheFlag : Obligations.EditValveWritesTheFlag := by
  intro tag v flag_ valve s ready hv tables hvalve body p
  have answer (q : Part) (h : changeInoperable v flag_ .edit p = q) :
      exec (.editValve tag body) s = .next (s.answered q .ok []) := by
    refine request_ok (h := editValveRule) rfl tag ready.1 rfl (decide_eq_true ready.2)
      ((editValveRule_act (p := p) (v := v) (flag_ := flag_) ?_ ?_ hv hvalve).trans (congrArg (Answer.mk .ok []) h))
    · simp only [body, u16, u8, be16, List.cons_append, List.getD_cons_succ, List.getD_cons_zero, toNat_byte]; omega
    · cases flag_ <;> rfl
  refine ⟨fun same => answer p (changeInoperable_same (p := p) hvalve same _), fun other =>
    ⟨_, answer _ (changeInoperable_other (p := p) hvalve other _), ?_⟩⟩
  obtain ⟨_, _, _, _, _, _, plans, _⟩ := tables
  refine ⟨by simp, fun id x hx => ?_, ?_, fun id => ?_, by simp, by simp, by simp, by simp, by simp, by simp, by simp,
    by simp, by simp, by simp⟩
  · rw [Laws.f_snoop_segments, Laws.f_raise_segments, markSegments_get?]
    exact (congrArg _ hx).trans (by simp)
  · have entered := snoop_entered [v] none (raise .edit (markSegments [valve.endA, valve.endB]
      { p with valves := p.valves.set v { valve with inoperable := flag_ } }))
    rw [raise_eq, Laws.f_markSegments_trace] at entered
    rw [raise_eq, Laws.f_markSegments_trace]
    exact entered
  · rw [snoop_get? (by rw [Laws.f_raise_plans, Laws.f_markSegments_plans]; exact plans)]
    simp [Part.time]

end Sys2Proof.Proofs
end


section
/-!
The jobs of the trace engine, the requests that make and drop plans, and offers as they are set, declined and ended (R84,
R88, R97, R101, R106, R107, R148, R151, R152, R156).
-/

namespace Sys2Proof.Proofs

open Sys2Proof Sys2Proof.Machine

/-! ## Jobs -/

section
variable {s : State} {p : Part}

theorem exec_jobStart {q : Part} (h : jobStarts s.part = q) : exec .jobStart s = .next (s.withPart q) := by
  subst h; rfl

theorem jobStarts_busy (h : p.trace.engine ≠ .idle) : jobStarts p = p := by simp [jobStarts, h]

theorem jobStarts_nothing (h : p.trace.engine = .idle) (cause : p.trace.pendingCause = none)
    (queue : p.trace.planQueue = []) : jobStarts p = p := by
  simp [jobStarts, h, cause, queue]

theorem jobStarts_trace {c : Cause} (h : p.trace.engine = .idle) (cause : p.trace.pendingCause = some c) :
    jobStarts p = startJob (.supplyJob c) false { p with trace := { p.trace with pendingCause := none } } := by
  simp [jobStarts, h, cause]

theorem jobStarts_plan {id : Nat} {rest : List Nat} (h : p.trace.engine = .idle) (cause : p.trace.pendingCause = none)
    (queue : p.trace.planQueue = id :: rest) : jobStarts p = setPlanState id .computing none
      (startJob (.planJob id) true { p with trace := { p.trace with planQueue := rest } }) := by
  simp [jobStarts, h, cause, queue]

theorem planJobEnds_of_job {id : Nat} {w : View} {x : Plan} (h : p.trace.engine = .planJob id)
    (view : p.trace.view = some w) (hx : p.plans.get? id = some x) :
    planJobEnds p = setPlanState id (settledState (computePlan p w x.target) p.trace.changeSet) none { p with
      trace := { p.trace with engine := .idle, view := none, changeSet := [] }
      plans := p.plans.set id (x.withResult (computePlan p w x.target)) } := by
  simp only [planJobEnds, h, view, hx, Option.map_some, Option.getD_some, Part.onPlan, modify_of_get? hx]

theorem settledState_eq (r : PlanResult) (changes : List Nat) : settledState r changes =
    if r.failure.isSome then .failed
    else if changes.any (fun v => decide (v ∈ r.close ∨ v ∈ r.hold)) then .stale else .ready := by
  simp [settledState, Bool.decide_or]

end

/-- Settles O38: the four cases of a start, and the record of a settled plan. -/
theorem jobsStartAndPlansSettle : Obligations.JobsStartAndPlansSettle := by
  refine ⟨fun s => ⟨fun busy => ?_, fun idle cause queue => ?_, fun c idle cause => ?_, fun id rest q idle cause queue hq => ?_⟩,
    fun id w x s engine view hx => ?_⟩
  · exact exec_jobStart (jobStarts_busy busy)
  · exact exec_jobStart (jobStarts_nothing idle cause queue)
  · exact exec_jobStart (jobStarts_trace idle cause)
  · exact exec_jobStart ((jobStarts_plan idle cause queue).trans (setPlanState_of_get? (x := q) (by exact hq) _ _))
  · have ends : exec .planJobComplete s = .next (s.withPart (planJobEnds s.part)) := rfl
    rw [ends, planJobEnds_of_job engine view hx, setPlanState_of_get? (Laws.get?_set_same _ _ _), set_set, settledState_eq]
    rfl

/-! ## PLAN and DROP_PLAN -/

section
variable {p : Part} {b : List Byte} {id : Nat}

theorem head?_idsWhere_of_any {α : Type} {t : Table α} {f : Nat → α → Bool} (h : t.any f = false) :
    (t.idsWhere f).head? = none := by
  have empty : t.entries.filter (fun e => f e.1 e.2) = [] := List.filter_eq_nil_iff.mpr fun e he => by
    simpa using List.any_eq_false.mp h e he
  simp [Table.idsWhere, empty]

theorem planRule_act {target : Nat} {incident : Option Nat} (target_eq : u16 b 0 = target)
    (presence : u8 b 2 = if incident.isSome then 1 else 0) (item : u8 b 3 = incident.getD 0) (ht : target < 512)
    (hi : ∀ i, incident = some i → i < 128) (defined : p.segments.has target = true)
    (fit : p.planIncidentRefusal incident = none) (free : p.plans.firstFree 16 = some id)
    (alone : (p.plans.any fun _ q => decide (q.target = target) && q.state.standsInTheWay) = false) :
    planRule.act b p = ⟨.accepted, [byte id], requestPlan id target incident p⟩ := by
  have first : (p.plans.idsWhere fun _ q => decide (q.target = target) && q.state.standsInTheWay).head? = none :=
    head?_idsWhere_of_any alone
  simp only [planRule, target_eq, presence, item, optAt_presence, defined, fit, free, first]
  rw [if_neg, if_neg (by simp)]
  cases incident with
  | none => simp; omega
  | some i => have := hi i rfl; simp; omega

theorem requestPlan_alone {target : Nat} : requestPlan id target none p =
    place (.planState id .free .requested target none none none) { p with
      plans := p.plans.set id
        { state := .requested, target := target, incident := none, requested := p.time, stateTime := p.time }
      trace := { p.trace with planQueue := p.trace.planQueue ++ [id] } } := rfl

theorem requestPlan_linked {target i : Nat} {inc : Incident} (h : p.register.incidents.get? i = some inc) :
    requestPlan id target (some i) p =
    place (.planState id .free .requested target (some i) none none) (putIncident i { inc with planLink := some id } { p with
      plans := p.plans.set id
        { state := .requested, target := target, incident := some i, requested := p.time, stateTime := p.time }
      trace := { p.trace with planQueue := p.trace.planQueue ++ [id] } }) := by
  simp [requestPlan, Part.incident?, h]

theorem plan_reads {target : Nat} {incident : Option Nat} (ht : target < 512) (hi : ∀ i, incident = some i → i < 128) :
    let b := be16 target ++ [if incident.isSome then 1 else 0, byte (incident.getD 0)]
    u16 b 0 = target ∧ u8 b 2 = (if incident.isSome then 1 else 0) ∧ u8 b 3 = incident.getD 0 := by
  refine ⟨?_, flag_presence incident, Nat.mod_eq_of_lt ?_⟩
  · simp only [u16, u8, be16, List.cons_append, List.getD_cons_succ, List.getD_cons_zero, toNat_byte]
    omega
  · cases incident with
    | none => decide
    | some i => exact Nat.lt_trans (hi i rfl) (by decide)

/-- What becomes of a plan that goes FREE, with and without an incident that links to it (R102, R123). -/
theorem freePlan_unlinked {x : Plan} (hx : p.plans.get? id = some x)
    (unlinked : ∀ i inc, x.incident = some i → p.register.incidents.get? i = some inc → inc.planLink ≠ some id) :
    freePlan id p = place (.planState id x.state .free x.target x.incident x.failure none)
      { p with plans := p.plans.erase id } := by
  simp only [freePlan, hx, Part.incident?, Laws.place_register]
  split
  next i inc h =>
    obtain ⟨j, hj, h⟩ := Option.bind_eq_some_iff.mp h
    obtain ⟨inc', hinc, same⟩ := Option.map_eq_some_iff.mp h
    cases same
    rw [if_neg (unlinked i inc hj hinc)]
  next => rfl

theorem freePlan_linked {x : Plan} {i : Nat} {inc : Incident} (hx : p.plans.get? id = some x) (hi : x.incident = some i)
    (hinc : p.register.incidents.get? i = some inc) (linked : inc.planLink = some id) :
    freePlan id p = putIncident i { inc with planLink := none }
      (place (.planState id x.state .free x.target x.incident x.failure none) { p with plans := p.plans.erase id }) := by
  simp [freePlan, hx, hi, Part.incident?, hinc, linked]

theorem dropPlanRule_act {x : Plan} (id_eq : u8 b 0 = id) (hid : id < 16) (hx : p.plans.get? id = some x)
    (settled : x.state = .ready ∨ x.state = .stale ∨ x.state = .failed) :
    dropPlanRule.act b p = ⟨.ok, [], freePlan id p⟩ := by
  simp only [dropPlanRule, onPlanNumbered, id_eq, hx]
  rw [if_neg (by omega), if_pos (by simpa [or_assoc] using settled)]
  rfl

end

/-- Settles O42: the tests passed, and the plan as it is made or freed. -/
theorem plansAreRequestedAndDropped : Obligations.PlansAreRequestedAndDropped := by
  refine ⟨fun tag target id incident s ready ht defined free alone => ?_, fun tag id x s ready hid hx settled => ?_⟩
  · intro body p p' notice
    have answer (hi : ∀ i, incident = some i → i < 128) (fit : p.planIncidentRefusal incident = none) {q : Part}
        (h : requestPlan id target incident p = q) :
        exec (.plan tag body) s = .next (s.answered q .accepted [byte id]) := by
      obtain ⟨r0, r2, r3⟩ := plan_reads ht hi
      exact request_of_admitted (h := planRule) rfl tag ready.1 rfl (decide_eq_true ready.2)
        ((planRule_act (p := p) r0 r2 r3 ht hi defined fit free alone).trans (congrArg (Answer.mk _ _) h))
    refine ⟨fun none_ => ?_, fun i inc some_ hi hinc open_ => ?_⟩
    · subst none_
      exact answer (by simp) rfl requestPlan_alone
    · subst some_
      refine answer (by simpa using hi) ?_ (requestPlan_linked (p := p) hinc)
      have : p.incident? i = some inc := hinc
      simp [Part.planIncidentRefusal, this, open_]
  · intro p p'
    have answer {q : Part} (h : freePlan id p = q) : exec (.dropPlan tag [byte id]) s = .next (s.answered q .ok []) :=
      request_ok (h := dropPlanRule) rfl tag ready.1 rfl (decide_eq_true ready.2)
        ((dropPlanRule_act (p := p) (Nat.mod_eq_of_lt (by omega)) hid hx settled).trans (congrArg (Answer.mk _ _) h))
    refine ⟨fun none_ => ?_, fun i some_ gone => ?_, fun i inc some_ hinc => ⟨fun other => ?_, fun linked => ?_⟩⟩
    · exact answer (freePlan_unlinked (p := p) hx fun i inc hi => by simp [none_] at hi)
    · refine answer (freePlan_unlinked (p := p) hx fun j inc hj hinc => ?_)
      cases some_.symm.trans hj
      exact absurd (gone.symm.trans hinc) (by simp)
    · refine answer (freePlan_unlinked (p := p) hx fun j inc' hj hinc' => ?_)
      cases some_.symm.trans hj
      cases hinc.symm.trans hinc'
      exact other
    · exact answer (freePlan_linked (p := p) hx some_ hinc linked)

/-! ## Offers -/

section
variable {p : Part} {j : Job} {id : Nat} {c : Crew}

theorem crewOn_none (w : p.dispatch.crews.wf 48 = true) :
    p.crewOn j = none ↔ ∀ id c, p.dispatch.crews.get? id = some c → c.job ≠ some j := by
  rw [← forall_mem_entries w (P := fun _ c => c.job ≠ some j)]
  simp [Part.crewOn]

theorem crewOn_some (w : p.dispatch.crews.wf 48 = true) (h : p.crewOn j = some (id, c)) :
    p.dispatch.crews.get? id = some c ∧ c.job = some j :=
  ⟨get?_of_mem w (List.mem_of_find?_eq_some h), by simpa using List.find?_some h⟩

/-- The one crew that is offered or holds a job. -/
theorem crewOn_eq (w : p.dispatch.crews.wf 48 = true) (hc : p.dispatch.crews.get? id = some c) (job : c.job = some j)
    (one : ∀ k d, p.dispatch.crews.get? k = some d → d.job = some j → k = id) : p.crewOn j = some (id, c) := by
  cases h : p.crewOn j with
  | none => exact absurd job ((crewOn_none w).mp h id c hc)
  | some e =>
    obtain ⟨k, d⟩ := e
    obtain ⟨hd, job'⟩ := crewOn_some w h
    obtain rfl := one k d hd job'
    rw [Option.some.inj (hd.symm.trans hc)]

theorem endJob_none (h : p.crewOn j = none) : endJob j p = p := by simp [endJob, h]

theorem endJob_offered (h : p.crewOn j = some (id, c)) (hc : p.dispatch.crews.get? id = some c) (offered : c.state = .offered) :
    endJob j p = place (.offerWithdrawn id j.cls j.item .demandEnded) { p with dispatch := { p.dispatch with
      crews := p.dispatch.crews.set id { c with state := .available, job := none, expiry := none } } } := by
  simp only [endJob, h, offered, if_true, onCrew_of_get? hc]

theorem endJob_held (h : p.crewOn j = some (id, c)) (hc : p.dispatch.crews.get? id = some c) (held : c.state ≠ .offered) :
    endJob j p = { p with dispatch := { p.dispatch with
      crews := p.dispatch.crews.set id { c with state := .available, job := none, declined := none } } } := by
  simp only [endJob, h, held, if_false, onCrew_of_get? hc]

theorem withdrawOffer_eq (hc : p.dispatch.crews.get? id = some c) (cause : WithdrawCause) :
    withdrawOffer id j cause p =
      dispatchDecide (place (.offerWithdrawn id j.cls j.item cause) { p with dispatch := { p.dispatch with
        crews := p.dispatch.crews.set id
          { c with state := .available, job := none, declined := some j, expiry := none } } }) := by
  simp only [withdrawOffer, onCrew_of_get? hc]

theorem setDispatchRule_act {b : List Byte} {x y z time : Nat} (x_eq : u8 b 0 = x) (y_eq : u8 b 1 = y) (z_eq : u8 b 2 = z)
    (time_eq : u16 b 3 = time) (hx : x ≤ 15) (hy : y ≤ 15) (hz : z ≤ 15) (low : 30 ≤ time) (high : time ≤ 600) :
    setDispatchRule.act b p = ⟨.ok, [], dispatchDecide { p with dispatch := { p.dispatch with
      reloads := ⟨x, y, z⟩, levels := ⟨x, y, z⟩, offerTime := time } }⟩ := by
  simp only [setDispatchRule, x_eq, y_eq, z_eq, time_eq]
  rw [if_neg (by simp [within]; omega)]
  rfl

theorem answerOfferRule_act_decline {b : List Byte} {cls item : Nat} (crew_eq : u8 b 0 = id) (answer_eq : u8 b 1 = 1)
    (cls_eq : u8 b 2 = cls) (item_eq : u16 b 3 = item) (hid : id < 48) (hcls : cls ≤ 2)
    (hc : p.dispatch.crews.get? id = some c) (offered : c.state = .offered) (job : c.job = some ⟨classOf cls, item⟩) :
    answerOfferRule.act b p = ⟨.ok, [], withdrawOffer id ⟨classOf cls, item⟩ .declined p⟩ := by
  simp only [answerOfferRule, crew_eq, answer_eq, cls_eq, item_eq, hc, offered, job]
  rw [if_neg (by simp; omega), if_neg (by simp), if_neg (by simp)]
  rfl

theorem exec_offerExpiry {crew : Nat} {s : State} {q : Part} (h : offerEnds crew s.part = q) :
    exec (.offerExpiry crew) s = .next (s.withPart q) := by
  subst h; rfl

theorem reached_some {t : Nat} : p.reached (some t) = decide (t ≤ p.time) := rfl

theorem offerEnds_due {t : Nat} (hc : p.dispatch.crews.get? id = some c) (offered : c.state = .offered)
    (job : c.job = some j) (expiry : c.expiry = some t) (due : t ≤ p.time) :
    offerEnds id p = withdrawOffer id j .expired p := by
  simp [offerEnds, hc, offered, job, expiry, reached_some, due]

theorem offerEnds_early {t : Nat} (hc : p.dispatch.crews.get? id = some c) (job : c.job = some j)
    (expiry : c.expiry = some t) (early : p.time < t) : offerEnds id p = p := by
  simp [offerEnds, hc, job, expiry, reached_some, Nat.not_le.mpr early]

end

/-- Settles O54: each end of an offer, and the end of an item. -/
theorem offersAreSetDeclinedAndExpire : Obligations.OffersAreSetDeclinedAndExpire := by
  refine ⟨⟨fun tag a b c time s free loaded ha hb hc low high => ?_, fun crew c j s hc offered job => ⟨fun tag cls ready
    hcrew hcls class_ item => ?_, fun t expiry => ⟨fun due => ?_, fun early => ?_⟩⟩⟩, fun j p w => ⟨fun none_ => ?_,
    fun id c hc job one => ⟨fun offered => ?_, fun held => ?_⟩⟩⟩
  · refine request_ok (h := setDispatchRule) rfl tag free rfl (loadedOrLoading_of_ne loaded)
      (setDispatchRule_act (p := s.begun 0x11 tag _) (x := a) (y := b) (z := c) (time := time) ?_ ?_ ?_ ?_ ha hb hc low high)
    · exact Nat.mod_eq_of_lt (by omega)
    · exact Nat.mod_eq_of_lt (by omega)
    · exact Nat.mod_eq_of_lt (by omega)
    · simp only [u16, u8, be16, List.cons_append, List.nil_append, List.getD_cons_succ, List.getD_cons_zero, toNat_byte]
      omega
  · obtain ⟨_, i⟩ := j
    cases class_
    have act {b : List Byte} (h0 : u8 b 0 = crew) (h1 : u8 b 1 = 1) (h2 : u8 b 2 = cls) (h3 : u16 b 3 = i) :=
      answerOfferRule_act_decline (p := s.begun 0x24 tag b) h0 h1 h2 h3 hcrew hcls hc offered job
    simp only [withdrawOffer_eq (p := s.begun 0x24 tag _) hc] at act
    refine request_ok (h := answerOfferRule) rfl tag ready.1 rfl (decide_eq_true ready.2) (act ?_ rfl ?_ ?_)
    · exact Nat.mod_eq_of_lt (by omega)
    · exact Nat.mod_eq_of_lt (by omega)
    · have : i < 65536 := item
      simp only [u16, u8, be16, List.cons_append, List.nil_append, List.getD_cons_succ, List.getD_cons_zero, toNat_byte]
      omega
  · exact exec_offerExpiry ((offerEnds_due hc offered job expiry due).trans (withdrawOffer_eq hc _))
  · exact exec_offerExpiry (offerEnds_early hc job expiry early)
  · exact endJob_none ((crewOn_none w).mpr none_)
  · exact endJob_offered (crewOn_eq w hc job one) hc offered
  · exact endJob_held (crewOn_eq w hc job one) hc held

end Sys2Proof.Proofs
end


section
/-!
Suspected losses (R171, R172) and the watch on the host (R179–R181).
-/

namespace Sys2Proof.Proofs

open Sys2Proof Sys2Proof.Machine

/-! ## A segment's mark -/

/-- A write that leaves a test of its record leaves whether some record passes. -/
theorem any_set {α : Type} {t : Table α} {k : Nat} {v w : α} {f : Nat → α → Bool} (h : t.get? k = some v)
    (same : f k w = f k v) : (t.set k w).any f = t.any f := by
  obtain ⟨es⟩ := t
  simp only [Table.get?, Table.any, Table.set] at h ⊢
  induction es with
  | nil => simp [findEntry] at h
  | cons e rest ih =>
    obtain ⟨i, a⟩ := e
    by_cases at_ : i = k
    · obtain rfl : a = v := by simpa [findEntry, at_] using h
      simp [putEntry, at_, same]
    · have later : findEntry k rest = some v := by simpa [findEntry, at_] using h
      simp only [putEntry, at_, if_false]
      split
      · have passed : f k v = true → rest.any (fun e => f e.1 e.2) = true := fun pass =>
          List.any_eq_true.mpr ⟨(k, v), Laws.mem_of_get? ⟨rest⟩ k v later, pass⟩
        cases pass : f k v <;> simp [same, pass]
        exact .inr (by simpa using passed pass)
      · simp [ih later]

section
variable {p : Part} {x : Nat} {seg : Segment}

/-- The link after a mark: the first one places SUPPLY_CHANGED (R79). -/
theorem markSegment_link (h : p.segments.get? x = some seg) : (markSegment x p).link = p.linkMarked x := by
  simp only [markSegment, h, Part.linkMarked]
  split
  next marked =>
    have some_ : (p.segments.any fun _ x => x.changed) = true :=
      List.any_eq_true.mpr ⟨(x, seg), Laws.mem_of_get? _ _ _ h, marked⟩
    rw [if_pos some_]
  next => cases p.segments.any fun _ x => x.changed <;> rfl

theorem linkMarked_set (y : Segment) (h : p.segments.get? x = some seg) (same : y.changed = seg.changed) (n : Nat) :
    Part.linkMarked { p with segments := p.segments.set x y } n = p.linkMarked n := by
  simp only [Part.linkMarked]
  rw [any_set (f := fun _ x => x.changed) h same]
  rfl

theorem markSegment_other {n : Nat} (other : n ≠ x) (p : Part) :
    (markSegment x p).segments.get? n = p.segments.get? n := by
  rw [markSegment_get?]
  simp [other]

/-- A segment is made SUSPECT or freed of it: its record, the mark, the district's count and nothing else but the panel
(R171, R172). -/
theorem setSuspect_spec (h : p.segments.get? x = some seg) (b : Bool) : let q := setSuspect x b p
    q = { p with segments := q.segments, districts := q.districts, link := q.link, panel := q.panel } ∧
    q.segments.get? x = some { seg with suspect := b, changed := true } ∧
    (∀ n, n ≠ x → q.segments.get? n = p.segments.get? n) ∧ q.link = p.linkMarked x ∧
    q.districts = p.districts.modify seg.district fun d =>
      { d with suspects := if b then d.suspects + 1 else d.suspects - 1 } := by
  have marked : (p.onSegment x fun s => { s with suspect := b }).segments.get? x = some { seg with suspect := b } := by
    simp [onSegment_of_get? h]
  have record : (markSegment x (p.onSegment x fun s => { s with suspect := b })).segments.get? x =
      some { seg with suspect := b, changed := true } := by
    rw [markSegment_get?, marked]
    simp
  have district : (markSegment x (p.onSegment x fun s => { s with suspect := b })).districtOf x = seg.district := by
    simp [Part.districtOf, record]
  refine ⟨?_, record, fun n other => ?_, ?_, ?_⟩
  · simp only [setSuspect]
    generalize hr : markSegment x (p.onSegment x fun s => { s with suspect := b }) = r
    have eq : r = { p with segments := r.segments, link := r.link } := by
      rw [← hr]
      unfold markSegment
      split
      · rfl
      · split
        · rfl
        · dsimp only
          split <;> rfl
    simp only [refreshLamps, Part.onDistrict]
    rw [eq]
  · exact (markSegment_other other _).trans (by simp [onSegment_of_get? h, Laws.get?_set_other _ _ _ _ other])
  · have same : (setSuspect x b p).link = (markSegment x (p.onSegment x fun s => { s with suspect := b })).link := rfl
    rw [same, markSegment_link marked, onSegment_of_get? h, linkMarked_set { seg with suspect := b } h rfl]
  · have same : (setSuspect x b p).districts = ((markSegment x (p.onSegment x fun s => { s with suspect := b })).onDistrict
        ((markSegment x (p.onSegment x fun s => { s with suspect := b })).districtOf x) fun d =>
          { d with suspects := if b then d.suspects + 1 else d.suspects - 1 }).districts := rfl
    rw [same, district]
    simp [Part.onDistrict]

/-! ## No-gas calls -/

theorem pushNoGas_eq {times : List Nat} (short : times.length ≤ 3) (t : Nat) :
    pushNoGas times t = (times ++ [t]).drop (times.length + 1 - 3) := by
  unfold pushNoGas
  split
  next few => rw [Nat.sub_eq_zero_of_le (by omega), List.drop_zero]
  next =>
    have three : times.length = 3 := by omega
    rw [three, List.drop_append_of_le_length (by omega)]

theorem noGasCall_member {id : Nat} {o : Outage} (h : p.segments.get? x = some seg) (member : seg.outage = some id)
    (ho : p.outages.get? id = some o) : noGasCall x p = putOutage id { o with noGas := bump o.noGas } p := by
  simp [noGasCall, h, member, ho]

theorem noGasCall_alone (h : p.segments.get? x = some seg) (alone : seg.outage = none) {times : List Nat}
    (pushed : pushNoGas seg.noGas p.time = times) : noGasCall x p =
      if seg.suspect = false ∧ suspectTest times = true then
        place (.segmentSuspect x seg.district (times.headD 0) (times.getLastD 0))
          (setSuspect x true { p with segments := p.segments.set x { seg with noGas := times } })
      else { p with segments := p.segments.set x { seg with noGas := times } } := by
  simp only [noGasCall, h, alone, pushed, onSegment_of_get? h]
  cases seg.suspect <;> cases suspectTest times <;> simp

theorem suspectTest_iff {times : List Nat} :
    suspectTest times = true ↔ times.length = 3 ∧ times.getLastD 0 ≤ times.headD 0 + 1800 := by
  simp [suspectTest, suspectWindow]

theorem clearSuspectRule_act {b : List Byte} (x_eq : u16 b 0 = x) (hx : x < 512) (h : p.segments.get? x = some seg) :
    clearSuspectRule.act b p = ⟨.ok, [flag seg.suspect],
      if seg.suspect then setSuspect x false { p with segments := p.segments.set x { seg with noGas := [] } }
      else { p with segments := p.segments.set x { seg with noGas := [] } }⟩ := by
  simp only [clearSuspectRule, onSegmentNumbered, x_eq, h, onSegment_of_get? h]
  rw [if_neg (by omega)]
  rfl

end

/-- Settles O49: a call in and out of an outage, and the clearing of a suspicion. -/
theorem suspicionRisesAndIsCleared : Obligations.SuspicionRisesAndIsCleared := by
  refine ⟨fun x seg p hx short => ⟨fun id o member ho => noGasCall_member hx member ho, fun alone => ?_⟩,
    fun tag id x s ready hid hx => ?_⟩
  · intro times newly
    have call := noGasCall_alone hx alone (pushNoGas_eq short p.time)
    have test : (seg.suspect = false ∧ suspectTest times = true) ↔ newly := by rw [suspectTest_iff]
    refine ⟨fun not_ => ?_, fun yes => ?_⟩
    · rw [call, if_neg (test.not.mpr not_)]
    · rw [call, if_pos (test.mpr yes)]
      obtain ⟨frame, record, others, link, districts⟩ := setSuspect_spec (x := x) (seg := { seg with noGas := times })
        (p := { p with segments := p.segments.set x { seg with noGas := times } }) (by simp) true
      refine ⟨_, rfl, frame, record, fun n other => (others n other).trans (Laws.get?_set_other _ _ _ _ other),
        link.trans (linkMarked_set { seg with noGas := times } hx rfl x), districts⟩
  · intro p
    have act := clearSuspectRule_act (p := p) (b := be16 id) (x := id)
      (by simp only [u16, u8, be16, List.getD_cons_succ, List.getD_cons_zero, toNat_byte]; omega) hid hx
    refine ⟨fun clear => ?_, fun suspect => ?_⟩
    · rw [if_neg (by simp [clear]), show flag x.suspect = 0 by rw [clear]; rfl] at act
      exact request_ok (h := clearSuspectRule) rfl tag ready.1 rfl (decide_eq_true ready.2) act
    · rw [if_pos suspect, show flag x.suspect = 1 by rw [suspect]; rfl] at act
      obtain ⟨frame, record, others, link, districts⟩ := setSuspect_spec (x := id) (seg := { x with noGas := [] })
        (p := { p with segments := p.segments.set id { x with noGas := [] } }) (by simp) false
      exact ⟨_, request_ok (h := clearSuspectRule) rfl tag ready.1 rfl (decide_eq_true ready.2) act, frame, record,
        fun n other => (others n other).trans (Laws.get?_set_other _ _ _ _ other),
        link.trans (linkMarked_set (p := p) { x with noGas := [] } hx rfl id), districts⟩

/-! ## Supervision -/

section
variable {p : Part} {b : List Byte} {token : Byte}

theorem setSupervisionRule_act {period : Nat} (h : supervisionPeriod b = period) (low : 10 ≤ period) (high : period ≤ 300) :
    setSupervisionRule.act b p = ⟨.ok, [flag p.panel.supervision.enabled], superviseWith period p⟩ := by
  simp only [setSupervisionRule, h]
  rw [if_neg (by simp [within]; omega)]
  rfl

theorem keepaliveRule_act (known : token = 0x5A ∨ token = 0xA5) (enabled : p.panel.supervision.enabled = true) :
    keepaliveRule.act [token] p =
      if p.panel.supervision.lastToken = some token then ⟨.ok, [flag false, flag p.unattended], p⟩
      else ⟨.ok, [flag true, flag (acceptToken token p).unattended], acceptToken token p⟩ := by
  have tokens : (token != 0x5A && token != 0xA5) = false := by rcases known with rfl | rfl <;> rfl
  simp only [keepaliveRule, List.getD_cons_zero, tokens, enabled]
  by_cases same : p.panel.supervision.lastToken = some token
  · simp [same, okWith]
  · simp [bne_iff_ne.mpr same, same, okWith]

theorem acceptToken_attended (h : p.panel.supervision.unattended = false) : acceptToken token p =
    p.onSupervision fun v => { v with lastToken := some token, expiry := some (p.time + v.period) } := by
  simp only [acceptToken, Part.unattended, Part.onSupervision, Part.onPanel, h]
  rfl

theorem acceptToken_first (h : p.panel.supervision.unattended = true) (first : p.panel.supervision.returnCount = 0) :
    acceptToken token p = p.onSupervision fun v => { v with lastToken := some token, returnCount := 1 } := by
  simp only [acceptToken, Part.unattended, Part.onSupervision, Part.onPanel, h, first]
  rfl

theorem acceptToken_second (h : p.panel.supervision.unattended = true) (second : p.panel.supervision.returnCount ≠ 0) :
    acceptToken token p =
      dispatchDecide (place (.hostResumed p.link.lostCount (p.time - p.panel.supervision.since)) (p.onSupervision fun v =>
        { v with lastToken := some token, unattended := false, returnCount := 0, expiry := some (p.time + v.period) })) := by
  simp only [acceptToken, Part.unattended, Part.onSupervision, Part.onPanel, h, second, Bool.not_true, Bool.false_eq_true,
    if_false]
  rfl

theorem keepaliveEnds_due {t : Nat} (attended : p.panel.supervision.unattended = false)
    (expiry : p.panel.supervision.expiry = some t) (due : t ≤ p.time) : keepaliveEnds p = lapse p := by
  simp [keepaliveEnds, Part.unattended, attended, expiry, reached_some, due]

theorem keepaliveEnds_undue {t : Nat} (expiry : p.panel.supervision.expiry = some t)
    (undue : p.time < t ∨ p.panel.supervision.unattended = true) : keepaliveEnds p = p := by
  rcases undue with early | unattended
  · simp [keepaliveEnds, expiry, reached_some, Nat.not_le.mpr early]
  · simp [keepaliveEnds, Part.unattended, unattended]

theorem exec_keepaliveExpiry {s : State} {q : Part} (h : keepaliveEnds s.part = q) :
    exec .keepaliveExpiry s = .next (s.withPart q) := by
  subst h; rfl

end

/-- Settles O59: each request and the expiry, by whether the part is attended. -/
theorem supervisionWatchesTheHost : Obligations.SupervisionWatchesTheHost := by
  intro tag s v
  refine ⟨fun body period ready form low high => ?_, fun token ready known enabled => ?_, fun t expiry =>
    ⟨fun due attended => ?_, fun undue => ?_⟩⟩
  · have period_eq : supervisionPeriod body = period := by
      rcases form with ⟨rfl, rfl⟩ | rfl
      · rfl
      · simp only [supervisionPeriod, u16, u8, be16, List.isEmpty_cons, List.getD_cons_succ, List.getD_cons_zero,
          toNat_byte, Bool.false_eq_true, if_false]
        omega
    have length : setSupervisionRule.lengthOk body = true := by rcases form with ⟨rfl, rfl⟩ | rfl <;> rfl
    exact request_ok (h := setSupervisionRule) rfl tag ready.1 length (decide_eq_true ready.2)
      (setSupervisionRule_act (p := s.begun 0x2E tag body) period_eq low high)
  · intro p kept keep
    have act := keepaliveRule_act (p := p) known enabled
    have answer {q : Part} {accepted unattended : Byte}
        (h : keepaliveRule.act [token] p = ⟨.ok, [accepted, unattended], q⟩) : keep q accepted unattended :=
      request_ok (h := keepaliveRule) rfl tag ready.1 rfl (decide_eq_true ready.2) h
    refine ⟨fun same => answer ?_, fun other => ⟨fun attended => answer ?_, fun unattended first => answer ?_,
      fun unattended second => answer ?_⟩⟩
    · rw [act, if_pos (show p.panel.supervision.lastToken = some token from same)]
      rfl
    all_goals rw [act, if_neg (show p.panel.supervision.lastToken ≠ some token from other)]
    · rw [acceptToken_attended (p := p) attended, Part.unattended]
      exact congrArg (fun f => Answer.mk .ok [1, flag f] _) attended
    · rw [acceptToken_first (p := p) unattended first, Part.unattended]
      exact congrArg (fun f => Answer.mk .ok [1, flag f] _) unattended
    · rw [acceptToken_second (p := p) unattended second, Part.unattended, Laws.f_dispatchDecide_panel, Laws.place_panel]
      rfl
  · exact exec_keepaliveExpiry (keepaliveEnds_due attended expiry due)
  · exact exec_keepaliveExpiry (keepaliveEnds_undue expiry undue)

end Sys2Proof.Proofs
end


section
/-!
Incidents that move: their states, deadlines brought forward, escalation, and the crews that an ended item frees (R117,
R132–R142, R152, R156).
-/

namespace Sys2Proof.Proofs

open Sys2Proof Sys2Proof.Machine

/-! ## Ended items -/

/-- A crew without its job, as the item ends in its owning block (R152, R156). -/
def freed (c : Crew) : Crew :=
  if c.state = .offered then { c with state := .available, job := none, expiry := none }
  else { c with state := .available, job := none, declined := none }

/-- At most one crew is offered or holds each job. -/
def OneCrew (p : Part) : Prop :=
  ∀ a b c d j, p.dispatch.crews.get? a = some c → p.dispatch.crews.get? b = some d → c.job = some j →
    d.job = some j → a = b

theorem freed_job (c : Crew) : (freed c).job = none := by
  unfold freed
  split <;> rfl

section
variable {p : Part} {j : Job}

theorem endJob_crews (j : Job) (p : Part) :
    (endJob j p).dispatch = { p.dispatch with crews := (endJob j p).dispatch.crews } := by
  unfold endJob
  split
  · rfl
  · split <;> simp [Part.onCrew]

/-- An ended item leaves the part, or frees the one crew that has it (R152, R156). -/
theorem endJob_cases (j : Job) (w : p.dispatch.crews.wf 48 = true) :
    ((∀ id c, p.dispatch.crews.get? id = some c → c.job ≠ some j) ∧ endJob j p = p) ∨
      ∃ id c, p.dispatch.crews.get? id = some c ∧ c.job = some j ∧
        (endJob j p).dispatch.crews = p.dispatch.crews.set id (freed c) := by
  cases h : p.crewOn j with
  | none => exact .inl ⟨(crewOn_none w).mp h, endJob_none h⟩
  | some e =>
    obtain ⟨id, c⟩ := e
    obtain ⟨hc, job⟩ := crewOn_some w h
    refine .inr ⟨id, c, hc, job, ?_⟩
    unfold freed
    split
    next offered => simp [endJob_offered h hc offered]
    next held => simp [endJob_held h hc held]

theorem endJob_get? (w : p.dispatch.crews.wf 48 = true) (one : OneCrew p) (k : Nat) :
    (endJob j p).dispatch.crews.get? k =
      (p.dispatch.crews.get? k).map fun c => if c.job = some j then freed c else c := by
  rcases endJob_cases j w with ⟨none_, same⟩ | ⟨id, c, hc, job, crews⟩
  · rw [same]
    cases hc : p.dispatch.crews.get? k with
    | none => rfl
    | some c => simp [none_ k c hc]
  · rw [crews, get?_set]
    split
    next same => subst same; simp [hc, job]
    next other =>
      cases hd : p.dispatch.crews.get? k with
      | none => rfl
      | some d =>
        have free : d.job ≠ some j := fun job' => other (one k id d c j hd hc job' job)
        simp [free]

theorem endJob_crews_wf (w : p.dispatch.crews.wf 48 = true) : (endJob j p).dispatch.crews.wf 48 = true := by
  rcases endJob_cases j w with ⟨_, same⟩ | ⟨id, c, hc, _, crews⟩
  · rwa [same]
  · rw [crews]
    exact Laws.wf_set_used _ _ _ _ _ w hc

theorem endJob_oneCrew (w : p.dispatch.crews.wf 48 = true) (one : OneCrew p) : OneCrew (endJob j p) := by
  have back {k : Nat} {c : Crew} {i : Job} (h : (endJob j p).dispatch.crews.get? k = some c) (job : c.job = some i) :
      p.dispatch.crews.get? k = some c := by
    rw [endJob_get? w one] at h
    obtain ⟨d, hd, eq⟩ := Option.map_eq_some_iff.mp h
    split at eq
    · rw [← eq, freed_job] at job
      cases job
    · rw [← eq]; exact hd
  exact fun a b c d i hc hd jc jd => one a b c d i (back hc jc) (back hd jd) jc jd

/-- A crew after some items have ended. -/
def freeing (jobs : List Job) (c : Crew) : Crew := if (c.job.any fun j => decide (j ∈ jobs)) = true then freed c else c

theorem freeing_cons (jobs : List Job) (c : Crew) :
    freeing jobs (if c.job = some j then freed c else c) = freeing (j :: jobs) c := by
  by_cases job : c.job = some j
  · simp [freeing, job, freed_job]
  · cases hj : c.job with
    | none => simp [freeing, hj]
    | some i =>
      have other : i ≠ j := fun same => job (hj.trans (congrArg some same))
      simp [freeing, hj, other]

/-- Some items end, one after another: each crew with one of them is freed (R152, R156). -/
theorem released_endJobs (jobs : List Job) {told : Part} (h : told.dispatch = p.dispatch) :
    p.Released (jobs.foldl (fun p j => endJob j p) told) jobs := by
  refine ⟨?_, fun w one k => ?_⟩
  · rw [← h]
    clear h
    induction jobs generalizing told with
    | nil => rfl
    | cons j jobs ih => rw [List.foldl_cons, ih, endJob_crews]
  · rw [← h] at w one ⊢
    replace one : OneCrew told := one
    clear h
    induction jobs generalizing told with
    | nil => simp
    | cons j jobs ih =>
      rw [List.foldl_cons, ih (endJob_crews_wf w) (endJob_oneCrew w one), endJob_get? w one, Option.map_map]
      exact congrArg (Option.map · _) (funext fun c => freeing_cons jobs c)

theorem released_endJob (j : Job) {told : Part} (h : told.dispatch = p.dispatch) : p.Released (endJob j told) [j] :=
  released_endJobs [j] h

theorem released_nil {told : Part} (h : told.dispatch = p.dispatch) : p.Released told [] := released_endJobs [] h

end

/-! ## States -/

section
variable {p : Part} {id : Nat} {i : Incident}

theorem setIncidentState_of_get? (h : p.register.incidents.get? id = some i) (new : IncidentState) (cause : IncidentCause) :
    setIncidentState id new cause p = place (.incidentState id i.state new cause i.crew) (putIncident id { i with
      state := new, stateTime := p.time
      nextEscalation := if new.endsEscalation then none else i.nextEscalation } p) := by
  simp [setIncidentState, Part.incident?, h]

theorem makeSafe_of_get? (h : p.register.incidents.get? id = some i) (cause : IncidentCause) :
    makeSafe id cause p = if i.state = .opened then endJob ⟨.leak, id⟩ (setIncidentState id .madeSafe cause p)
      else setIncidentState id .madeSafe cause p := by
  simp [makeSafe, Part.incident?, h]

theorem eraseAll_get? {α : Type} (ns : List Nat) (t : Table α) (n : Nat) :
    (ns.foldl (fun t slot => t.erase slot) t).get? n = if n ∈ ns then none else t.get? n := by
  induction ns generalizing t with
  | nil => simp
  | cons k ns ih =>
    rw [List.foldl_cons, ih, get?_erase]
    by_cases listed : n ∈ ns <;> by_cases same : n = k <;> simp [listed, same]

section
variable {b : List Byte} (id_eq : u8 b 0 = id) (hid : id < 128) (h : p.register.incidents.get? id = some i)
include id_eq hid h

theorem incidentUpdateRule_act_safe (action : u8 b 1 = 0) (exposed : i.exposed) :
    incidentUpdateRule.act b p = ⟨.ok, [], dispatchDecide (makeSafe id .host p)⟩ := by
  simp only [incidentUpdateRule, id_eq, action, Part.incident?, h]
  rw [if_neg (by simp; omega)]
  rcases exposed with s | s | s <;> simp [s, IncidentState.admitsSafe, okWith]

theorem incidentUpdateRule_act_repaired (action : u8 b 1 = 1) (state : i.state = .onSite ∨ i.state = .madeSafe) :
    incidentUpdateRule.act b p = ⟨.ok, [], dispatchDecide (setIncidentState id .repaired .host p)⟩ := by
  simp only [incidentUpdateRule, id_eq, action, Part.incident?, h]
  rw [if_neg (by simp; omega)]
  rcases state with s | s <;> simp [s, IncidentState.admitsRepaired, okWith]

theorem incidentUpdateRule_act_close (action : u8 b 1 = 2) (open_ : i.state ≠ .closed)
    (free : i.state = .repaired ∨ p.planHolding id = none) :
    incidentUpdateRule.act b p = ⟨.ok, [], dispatchDecide (closeIncident id i p)⟩ := by
  simp only [incidentUpdateRule, id_eq, action, Part.incident?, h]
  rw [if_neg (by simp; omega)]
  rcases free with repaired | none_
  · simp [repaired, okWith]
  · by_cases repaired : i.state = .repaired <;> simp [repaired, open_, none_, okWith]

end

/-- What a CLOSE comes to before the arbiter decides (R142). -/
theorem closeIncident_spec (id : Nat) (i : Incident) (p : Part) : let r := closeIncident id i p
    let shut : Incident := { i with state := .closed, stateTime := p.time, nextEscalation := none, calls := [] }
    let told := place (.incidentState id i.state .closed .host i.crew) (refreshLamps { p with register := { p.register with
      calls := r.register.calls, incidents := p.register.incidents.set id shut } })
    r.register.incidents = p.register.incidents.set id { shut with crew := none, planLink := none } ∧
    r.register.calls = i.calls.foldl (fun t slot => t.erase slot) p.register.calls ∧
    r.dispatch = (endJob ⟨.leak, id⟩ told).dispatch ∧ r.link = (endJob ⟨.leak, id⟩ told).link ∧
    r.districts = p.districts.modify i.district (fun d => { d with openIncidents := d.openIncidents - 1 }) ∧
    r.plans = p.plans.map (fun _ q => if q.incident = some id then { q with incident := none } else q) ∧
    r.clock = p.clock ∧ r.points = p.points ∧ r.segments = p.segments ∧ r.valves = p.valves ∧ r.outages = p.outages := by
  have calls : (closeIncident id i p).register.calls = i.calls.foldl (fun t slot => t.erase slot) p.register.calls := by
    simp [closeIncident, putIncident]
  intro r shut told
  have told_eq : told = place (.incidentState id i.state .closed .host i.crew) (refreshLamps { p with
      register := { p.register with
        calls := i.calls.foldl (fun t slot => t.erase slot) p.register.calls
        incidents := p.register.incidents.set id shut } }) := by
    simp only [told, r, calls]
  refine ⟨?_, calls, ?_, ?_, ?_, ?_, ?_, ?_, ?_, ?_, ?_⟩
  · simp [r, closeIncident, putIncident, set_set, shut]
    rfl
  · rw [told_eq]; rfl
  · rw [told_eq]; rfl
  all_goals simp [r, closeIncident, putIncident, Part.onDistrict]

/-- Settles O50: the three actions, each up to the arbiter's decision. -/
theorem incidentUpdatesMoveTheState : Obligations.IncidentUpdatesMoveTheState := by
  intro tag id action i s ready hid hi body p done
  have id_eq : u8 body 0 = id := Nat.mod_eq_of_lt (by omega)
  have answer {q : Part} (act : incidentUpdateRule.act body p = ⟨.ok, [], q⟩) :
      exec (.incidentUpdate tag body) s = .next (s.answered q .ok []) :=
    request_ok (h := incidentUpdateRule) rfl tag ready.1 rfl (decide_eq_true ready.2) act
  refine ⟨fun action_eq exposed => ?_, fun action_eq state => ?_, fun action_eq open_ free => ?_⟩ <;> subst action_eq
  · have act := incidentUpdateRule_act_safe (p := p) id_eq hid hi rfl exposed
    rw [makeSafe_of_get? (p := p) hi, setIncidentState_of_get? (p := p) hi] at act
    refine ⟨_, ⟨answer act, ?_⟩, ?_⟩
    · split <;> simp [putIncident, IncidentState.endsEscalation]
    · refine ⟨?_, ?_, ?_, rfl, ?_⟩
      · split <;> simp [putIncident]
      · split <;> simp [putIncident]
      · split <;> simp [putIncident]
      · split
        · exact released_endJob _ (by simp)
        · exact released_nil (by simp)
  · have act := incidentUpdateRule_act_repaired (p := p) id_eq hid hi rfl state
    rw [setIncidentState_of_get? (p := p) hi] at act
    exact ⟨_, ⟨answer act, by simp [putIncident, IncidentState.endsEscalation]⟩, by simp [putIncident], by simp [putIncident],
      by simp [putIncident], rfl⟩
  · have act := incidentUpdateRule_act_close (p := p) id_eq hid hi rfl open_ free
    obtain ⟨incidents, calls, dispatch, link, districts, plans, clock, points, segments, valves, outages⟩ :=
      closeIncident_spec id i p
    have register (q : Part) : (dispatchDecide q).register = q.register := by simp
    refine ⟨_, ⟨answer act, ?_⟩, fun n => ?_, ?_, ⟨_, rfl, ?_, ?_⟩, fun n x hx => ?_⟩
    · simp [incidents, clock, points, segments, valves, outages]
    · simp [calls, eraseAll_get?]
    · simp [districts]
    · simp only [Part.Released, dispatch]
      exact released_endJob _ (by simp)
    · rw [register]
      exact ⟨dispatch, link⟩
    · have kept : p.plans.get? n = some x := hx
      simp only [Laws.f_dispatchDecide_plans, plans, Laws.get?_map, kept, Option.map_some]
      split <;> rfl

end

end Sys2Proof.Proofs
end


section
/-!
Deadlines brought forward, escalation and grades (R135–R140).
-/

namespace Sys2Proof.Proofs

open Sys2Proof Sys2Proof.Machine

/-- One incident has been rewritten, and nothing else of the register; the time is as before. -/
structure Rewritten (p q : Part) (id : Nat) (j : Incident) : Prop where
  clock : q.clock = p.clock
  register : q.register = { p.register with incidents := q.register.incidents }
  this : q.register.incidents.get? id = some j
  others : ∀ n, n ≠ id → q.register.incidents.get? n = p.register.incidents.get? n

section
variable {p q r : Part} {id : Nat} {i j k : Incident}

theorem Rewritten.trans (h : Rewritten p q id j) (h' : Rewritten q r id k) : Rewritten p r id k where
  clock := h'.clock.trans h.clock
  register := by rw [h'.register, h.register]
  this := h'.this
  others n other := (h'.others n other).trans (h.others n other)

theorem Rewritten.time (h : Rewritten p q id j) : q.time = p.time := by rw [Part.time, Part.time, h.clock]

theorem Rewritten.step (h : Rewritten p q id j) : q.escalationStep = p.escalationStep := by
  rw [Part.escalationStep, Part.escalationStep, h.register]

theorem rewritten_refl (h : p.register.incidents.get? id = some i) : Rewritten p p id i := ⟨rfl, rfl, h, fun _ _ => rfl⟩

theorem rewritten_putIncident (id : Nat) (i : Incident) (p : Part) : Rewritten p (putIncident id i p) id i :=
  ⟨rfl, rfl, Laws.get?_set_same _ _ _, fun _ other => Laws.get?_set_other _ _ _ _ other⟩

theorem rewritten_place (n : Notice) (h : Rewritten p q id j) : Rewritten p (place n q) id j where
  clock := by simp [h.clock]
  register := by simpa using h.register
  this := by simpa using h.this
  others n other := by simpa using h.others n other

theorem Rewritten.of_eq (h : Rewritten p q id j) (clock : r.clock = q.clock) (register : r.register = q.register) :
    Rewritten p r id j :=
  ⟨clock.trans h.clock, by rw [register, h.register], register ▸ h.this, fun n other => register ▸ h.others n other⟩

/-! ## Escalation -/

theorem escalateAt_of_get? (h : p.register.incidents.get? id = some i) (from_ : Nat) : escalateAt id from_ p =
    let level := min 7 (i.level + 1)
    let next := if level < 7 then some (from_ + 60 * p.register.interval) else none
    place (.incidentEscalated id level i.state i.deadline next)
      (putIncident id { i with level := level, nextEscalation := next } p) := by
  simp [escalateAt, Part.incident?, h, Part.escalationStep]

theorem unreached_iff : i.unreached = true ↔ i.state = .opened ∨ i.state = .assigned := by simp [Incident.unreached]

/-- What follows a deadline that may have been brought forward: of the incident as it was, and as it is (R140). -/
theorem followDeadline_spec {old : Incident} (h : p.register.incidents.get? id = some i) (level : i.level = old.level)
    (next : i.nextEscalation = old.nextEscalation) (state : i.state = old.state) :
    ∃ j, Rewritten p (followDeadline id old.deadline p) id j ∧ p.Followed old j ∧
      j = { i with level := j.level, nextEscalation := j.nextEscalation } := by
  have test : (decide (i.deadline < old.deadline) && i.unreached && decide (i.level = 0)) = true ↔
      i.deadline < old.deadline ∧ old.level = 0 ∧ (old.state = .opened ∨ old.state = .assigned) := by
    rw [← level, ← state, ← unreached_iff]
    simp only [Bool.and_eq_true, decide_eq_true_eq]
    tauto
  simp only [followDeadline, Part.incident?, h]
  by_cases follows : i.deadline < old.deadline ∧ old.level = 0 ∧ (old.state = .opened ∨ old.state = .assigned)
  · rw [if_pos (test.mpr follows)]
    have yes := follows
    obtain ⟨_, zero, _⟩ := follows
    split
    next later =>
      refine ⟨_, rewritten_putIncident _ _ _, ⟨fun no => absurd yes no, fun _ _ => ⟨level.trans zero, rfl⟩,
        fun _ came => ?_⟩, rfl⟩
      exact absurd later (Nat.not_lt.mpr came)
    next came =>
      rw [escalateAt_of_get? h]
      refine ⟨_, rewritten_place _ (rewritten_putIncident _ _ _), ⟨fun no => absurd yes no, fun _ later => ?_,
        fun _ _ => ?_⟩, rfl⟩
      · exact absurd later came
      · simp [level.trans zero]
  · rw [if_neg (test.not.mpr follows)]
    exact ⟨i, rewritten_refl h, ⟨fun _ => ⟨level, next⟩, fun yes => absurd yes follows, fun yes => absurd yes follows⟩, rfl⟩

theorem followed_congr {old now : Incident} (time : q.time = p.time) (interval : q.register.interval = p.register.interval)
    (h : q.Followed old now) : p.Followed old now := by
  rw [Part.Followed, time, interval] at h
  exact h

theorem Rewritten.followed (h : Rewritten p q id j) {old now : Incident} (f : q.Followed old now) : p.Followed old now :=
  followed_congr h.time (by rw [h.register]) f

/-- A grade rises: the deadline is brought forward, and the next escalation follows (R136, R140). -/
theorem raiseGrade_spec (h : p.register.incidents.get? id = some i) (g : Grade) (cause : UpgradeCause) (point : Option Nat) :
    ∃ j, Rewritten p (raiseGrade id g cause point p) id j ∧ p.Followed i j ∧ j = { i with
      grade := g, deadline := min i.deadline (i.openedTime + p.response g)
      level := j.level, nextEscalation := j.nextEscalation } := by
  have put := rewritten_place (.incidentUpgraded id i.grade g cause point (p.broughtForward i g))
    (rewritten_putIncident id { i with grade := g, deadline := p.broughtForward i g } p)
  obtain ⟨j, written, followed, eq⟩ := followDeadline_spec (old := i) put.this rfl rfl rfl
  refine ⟨j, ?_, put.followed followed, eq⟩
  simp only [raiseGrade, Part.incident?, h]
  exact put.trans written

theorem bringForward_closed (h : p.register.incidents.get? id = some i) (closed : i.state = .closed) :
    bringForward id p = p := by
  simp [bringForward, Part.incident?, h, closed]

/-- A deadline brought forward by SET_RESPONSE (R135, R136). -/
theorem bringForward_spec (h : p.register.incidents.get? id = some i) (open_ : i.state ≠ .closed) :
    ∃ j, Rewritten p (bringForward id p) id j ∧ p.Followed i j ∧ j = { i with
      deadline := min i.deadline (i.openedTime + p.response i.grade)
      level := j.level, nextEscalation := j.nextEscalation } := by
  have put := rewritten_putIncident id { i with deadline := p.broughtForward i i.grade } p
  obtain ⟨j, written, followed, eq⟩ := followDeadline_spec (old := i) put.this rfl rfl rfl
  refine ⟨j, ?_, put.followed followed, eq⟩
  simp only [bringForward, Part.incident?, h, open_, if_false]
  exact put.trans written

/-! ## SET_RESPONSE -/

/-- An incident before and after a SET_RESPONSE with some settings in force (R135, R140). -/
def Forwarded (p : Part) (i j : Incident) : Prop :=
  j = { i with deadline := j.deadline, level := j.level, nextEscalation := j.nextEscalation } ∧
    (i.state = .closed → j = i) ∧
    (i.state ≠ .closed → p.Followed i j ∧ j.deadline = min i.deadline (i.openedTime + p.response i.grade))

theorem Forwarded.congr {j : Incident} (h : Forwarded q i j) (time : q.time = p.time)
    (register : q.register = { p.register with incidents := q.register.incidents }) : Forwarded p i j := by
  obtain ⟨eq, closed, open_⟩ := h
  refine ⟨eq, closed, fun o => ?_⟩
  obtain ⟨followed, deadline⟩ := open_ o
  refine ⟨followed_congr time (by rw [register]) followed, deadline.trans ?_⟩
  have response : q.response i.grade = p.response i.grade := by
    unfold Part.response
    split <;> rw [register]
  rw [response]

/-- A deadline that is brought forward again stays. -/
theorem Forwarded.again (h : Forwarded p i j) (h' : Forwarded p j k) : k = j := by
  obtain ⟨eq, closed, open_⟩ := h
  obtain ⟨eq', closed', open'⟩ := h'
  have state : j.state = i.state := by rw [eq]
  by_cases shut : i.state = .closed
  · exact closed' (state.trans shut)
  · obtain ⟨_, deadline⟩ := open_ shut
    obtain ⟨⟨stays, _, _⟩, deadline'⟩ := open' (state ▸ shut)
    have same : k.deadline = j.deadline := by
      rw [deadline', deadline, show j.openedTime = i.openedTime by rw [eq], show j.grade = i.grade by rw [eq]]
      omega
    obtain ⟨level, next⟩ := stays fun follows => absurd follows.1 (by omega)
    rw [eq', same, level, next]

theorem forwarded_closed (closed : i.state = .closed) : Forwarded p i i :=
  ⟨rfl, fun _ => rfl, fun open_ => absurd closed open_⟩

/-- One incident's deadline brought forward, and the rest of the register. -/
theorem bringForward_forwarded (k : Nat) (p : Part) : (bringForward k p).clock = p.clock ∧
    (bringForward k p).register = { p.register with incidents := (bringForward k p).register.incidents } ∧
    (∀ n, n ≠ k → (bringForward k p).register.incidents.get? n = p.register.incidents.get? n) ∧
    ∀ i, p.register.incidents.get? k = some i →
      ∃ j, (bringForward k p).register.incidents.get? k = some j ∧ Forwarded p i j := by
  cases h : p.register.incidents.get? k with
  | none =>
    have same : bringForward k p = p := by unfold bringForward Part.incident?; rw [h]
    rw [same]
    exact ⟨rfl, rfl, fun _ _ => rfl, fun i hi => by cases hi⟩
  | some i =>
    by_cases closed : i.state = .closed
    · rw [bringForward_closed h closed]
      refine ⟨rfl, rfl, fun _ _ => rfl, fun i' hi => ?_⟩
      cases hi
      exact ⟨i, h, forwarded_closed closed⟩
    · obtain ⟨j, written, followed, eq⟩ := bringForward_spec h closed
      refine ⟨written.clock, written.register, written.others, fun i' hi => ?_⟩
      cases hi
      refine ⟨j, written.this, ?_, fun shut => absurd shut closed, fun _ => ⟨followed, ?_⟩⟩
      · rw [eq]
      · rw [eq]

/-- The incidents of a list of ids have their deadlines brought forward, in order. -/
theorem bringForward_fold (ids : List Nat) (p : Part) : let q := ids.foldl (fun p id => bringForward id p) p
    q.clock = p.clock ∧ q.register = { p.register with incidents := q.register.incidents } ∧
      ∀ id i, p.register.incidents.get? id = some i → ∃ j, q.register.incidents.get? id = some j ∧
        (id ∉ ids → j = i) ∧ (id ∈ ids → Forwarded p i j) := by
  induction ids generalizing p with
  | nil => exact ⟨rfl, rfl, fun id i hi => ⟨i, hi, fun _ => rfl, fun h => absurd h List.not_mem_nil⟩⟩
  | cons k ids ih =>
    obtain ⟨clock, register, these⟩ := ih (bringForward k p)
    obtain ⟨clock', register', others, this⟩ := bringForward_forwarded k p
    have time : (bringForward k p).time = p.time := by rw [Part.time, Part.time, clock']
    refine ⟨clock.trans clock', ?_, fun id i hi => ?_⟩
    · rw [List.foldl_cons, register, register']
    · by_cases same : id = k
      · subst same
        obtain ⟨j, hj, forwarded⟩ := this i hi
        obtain ⟨j', hj', stays, moves⟩ := these id j hj
        refine ⟨j', hj', fun out => absurd List.mem_cons_self out, fun _ => ?_⟩
        by_cases listed : id ∈ ids
        · rwa [forwarded.again ((moves listed).congr time register')]
        · rwa [stays listed]
      · obtain ⟨j, hj, stays, moves⟩ := these id i ((others id same).trans hi)
        refine ⟨j, hj, fun out => stays fun h => out (List.mem_cons_of_mem _ h), fun listed => ?_⟩
        exact (moves ((List.mem_cons.mp listed).resolve_left same)).congr time register'

theorem setResponseRule_act {b : List Byte} {x y z interval : Nat} (x_eq : u16 b 0 = x) (y_eq : u16 b 2 = y)
    (z_eq : u16 b 4 = z) (interval_eq : u8 b 6 = interval) (x1 : 10 ≤ x) (x2 : x ≤ 1440) (y1 : 10 ≤ y) (y2 : y ≤ 1440)
    (z1 : 10 ≤ z) (z2 : z ≤ 1440) (i1 : 5 ≤ interval) (i2 : interval ≤ 60) :
    setResponseRule.act b p = ⟨.ok, [], bringAllForward { p with register := { p.register with
      responseA := x, responseB := y, responseC := z, interval := interval } }⟩ := by
  simp only [setResponseRule, x_eq, y_eq, z_eq, interval_eq]
  rw [if_neg (by simp [within]; omega)]
  rfl

theorem bringAllForward_loading (h : p.link.partState = .loading) : bringAllForward p = p := by
  simp [bringAllForward, Part.isRunning, h]

theorem bringAllForward_running (h : p.link.partState = .running) : bringAllForward p =
    dispatchDecide (p.register.incidents.ids.foldl (fun p id => bringForward id p) p) := by
  simp [bringAllForward, Part.isRunning, h]

end

/-- Settles O51: the incidents one after another, and the escalation whose time has come. -/
theorem deadlinesAndEscalation : Obligations.DeadlinesAndEscalation := by
  refine ⟨fun tag a b c interval s free loaded a1 a2 b1 b2 c1 c2 i1 i2 => ?_, fun id t i s hi next => ⟨fun undue => ?_,
    fun came unreached => ?_⟩⟩
  · intro body p minutes p'
    have answer {q : Part} (h : bringAllForward p' = q) : exec (.setResponse tag body) s = .next (s.answered q .ok []) := by
      refine request_ok (h := setResponseRule) rfl tag free rfl (loadedOrLoading_of_ne loaded)
        ((setResponseRule_act (p := p) (x := a) (y := b) (z := c) (interval := interval) ?_ ?_ ?_ ?_ a1 a2 b1 b2 c1 c2 i1
          i2).trans (congrArg (Answer.mk _ _) h))
      all_goals
        simp only [body, u16, u8, be16, List.cons_append, List.nil_append, List.getD_cons_succ, List.getD_cons_zero,
          toNat_byte]
        omega
    refine ⟨fun loading => answer (bringAllForward_loading loading), fun running =>
      ⟨_, answer (bringAllForward_running running), ?_⟩⟩
    obtain ⟨_, register, these⟩ := bringForward_fold p'.register.incidents.ids p'
    have frame {γ : Type} (g : Part → γ) (keeps : ∀ q id, g (bringForward id q) = g q) :
        g (p'.register.incidents.ids.foldl (fun p id => bringForward id p) p') = g p' :=
      Laws.foldl_keeps g (fun p id => bringForward id p) keeps _ _
    rw [Laws.f_dispatchDecide_register, Laws.f_dispatchDecide_points, Laws.f_dispatchDecide_segments,
      Laws.f_dispatchDecide_valves, Laws.f_dispatchDecide_plans, Laws.f_dispatchDecide_outages]
    refine ⟨register, frame (·.points) (by simp), frame (·.segments) (by simp), frame (·.valves) (by simp),
      frame (·.plans) (by simp), frame (·.outages) (by simp), fun id i hi => ?_⟩
    obtain ⟨j, hj, _, moves⟩ := these id i hi
    obtain ⟨eq, closed, open_⟩ := moves (Laws.mem_ids_of_get? _ _ _ hi)
    refine ⟨j, hj, eq, closed, fun o => ?_⟩
    obtain ⟨followed, deadline⟩ := open_ o
    refine ⟨followed, deadline.trans ?_⟩
    cases i.grade <;> rfl
  · have stays : escalationDue id s.part = s.part := by
      simp only [escalationDue, Part.incident?, hi, next]
      rw [if_neg]
      simp only [Bool.and_eq_true, decide_eq_true_eq, unreached_iff]
      rintro ⟨came, reached⟩
      exact undue.elim (Nat.not_lt.mpr came) fun out => reached.elim out.1 out.2
    exact congrArg (fun q => Host.Outcome.next (s.withPart q)) stays
  · have moves : escalationDue id s.part = escalateAt id t s.part := by
      simp only [escalationDue, Part.incident?, hi, next]
      rw [if_pos]
      simp only [Bool.and_eq_true, decide_eq_true_eq, unreached_iff]
      exact ⟨came, unreached⟩
    exact congrArg (fun q => Host.Outcome.next (s.withPart q)) (moves.trans (escalateAt_of_get? hi t))

end Sys2Proof.Proofs
end


section
/-!
What one sample does to a point: the band machine, FALLING, discrete edges, and the record and notice of a delivery
(R48–R58).
-/

namespace Sys2Proof.Proofs

open Sys2Proof Sys2Proof.Machine

/-! ## Bands -/

section
variable {c : PressureSettings} {now f : Nat} {b : Band} {cand : Option Candidate}

/-- With rising thresholds, each band is indicated between its own (R52). -/
theorem indicated_iff (low : c.l2 < c.l1) (mid : c.l1 < c.h1) (high : c.h1 < c.h2) :
    (indicated c f = .lowTrip ↔ f ≤ c.l2) ∧ (indicated c f = .low ↔ c.l2 < f ∧ f ≤ c.l1) ∧
      (indicated c f = .normal ↔ c.l1 < f ∧ f < c.h1) ∧ (indicated c f = .high ↔ c.h1 ≤ f ∧ f < c.h2) ∧
      (indicated c f = .highTrip ↔ c.h2 ≤ f) := by
  unfold indicated
  split
  · simp; omega
  · split
    · simp; omega
    · split
      · simp; omega
      · split
        · simp; omega
        · simp; omega

theorem bandStep_worse (worse : (indicated c f).worse b = true) :
    (∀ k, cand = some k → bandStep c now b cand f = (b, some { k with band := indicated c f })) ∧
    (cand = none → c.rideThrough = 0 → bandStep c now b cand f = (indicated c f, none)) ∧
    (cand = none → 0 < c.rideThrough →
      bandStep c now b cand f = (b, some ⟨indicated c f, now, now + c.rideThrough⟩)) := by
  simp only [bandStep, worse, if_true]
  refine ⟨fun k some_ => ?_, fun none_ zero => ?_, fun none_ more => ?_⟩
  · simp [some_]
  · simp [none_, zero]
  · simp [none_, Nat.ne_of_gt more]

theorem worse_self (b : Band) : b.worse b = false := by cases b <;> rfl

theorem bandStep_holds (same : indicated c f = b) : bandStep c now b cand f = (b, none) := by
  simp [bandStep, same, worse_self]

theorem bandStep_eases (not_ : (indicated c f).worse b = false) (other : indicated c f ≠ b) :
    bandStep c now b cand f = (easeTo c b f, none) := by
  simp [bandStep, not_, other]

/-- Nothing is better than NORMAL. -/
theorem worse_normal {i : Band} (other : i ≠ .normal) : i.worse .normal = true := by
  cases i with
  | normal => exact absurd rfl other
  | low => rfl
  | lowTrip => rfl
  | high => rfl
  | highTrip => rfl

end

/-! ## FALLING -/

theorem fallingAfter_kept {limit : Nat} {h : List Nat} {before : Bool} (few : h.length ≠ 8 ∨ limit = 0) :
    fallingAfter limit h before = before := by
  unfold fallingAfter
  rw [if_neg (by simp; omega)]

theorem fallingAfter_tested {limit : Nat} {h : List Nat} {before : Bool} (full : h.length = 8) (some_ : 0 < limit) :
    fallingAfter limit h before = if before then decide (((limit / 2 : Nat) : Int) ≤ (h.headD 0 : Int) - h.getLastD 0)
      else decide ((limit : Int) ≤ (h.headD 0 : Int) - h.getLastD 0) := by
  unfold fallingAfter
  rw [if_pos (by simp [full, some_])]

/-! ## Samples -/

/-- A count is GOOD just when it gives a value (R49). -/
theorem convert_good_iff (cfg : PressureSettings) (count : Nat) :
    (convert cfg count).1 = .good ↔ ∃ v, (convert cfg count).2 = some v := by
  simp only [convert]
  split
  · split <;> simp
  · split
    · simp
    · split <;> simp

theorem pushHistory_eq {h : List Nat} (short : h.length ≤ 8) (f : Nat) :
    pushHistory h f = (h ++ [f]).drop (h.length + 1 - 8) := by
  unfold pushHistory
  split
  next few => rw [Nat.sub_eq_zero_of_le (by omega), List.drop_zero]
  next =>
    have eight : h.length = 8 := by omega
    rw [eight, List.drop_append_of_le_length (by omega)]

section
variable {c : PressureSettings} {now count : Nat} {q : Quality} {st : PressureState}

theorem sample_not_good (bad : (pressureSample c now q st count).1 ≠ .good) : (pressureSample c now q st count).2 =
    if q = .good then { st with history := [], falling := false, candidate := none } else st := by
  cases h : convert c count with
  | mk fault value =>
    cases value with
    | some v => exact absurd (by simp [pressureSample, h]) bad
    | none => simp only [pressureSample, h]; rfl

theorem sample_good (short : st.history.length ≤ 8) (good : (pressureSample c now q st count).1 = .good) :
    let r := pressureSample c now q st count
    ∃ f, r.2.filtered = some f ∧ r.2.history = (st.history ++ [f]).drop (st.history.length + 1 - 8) ∧
      r.2.falling = fallingAfter c.fallLimit r.2.history st.falling ∧
      (r.2.band, r.2.candidate) = bandStep c now st.band st.candidate f ∧
      r.2.lowSeen = (st.lowSeen || decide (r.2.band ≠ st.band ∧ r.2.band = .lowTrip)) := by
  cases h : convert c count with
  | mk quality value =>
    have conv := convert_good_iff c count
    rw [h] at conv
    cases value with
    | none =>
      have : quality = .good := by simpa [pressureSample, h] using good
      exact absurd (conv.mp this) (by simp)
    | some v =>
      refine ⟨filteredOf (filterStep c (q = .good) st.filter v), ?_⟩
      simp only [pressureSample, h, pushHistory_eq short]
      split
      next same => exact ⟨rfl, rfl, rfl, Prod.ext same.symm rfl, by simp⟩
      next other => simp [PressureState.enter, other]

end

/-! ## Discrete points -/

theorem matches_iff {m : EdgeMode} {raw : Bool} :
    m.matches raw = true ↔ m = .both ∨ (m = .rise ∧ raw = true) ∨ (m = .fall ∧ raw = false) := by
  cases m <;> simp [EdgeMode.matches]

section
variable {d : Discrete} {raw level : Bool}

theorem discreteSample_first (h : d.level = none) :
    discreteSample d raw = ({ d with level := some raw, stable := 0 }, none) := by
  simp [discreteSample, h]

theorem discreteSample_same (h : d.level = some level) (same : raw = level) :
    discreteSample d raw = ({ d with stable := 0 }, none) := by
  simp [discreteSample, h, same]

theorem discreteSample_bouncing (h : d.level = some level) (other : raw ≠ level) (early : d.stable + 1 < d.debounce) :
    discreteSample d raw = ({ d with stable := d.stable + 1 }, none) := by
  simp [discreteSample, h, other, early]

theorem discreteSample_edge (h : d.level = some level) (other : raw ≠ level) (stable : d.debounce ≤ d.stable + 1) :
    discreteSample d raw = if d.mode.matches raw = true then
      ({ d with level := some raw, stable := 0, pending := true }, some d.pending)
    else ({ d with level := some raw, stable := 0 }, none) := by
  simp [discreteSample, h, other, Nat.not_lt.mpr stable]

end

/-! ## Deliveries -/

section
variable {data : ReplyData} {id : Nat} {pt : Point} {p : Part} {h : HandOn} (hpt : p.points.get? id = some pt)
include hpt

theorem deliverPoint_pressure {seg : Option Nat} {c : PressureSettings} {st : PressureState} {count : Nat}
    (body : pt.body = .pressure seg c st) (got : data.counts[pt.input]? = some count) :
    let r := (pressureSample c p.time pt.quality st count).2
    deliverPoint data id (p, h) = (if st.band = r.band then putPoint id (pt.sampled data p.time) p
      else enterBand id (pt.sampled data p.time) st.band r .sample p, h.note id seg st r) := by
  simp only [deliverPoint, hpt, body, got, Point.sampled]

theorem deliverPoint_discrete {d : Discrete} (body : pt.body = .discrete d) :
    deliverPoint data id (p, h) = ((match (discreteSample d (data.word.getLsbD pt.input)).2 with
      | none => putPoint id (pt.sampled data p.time) p
      | some again => place (.discreteEdge id pt.district pt.group (data.word.getLsbD pt.input) again)
        (putPoint id (pt.sampled data p.time) p)), h) := by
  simp only [deliverPoint, hpt, body, Point.sampled]
  cases (discreteSample d (data.word.getLsbD pt.input)).2 <;> rfl

end

/-- Settles O32: each stage of a sample, and the record and notice of the delivery. -/
theorem bandsWorsenHoldAndEase : Obligations.BandsWorsenHoldAndEase := by
  refine ⟨fun c now f b cand order => ?_, fun limit h before => ⟨fallingAfter_kept, fun full some_ => ?_⟩,
    fun c now q st count short => ⟨sample_not_good, sample_good short⟩, fun d raw => ⟨discreteSample_first,
    fun level hl => ⟨discreteSample_same hl, discreteSample_bouncing hl, fun other stable => ?_⟩⟩,
    fun data id pt p h hpt => ⟨fun seg c st count body got => ?_, fun d body => ?_⟩⟩
  · intro i r
    obtain ⟨_, _, low, mid, high, _, _, _⟩ := ordered_iff.mp order
    obtain ⟨lowTrip, low, normal, high, highTrip⟩ := indicated_iff (f := f) low mid high
    refine ⟨lowTrip, low, normal, high, highTrip, bandStep_worse, bandStep_holds, fun not_ other => ?_⟩
    have eases : r = (easeTo c b f, none) := bandStep_eases not_ other
    rw [eases]
    refine ⟨rfl, fun e => by rw [e]; rfl, fun e => by rw [e]; rfl, fun e => by rw [e]; rfl, fun e => by rw [e]; rfl,
      fun e => ?_⟩
    rw [e] at not_ other
    exact absurd (worse_normal other) (by rw [not_]; decide)
  · simp [fallingAfter_tested full some_]
  · rw [discreteSample_edge hl other stable]
    exact ⟨fun yes => if_pos (matches_iff.mpr yes), fun no => if_neg (matches_iff.not.mpr no)⟩
  · have delivered := deliverPoint_pressure (h := h) hpt body got
    refine ⟨fun same => ?_, fun other => ?_⟩
    · rw [delivered]
      exact if_pos same.symm
    · rw [delivered]
      exact if_neg (Ne.symm other)
  · rw [deliverPoint_discrete hpt body]
    rfl

end Sys2Proof.Proofs
end


section
/-!
The dispatch arbiter: demand, the order of its items, the winner and its crew, and the run of decisions (R147–R150,
R157).
-/

namespace Sys2Proof.Proofs

open Sys2Proof Sys2Proof.Machine

/-! ## Demand and its order -/

theorem keyBefore_iff {a b : List Nat} : keyBefore a b = true ↔ a < b := by
  induction a generalizing b with
  | nil => cases b <;> simp [keyBefore]
  | cons x a ih => cases b <;> simp [keyBefore, ih, List.cons_lt_cons_iff]

section
variable {p : Part} {cls : JobClass} {i : Nat}

theorem firstInOrder_eq_none {l : List Nat} : p.firstInOrder cls l = none ↔ l = [] := by
  cases l with
  | nil => simp [Part.firstInOrder]
  | cons i l =>
    simp only [Part.firstInOrder, reduceCtorEq, iff_false]
    split
    · simp
    · split <;> simp

/-- The first item of some: no other has a smaller key (R147). -/
theorem firstInOrder_spec {l : List Nat} (h : p.firstInOrder cls l = some i) :
    i ∈ l ∧ ∀ j ∈ l, ¬ p.demandKey ⟨cls, j⟩ < p.demandKey ⟨cls, i⟩ := by
  induction l generalizing i with
  | nil => simp [Part.firstInOrder] at h
  | cons k l ih =>
    simp only [Part.firstInOrder] at h
    split at h
    next none_ =>
      obtain rfl := firstInOrder_eq_none.mp none_
      obtain rfl := Option.some.inj h
      simp
    next j first =>
      obtain ⟨listed, least⟩ := ih first
      split at h
      next before =>
        rw [keyBefore_iff] at before
        obtain rfl := Option.some.inj h
        refine ⟨List.mem_cons_of_mem _ listed, fun m hm => ?_⟩
        rcases List.mem_cons.mp hm with rfl | later
        · exact not_lt_of_gt before
        · exact least m later
      next before =>
        rw [keyBefore_iff] at before
        obtain rfl := Option.some.inj h
        refine ⟨List.mem_cons_self, fun m hm => ?_⟩
        rcases List.mem_cons.mp hm with rfl | later
        · exact lt_irrefl _
        · exact fun smaller => least m later (lt_of_lt_of_le smaller (not_lt.mp before))

/-- An item that no smaller key comes before stands no later (R147). -/
theorem noLater_of_key {i j : Nat} (h : ¬ p.demandKey ⟨cls, j⟩ < p.demandKey ⟨cls, i⟩) : p.noLater cls i j := by
  cases cls with
  | leak =>
    intro a b ha hb
    simp only [Part.demandKey, ha, hb, List.cons_lt_cons_iff, List.not_lt_nil, and_false, or_false] at h
    have same : a.grade.code = b.grade.code → a.grade = b.grade := by
      cases a.grade <;> cases b.grade <;> simp [Grade.code]
    by_cases eq : a.grade.code = b.grade.code
    · exact .inr ⟨same eq, by omega⟩
    · exact .inl (by omega)
  | valve =>
    intro a b ha hb
    have ha' : (p.valves.get? i).bind (·.operation) = some a := ha
    have hb' : (p.valves.get? j).bind (·.operation) = some b := hb
    simp only [Part.demandKey, ha', hb'] at h
    cases hoa : a.origin with
    | host => cases hob : b.origin with
      | host =>
        simp only [hoa, hob, List.cons_lt_cons_iff, and_false, or_false, true_and, lt_irrefl, false_or] at h
        show a.ordered < b.ordered ∨ (a.ordered = b.ordered ∧ i ≤ j)
        omega
      | plan r => simp [hoa, hob, List.cons_lt_cons_iff] at h
    | plan q => cases hob : b.origin with
      | host => trivial
      | plan r =>
        simp only [hoa, hob, List.cons_lt_cons_iff, and_false, or_false, true_and, lt_irrefl, false_or] at h
        show q < r ∨ (q = r ∧ (p.closeIndex q i < p.closeIndex q j ∨ (p.closeIndex q i = p.closeIndex q j ∧ i ≤ j)))
        by_cases same : q = r
        · subst same
          omega
        · omega
  | relight =>
    intro a b ha hb
    simp only [Part.demandKey, ha, hb, List.cons_lt_cons_iff, List.not_lt_nil, and_false, or_false] at h
    by_cases pa : 0 < a.priority <;> by_cases pb : 0 < b.priority <;> simp [pa, pb] at h ⊢ <;> omega

/-- Demand: what qualifies in its owning block, and no crew has (R147). -/
theorem mem_demand : i ∈ p.demand cls ↔ p.qualifies ⟨cls, i⟩ = true ∧ p.crewOn ⟨cls, i⟩ = none := by
  have listed (h : p.qualifies ⟨cls, i⟩ = true) : i ∈ (match cls with
      | .leak => p.register.incidents.ids
      | .valve => p.valves.ids
      | .relight => p.segments.ids) := by
    cases cls with
    | leak => cases hx : p.register.incidents.get? i with
      | none => simp [Part.qualifies, hx] at h
      | some x => exact Laws.mem_ids_of_get? _ _ _ hx
    | valve => cases hx : p.valves.get? i with
      | none => simp [Part.qualifies, hx] at h
      | some x => exact Laws.mem_ids_of_get? _ _ _ hx
    | relight => cases hx : p.segments.get? i with
      | none => simp [Part.qualifies, hx] at h
      | some x => exact Laws.mem_ids_of_get? _ _ _ hx
  simp only [Part.demand, List.mem_filter, Bool.and_eq_true, Option.isNone_iff_eq_none]
  exact ⟨fun h => h.2, fun h => ⟨by have := listed h.1; cases cls <;> exact this, h⟩⟩

theorem qualifies_leak : p.qualifies ⟨.leak, i⟩ = true ↔ ∃ x, p.register.incidents.get? i = some x ∧ x.state = .opened := by
  cases h : p.register.incidents.get? i <;> simp [Part.qualifies, h]

theorem qualifies_valve : p.qualifies ⟨.valve, i⟩ = true ↔ ∃ o, p.op? i = some o ∧ o.mode = .crew ∧ o.state = .pending := by
  unfold Part.op?
  cases h : (p.valves.get? i).bind (·.operation) <;> simp [Part.qualifies, h]

theorem qualifies_relight : p.qualifies ⟨.relight, i⟩ = true ↔
    ∃ x, p.segments.get? i = some x ∧ x.supply = .purged ∧ x.relit < x.customers := by
  cases h : p.segments.get? i <;> simp [Part.qualifies, h]

/-! ## Crews -/

theorem suits_iff {c : Crew} {j : Job} :
    c.suits j = true ↔ c.state = .available ∧ c.kind.serves j.cls = true ∧ c.declined ≠ some j := by
  simp [Crew.suits, and_assoc]

theorem serves_iff {k : CrewKind} {cls : JobClass} :
    k.serves cls = true ↔ (k = .emergency ∧ cls ≠ .relight) ∨ (k = .fitter ∧ cls ≠ .leak) := by
  cases k <;> cases cls <;> simp [CrewKind.serves]

theorem mem_suitable (w : p.dispatch.crews.wf 48 = true) {j : Job} {id : Nat} :
    id ∈ p.suitable j ↔ ∃ c, p.dispatch.crews.get? id = some c ∧ c.suits j = true := mem_idsWhere w

/-- The crew chosen: one of the item's home district before others, then the lowest (R150). -/
theorem chooseCrew_spec (w : p.dispatch.crews.wf 48 = true) (j : Job) :
    (p.chooseCrew j = none ↔ p.suitable j = []) ∧ ∀ crew, p.chooseCrew j = some crew → crew ∈ p.suitable j ∧
      ∀ k c d, k ∈ p.suitable j → p.dispatch.crews.get? crew = some c → p.dispatch.crews.get? k = some d →
        (c.home = p.jobDistrict j ∨ d.home ≠ p.jobDistrict j) ∧
        ((c.home = p.jobDistrict j ↔ d.home = p.jobDistrict j) → crew ≤ k) := by
  have home_test (c : Crew) : (c.suits j && decide (c.home = p.jobDistrict j)) = true ↔
      c.suits j = true ∧ c.home = p.jobDistrict j := by simp
  cases h : (p.dispatch.crews.idsWhere fun _ c => c.suits j && decide (c.home = p.jobDistrict j)) with
  | nil =>
    have away : ∀ k d, p.dispatch.crews.get? k = some d → d.suits j = true → d.home ≠ p.jobDistrict j := by
      intro k d hd suits home
      have : k ∈ (p.dispatch.crews.idsWhere fun _ c => c.suits j && decide (c.home = p.jobDistrict j)) :=
        (mem_idsWhere w).mpr ⟨d, hd, (home_test d).mpr ⟨suits, home⟩⟩
      rw [h] at this
      cases this
    have chosen : p.chooseCrew j = (p.suitable j).head? := by simp only [Part.chooseCrew, h]
    rw [chosen]
    refine ⟨List.head?_eq_none_iff, fun crew first => ⟨List.mem_of_mem_head? first, fun k c d hk hc hd => ?_⟩⟩
    obtain ⟨⟨c', hc', suits⟩, least⟩ := head?_idsWhere w first
    cases hc.symm.trans hc'
    obtain ⟨d', hd', suits'⟩ := (mem_suitable w).mp hk
    cases hd.symm.trans hd'
    exact ⟨.inr (away k d hd suits'), fun _ => least k d hd suits'⟩
  | cons crew rest =>
    have chosen : p.chooseCrew j = some crew := by simp only [Part.chooseCrew, h]
    obtain ⟨⟨c, hc, test⟩, least⟩ := head?_idsWhere (k := crew) w (by rw [h]; rfl)
    obtain ⟨suits, home⟩ := (home_test c).mp test
    have member : crew ∈ p.suitable j := (mem_suitable w).mpr ⟨c, hc, suits⟩
    rw [chosen]
    refine ⟨⟨by simp, fun empty => by rw [empty] at member; cases member⟩, fun crew' eq => ?_⟩
    cases eq
    refine ⟨member, fun k c' d hk hc' hd => ?_⟩
    cases hc.symm.trans hc'
    obtain ⟨d', hd', suits'⟩ := (mem_suitable w).mp hk
    cases hd.symm.trans hd'
    exact ⟨.inl home, fun same => least k d hd ((home_test d).mpr ⟨suits', same.mp home⟩)⟩

/-! ## The winner -/

/-- An item of demand that has a suitable crew. -/
def Waits (p : Part) (j : Job) : Prop := j.item ∈ p.demand j.cls ∧ p.suitable j ≠ []

theorem mem_waiting : i ∈ (p.demand cls).filter (fun i => !(p.suitable ⟨cls, i⟩).isEmpty) ↔ Waits p ⟨cls, i⟩ := by
  simp [Waits]

theorem contender_eq_none : p.contender cls = none ↔ ∀ i, ¬ Waits p ⟨cls, i⟩ := by
  rw [Part.contender, firstInOrder_eq_none, List.eq_nil_iff_forall_not_mem]
  exact forall_congr' fun i => mem_waiting.not

theorem contender_spec (h : p.contender cls = some i) :
    Waits p ⟨cls, i⟩ ∧ ∀ k, Waits p ⟨cls, k⟩ → p.noLater cls i k := by
  obtain ⟨listed, least⟩ := firstInOrder_spec h
  exact ⟨mem_waiting.mp listed, fun k hk => noLater_of_key (least k (mem_waiting.mpr hk))⟩

/-- A grade A LEAK item that has a suitable crew. -/
def Urgent (p : Part) (j : Job) : Prop :=
  Waits p j ∧ j.cls = .leak ∧ ∃ i, p.register.incidents.get? j.item = some i ∧ i.grade = .a

theorem mem_urgent : i ∈ (p.demand .leak).filter (fun i =>
    !(p.suitable ⟨.leak, i⟩).isEmpty && ((p.register.incidents.get? i).map (·.grade)) = some .a) ↔ Urgent p ⟨.leak, i⟩ := by
  simp [Urgent, Waits, and_assoc]

theorem gradeABypass_eq_none : p.gradeABypass = none ↔ ∀ j, ¬ Urgent p j := by
  rw [Part.gradeABypass, firstInOrder_eq_none, List.eq_nil_iff_forall_not_mem]
  refine ⟨fun h j urgent => ?_, fun h i => mem_urgent.not.mpr (h _)⟩
  obtain ⟨cls, item⟩ := j
  obtain ⟨_, rfl, _⟩ := id urgent
  exact h item (mem_urgent.mpr urgent)

theorem gradeABypass_spec (h : p.gradeABypass = some i) :
    Urgent p ⟨.leak, i⟩ ∧ ∀ k, Urgent p k → p.noLater .leak i k.item := by
  obtain ⟨listed, least⟩ := firstInOrder_spec h
  refine ⟨mem_urgent.mp listed, fun k urgent => ?_⟩
  obtain ⟨cls, item⟩ := k
  obtain ⟨_, rfl, _⟩ := id urgent
  exact noLater_of_key (least item (mem_urgent.mpr urgent))

/-- The best of some classes: the contender of the lowest level, ties to the earlier class (R149). -/
def BestOf (p : Part) (cs : List JobClass) (best : Option Job) : Prop :=
  (best = none → ∀ c ∈ cs, p.contender c = none) ∧
    ∀ b, best = some b → p.contender b.cls = some b.item ∧ ∀ c ∈ cs, p.contender c ≠ none →
      p.dispatch.levels.of b.cls < p.dispatch.levels.of c ∨
        (p.dispatch.levels.of b.cls = p.dispatch.levels.of c ∧ b.cls.code ≤ c.code)

theorem betterOf_best {cs : List JobClass} {best : Option Job} (h : BestOf p cs best)
    (among : ∀ b, best = some b → b.cls.code ≤ cls.code) (last : ∀ c ∈ cs, c.code ≤ cls.code) :
    BestOf p (cls :: cs) (p.betterOf best cls) := by
  obtain ⟨none_, some_⟩ := h
  unfold Part.betterOf
  cases hc : p.contender cls with
  | none =>
    refine ⟨fun empty => by simpa [hc] using none_ empty, fun b hb => ?_⟩
    obtain ⟨first, best⟩ := some_ b hb
    exact ⟨first, fun c listed => (List.mem_cons.mp listed).elim (fun same some_ => absurd (same ▸ hc) some_) (best c)⟩
  | some i =>
    cases best with
    | none =>
      refine ⟨by simp, fun b hb => ?_⟩
      cases hb
      refine ⟨hc, fun c listed some_ => ?_⟩
      rcases List.mem_cons.mp listed with rfl | earlier
      · exact .inr ⟨rfl, le_refl _⟩
      · exact absurd (none_ rfl c earlier) some_
    | some b =>
      obtain ⟨first, best⟩ := some_ b rfl
      dsimp only
      split
      next lower =>
        refine ⟨by simp, fun b' hb => ?_⟩
        cases hb
        refine ⟨hc, fun c listed some_ => ?_⟩
        rcases List.mem_cons.mp listed with rfl | earlier
        · exact .inr ⟨rfl, le_refl _⟩
        · have := best c earlier some_
          exact .inl (lt_of_lt_of_le lower (by omega))
      next higher =>
        refine ⟨by simp, fun b' hb => ?_⟩
        cases hb
        refine ⟨first, fun c listed some_ => ?_⟩
        rcases List.mem_cons.mp listed with rfl | earlier
        · have := among b rfl
          omega
        · exact best c earlier some_

theorem betterOf_cls {best : Option Job} {b : Job} (h : p.betterOf best cls = some b) : best = some b ∨ b.cls = cls := by
  unfold Part.betterOf at h
  split at h
  · exact .inl h
  · split at h
    · cases h; exact .inr rfl
    · split at h
      · cases h; exact .inr rfl
      · cases h; exact .inl rfl

/-- The winner without an urgent item: the best of the three classes (R149, step 2). -/
theorem best_of_classes (p : Part) : BestOf p [.relight, .valve, .leak]
    (p.betterOf (p.betterOf (p.betterOf none .leak) .valve) .relight) := by
  have leak : BestOf p [.leak] (p.betterOf none .leak) := betterOf_best ⟨by simp, by simp⟩ (by simp) (by simp)
  have cls_leak : ∀ b, p.betterOf none .leak = some b → b.cls.code ≤ JobClass.valve.code := fun b hb => by
    rcases betterOf_cls hb with none_ | same
    · cases none_
    · rw [same]; decide
  have valve : BestOf p [.valve, .leak] (p.betterOf (p.betterOf none .leak) .valve) :=
    betterOf_best leak cls_leak (by decide)
  refine betterOf_best valve (fun b hb => ?_) (by decide)
  cases b.cls <;> decide

theorem winner_of_urgent (h : p.gradeABypass = some i) : p.winner = some ⟨.leak, i⟩ := by simp [Part.winner, h]

theorem winner_of_none (h : p.gradeABypass = none) :
    p.winner = p.betterOf (p.betterOf (p.betterOf none .leak) .valve) .relight := by simp [Part.winner, h]

theorem mem_classes (cls : JobClass) : cls ∈ [JobClass.relight, .valve, .leak] := by cases cls <;> simp

theorem winner_eq_none : p.winner = none ↔ ∀ j, ¬ Waits p j := by
  cases h : p.gradeABypass with
  | some i =>
    rw [winner_of_urgent h]
    exact ⟨by simp, fun none_ => absurd (gradeABypass_spec h).1.1 (none_ _)⟩
  | none =>
    obtain ⟨none_, some_⟩ := best_of_classes p
    rw [winner_of_none h]
    refine ⟨fun empty j => contender_eq_none.mp (none_ empty j.cls (mem_classes _)) j.item, fun idle => ?_⟩
    rw [Option.eq_none_iff_forall_ne_some]
    exact fun b hb => idle b (contender_spec (some_ b hb).1).1

theorem winner_spec {j : Job} (h : p.winner = some j) : Waits p j ∧
    ((∃ k, Urgent p k) → Urgent p j ∧ ∀ k, Urgent p k → p.noLater .leak j.item k.item) ∧
    ((¬ ∃ k, Urgent p k) → ∀ k, Waits p k → (k.cls = j.cls → p.noLater j.cls j.item k.item) ∧
      (p.dispatch.levels.of j.cls < p.dispatch.levels.of k.cls ∨
        (p.dispatch.levels.of j.cls = p.dispatch.levels.of k.cls ∧ j.cls.code ≤ k.cls.code))) := by
  cases bypass : p.gradeABypass with
  | some i =>
    obtain ⟨urgent, first⟩ := gradeABypass_spec bypass
    cases (winner_of_urgent bypass).symm.trans h
    exact ⟨urgent.1, fun _ => ⟨urgent, first⟩, fun none_ => absurd ⟨_, urgent⟩ none_⟩
  | none =>
    rw [winner_of_none bypass] at h
    obtain ⟨contends, best⟩ := (best_of_classes p).2 j h
    obtain ⟨waits, first⟩ := contender_spec contends
    refine ⟨waits, fun ⟨k, urgent⟩ => absurd urgent (gradeABypass_eq_none.mp bypass k), fun _ k hk => ⟨fun same => ?_, ?_⟩⟩
    · exact first k.item (same ▸ hk)
    · exact best k.cls (mem_classes _) fun none_ => contender_eq_none.mp none_ k.item hk

end

end Sys2Proof.Proofs
end


section
/-!
The arbiter's decisions, one after another (R149, R150, R157).
-/

namespace Sys2Proof.Proofs

open Sys2Proof Sys2Proof.Machine

section
variable {p : Part} {j : Job} {crew : Nat}

theorem makeOffer_of_get? {c : Crew} (hc : p.dispatch.crews.get? crew = some c) : makeOffer j crew p =
    place (.crewOffer crew j.cls j.item (p.jobDistrict j)
      (if j.cls = .leak then (p.register.incidents.get? j.item).map (·.grade) else none)
      (p.time + p.dispatch.offerTime) c.home)
    { p with dispatch := { p.dispatch with
        levels := ⟨p.levelAfter j.cls .leak, p.levelAfter j.cls .valve, p.levelAfter j.cls .relight⟩
        crews := p.dispatch.crews.set crew { c with
          state := .offered, job := some j, declined := none, expiry := some (p.time + p.dispatch.offerTime) } } } := by
  simp only [makeOffer, hc, Option.map_some, Option.getD_some, Part.onCrew, modify_of_get? hc]

theorem levelAfter_eq (won cls : JobClass) : p.levelAfter won cls =
    if cls = won then p.dispatch.reloads.of cls
    else if p.demand cls = [] then p.dispatch.levels.of cls else p.dispatch.levels.of cls - 1 := by
  simp [Part.levelAfter]

/-- How many crews are AVAILABLE. -/
def spare (p : Part) : Nat := p.dispatch.crews.count fun _ c => decide (c.state = .available)

theorem makeOffer_crews {c : Crew} (hc : p.dispatch.crews.get? crew = some c) : (makeOffer j crew p).dispatch.crews =
    p.dispatch.crews.set crew { c with
      state := .offered, job := some j, declined := none, expiry := some (p.time + p.dispatch.offerTime) } := by
  rw [makeOffer_of_get? hc]
  simp

theorem makeOffer_wf (w : p.dispatch.crews.wf 48 = true) {c : Crew} (hc : p.dispatch.crews.get? crew = some c) :
    (makeOffer j crew p).dispatch.crews.wf 48 = true := by
  rw [makeOffer_crews hc]
  exact Laws.wf_set_used _ _ _ _ _ w hc

/-- Each offer takes one AVAILABLE crew. -/
theorem spare_makeOffer (w : p.dispatch.crews.wf 48 = true) {c : Crew} (hc : p.dispatch.crews.get? crew = some c)
    (available : c.state = .available) : spare (makeOffer j crew p) + 1 = spare p := by
  have counted := tally_set (g := fun _ c => if decide (c.state = .available) = true then 1 else 0) w hc { c with
    state := .offered, job := some j, declined := none, expiry := some (p.time + p.dispatch.offerTime) }
  rw [← count_eq_tally, ← count_eq_tally] at counted
  rw [spare, makeOffer_crews hc, spare]
  simpa [available] using counted

/-- The crew chosen for a winner is AVAILABLE, serves its class and has not declined it. -/
theorem chosen (w : p.dispatch.crews.wf 48 = true) (h : p.winner = some j) : ∃ crew c, p.chooseCrew j = some crew ∧
    p.dispatch.crews.get? crew = some c ∧ c.state = .available ∧ c.kind.serves j.cls = true ∧ c.declined ≠ some j ∧
    j.item ∈ p.demand j.cls := by
  obtain ⟨⟨wanted, some_⟩, _⟩ := winner_spec h
  obtain ⟨none_iff, choice⟩ := chooseCrew_spec w j
  cases hcrew : p.chooseCrew j with
  | none => exact absurd (none_iff.mp hcrew) some_
  | some crew =>
    obtain ⟨c, hc, suits⟩ := (mem_suitable w).mp (choice crew hcrew).1
    obtain ⟨available, serves, declined⟩ := suits_iff.mp suits
    exact ⟨crew, c, rfl, hc, available, serves, declined, wanted⟩

theorem winner_of_no_spare (w : p.dispatch.crews.wf 48 = true) (h : spare p = 0) : p.winner = none := by
  cases hw : p.winner with
  | none => rfl
  | some j =>
    obtain ⟨crew, c, _, hc, available, _⟩ := chosen w hw
    have := spare_makeOffer (j := j) w hc available
    omega

theorem decideLoop_none (n : Nat) (h : p.winner = none) : decideLoop n p = p := by
  cases n <;> simp [decideLoop, h]

theorem decideLoop_some (n : Nat) (h : p.winner = some j) (hc : p.chooseCrew j = some crew) :
    decideLoop (n + 1) p = decideLoop n (makeOffer j crew p) := by
  simp [decideLoop, h, hc]

/-- As many decisions as there are AVAILABLE crews are enough: none is due after them. -/
theorem decideLoop_enough (n : Nat) : ∀ {p : Part}, p.dispatch.crews.wf 48 = true → spare p ≤ n →
    (decideLoop n p).winner = none ∧ decideLoop (n + 1) p = decideLoop n p := by
  induction n with
  | zero =>
    intro p w few
    have none_ := winner_of_no_spare w (Nat.le_zero.mp few)
    exact ⟨none_, decideLoop_none _ none_⟩
  | succ n ih =>
    intro p w few
    cases h : p.winner with
    | none => rw [decideLoop_none _ h, decideLoop_none _ h]; exact ⟨h, rfl⟩
    | some j =>
      obtain ⟨crew, c, choice, hc, available, _⟩ := chosen w h
      have fewer := spare_makeOffer (j := j) w hc available
      obtain ⟨none_, same⟩ := ih (makeOffer_wf (j := j) w hc) (by omega)
      rw [decideLoop_some _ h choice, decideLoop_some _ h choice]
      exact ⟨none_, same⟩

theorem spare_le (p : Part) : spare p ≤ p.dispatch.crews.entries.length := List.length_filter_le _ _

theorem dispatchDecide_active (running : p.link.partState = .running) (attended : p.panel.supervision.unattended = false) :
    dispatchDecide p = decideLoop p.dispatch.crews.entries.length p := by
  simp [dispatchDecide, Part.isRunning, running, attended]

theorem dispatchDecide_resting (h : p.link.partState ≠ .running ∨ p.panel.supervision.unattended = true) :
    dispatchDecide p = p := by
  rcases h with h | h <;> simp [dispatchDecide, Part.isRunning, h]

theorem makeOffer_partState : (makeOffer j crew p).link.partState = p.link.partState :=
  (Laws.m_makeOffer j crew p).link.partState

theorem makeOffer_panel : (makeOffer j crew p).panel = p.panel := by simp [makeOffer, Part.onCrew]

/-- A decision that is due comes first, and the others follow it. -/
theorem dispatchDecide_winner (w : p.dispatch.crews.wf 48 = true) (running : p.link.partState = .running)
    (attended : p.panel.supervision.unattended = false) (h : p.winner = some j) {c : Crew}
    (choice : p.chooseCrew j = some crew) (hc : p.dispatch.crews.get? crew = some c) (available : c.state = .available) :
    dispatchDecide p = dispatchDecide (makeOffer j crew p) := by
  have fewer := spare_makeOffer (j := j) w hc available
  have bound := spare_le p
  have length : (makeOffer j crew p).dispatch.crews.entries.length = p.dispatch.crews.entries.length := by
    rw [makeOffer_crews hc]
    obtain ⟨before, after, split, written, _⟩ := entries_around w hc
    simp [written, split]
  rw [dispatchDecide_active running attended,
    dispatchDecide_active (makeOffer_partState.trans running) (by rw [makeOffer_panel]; exact attended), length]
  obtain ⟨n, hn⟩ : ∃ n, p.dispatch.crews.entries.length = n + 1 := ⟨p.dispatch.crews.entries.length - 1, by omega⟩
  rw [hn, decideLoop_some _ h choice]
  exact ((decideLoop_enough n (makeOffer_wf (j := j) w hc) (by omega)).2).symm

/-- The arbiter changes only the link, the crews and the levels. -/
theorem decideLoop_frame (n : Nat) (p : Part) :
    decideLoop n p = { p with link := (decideLoop n p).link, dispatch := (decideLoop n p).dispatch } := by
  induction n generalizing p with
  | zero => rfl
  | succ n ih =>
    cases h : p.winner with
    | none => rw [decideLoop_none _ h]
    | some j => cases hc : p.chooseCrew j with
      | none =>
        have same : decideLoop (n + 1) p = p := by simp [decideLoop, h, hc]
        rw [same]
      | some crew =>
        rw [decideLoop_some _ h hc, ih]
        rfl

theorem dispatchDecide_frame (p : Part) :
    dispatchDecide p = { p with link := (dispatchDecide p).link, dispatch := (dispatchDecide p).dispatch } := by
  unfold dispatchDecide
  split
  · exact decideLoop_frame _ _
  · rfl

end

/-- Settles O53: the run of decisions, one offer, and the order that picks the winner and its crew. -/
theorem theArbiterDecides : Obligations.TheArbiterDecides := by
  refine ⟨⟨fun p w => ⟨dispatchDecide_frame p, dispatchDecide_resting, fun running attended => ⟨fun cls i wanted => ?_,
    fun none_ => ?_, fun j h => ?_⟩⟩, fun j crew c p hc => ?_⟩, fun p w => ⟨fun cls i => ?_, fun j id => ?_,
    winner_eq_none, fun j h => winner_spec h, fun j => chooseCrew_spec w j, fun i x hx => ?_, fun v x a hx ha => ?_,
    fun i x hx => ?_⟩⟩
  · rw [dispatchDecide_active running attended] at wanted ⊢
    have idle := winner_eq_none.mp (decideLoop_enough _ w (spare_le p)).1 ⟨cls, i⟩
    by_contra some_
    exact idle ⟨wanted, some_⟩
  · rw [dispatchDecide_active running attended, decideLoop_none _ none_]
  · obtain ⟨crew, c, choice, hc, available, serves, declined, wanted⟩ := chosen w h
    exact ⟨crew, c, choice, hc, available, serves, declined, wanted,
      dispatchDecide_winner w running attended h choice hc available⟩
  · intro q
    have offer := makeOffer_of_get? (p := p) (j := j) hc
    refine ⟨makeOffer_crews hc, ?_, ?_, fun cls => ?_, ?_, ?_⟩
    · simp [q, offer]
    · simp [q, offer]
    · have levels : q.dispatch.levels.of cls = p.levelAfter j.cls cls := by
        simp only [q, offer, Laws.place_dispatch]
        cases cls <;> rfl
      rw [levels, levelAfter_eq]
    · exact offer.trans (by simp only [q, offer]; rfl)
    · simp only [q, offer]
      rfl
  · rw [mem_demand, crewOn_none w, and_comm]
    refine and_congr_right fun _ => ?_
    cases cls with
    | leak => exact qualifies_leak
    | valve => exact qualifies_valve
    | relight => exact qualifies_relight
  · rw [mem_suitable w]
    refine exists_congr fun c => and_congr_right fun _ => ?_
    rw [suits_iff, serves_iff]
    tauto
  · simp [Part.jobDistrict, hx]
  · simp [Part.jobDistrict, Part.districtOf, hx, ha]
  · simp [Part.jobDistrict, Part.districtOf, hx]

end Sys2Proof.Proofs
end


section
/-!
The supply trace: its reached set is what gas can reach, past valves taken as CLOSED and segments kept out (R91, R92,
R105).
-/

namespace Sys2Proof.Proofs

open Sys2Proof Sys2Proof.Machine

section
variable {p : Part} {w : View} {shut barred : List Nat} {t u : TraceState}

theorem has_trace_iff {s : Nat} : t.has s = true ↔ ∃ f, (s, f) ∈ t.reached := by
  simp [TraceState.has]

/-- A trace state that has grown: what was entered joined the work list too. -/
def Grown (t u : TraceState) : Prop :=
  ∃ new : List (Nat × Nat), u.reached = t.reached ++ new ∧ u.work = t.work ++ new.map (·.1)

theorem grown_refl (t : TraceState) : Grown t t := ⟨[], by simp, by simp⟩

theorem Grown.trans {x : TraceState} (h : Grown t u) (h' : Grown u x) : Grown t x := by
  obtain ⟨new, reached, work⟩ := h
  obtain ⟨new', reached', work'⟩ := h'
  exact ⟨new ++ new', by simp [reached', reached], by simp [work', work]⟩

theorem Grown.has (h : Grown t u) {s : Nat} (hs : t.has s = true) : u.has s = true := by
  obtain ⟨new, reached, _⟩ := h
  obtain ⟨f, hf⟩ := has_trace_iff.mp hs
  exact has_trace_iff.mpr ⟨f, by simp [reached, hf]⟩

/-- What has been entered since stands in the work list. -/
theorem Grown.entered (h : Grown t u) {s : Nat} (hs : u.has s = true) : t.has s = true ∨ s ∈ u.work := by
  obtain ⟨new, reached, work⟩ := h
  obtain ⟨f, hf⟩ := has_trace_iff.mp hs
  rw [reached, List.mem_append] at hf
  refine hf.imp (fun old => has_trace_iff.mpr ⟨f, old⟩) fun entered => ?_
  rw [work]
  exact List.mem_append_right _ (List.mem_map_of_mem (f := (·.1)) entered)

/-- A trace state that gas explains: each entry reached from its live feed, once, and the work among the entries. -/
structure Explained (p : Part) (w : View) (shut barred : List Nat) (t : TraceState) : Prop where
  sound : ∀ e ∈ t.reached, ReachesPast p w shut barred e.1 ∧ e.2 ∈ w.liveFeeds ∧ p.segments.has e.1 = true
  nodup : (t.reached.map (·.1)).Nodup
  work : ∀ s ∈ t.work, t.has s = true

/-- A segment that is entered, unless it is kept out. -/
theorem reach_explained (h : Explained p w shut barred t) {s f : Nat}
    (reaches : s ∉ barred → ReachesPast p w shut barred s) (live : f ∈ w.liveFeeds) (defined : p.segments.has s = true) :
    Explained p w shut barred (t.reach barred s f) ∧ Grown t (t.reach barred s f) ∧
      (s ∉ barred → (t.reach barred s f).has s = true) := by
  unfold TraceState.reach
  split
  next skip =>
    refine ⟨h, grown_refl t, fun kept => ?_⟩
    rcases Bool.or_eq_true_iff.mp skip with has | out
    · exact has
    · exact absurd (List.contains_iff_mem.mp out) kept
  next enter =>
    have new : t.has s = false ∧ s ∉ barred := by simpa using enter
    have grown : Grown t ⟨t.reached ++ [(s, f)], t.work ++ [s]⟩ := ⟨[(s, f)], rfl, rfl⟩
    have has : TraceState.has ⟨t.reached ++ [(s, f)], t.work ++ [s]⟩ s = true := has_trace_iff.mpr ⟨f, by simp⟩
    refine ⟨⟨fun e he => ?_, ?_, fun x hx => ?_⟩, grown, fun _ => has⟩
    · rcases List.mem_append.mp he with old | this
      · exact h.sound e old
      · rw [List.mem_singleton.mp this]
        exact ⟨reaches new.2, live, defined⟩
    · rw [List.map_append, List.nodup_append]
      refine ⟨h.nodup, by simp, fun x hx y hy same => ?_⟩
      obtain ⟨e, he, rfl⟩ := List.mem_map.mp hx
      obtain rfl : y = s := by simpa using hy
      have : t.has e.1 = true := has_trace_iff.mpr ⟨e.2, he⟩
      rw [same, new.1] at this
      cases this
    · rcases List.mem_append.mp hx with old | this
      · exact grown.has (h.work x old)
      · rw [List.mem_singleton.mp this]
        exact has

/-- Every segment that a valve of a segment leads to is entered, or kept out. -/
def Led (p : Part) (w : View) (shut barred : List Nat) (t : TraceState) (s v : Nat) : Prop :=
  ∀ valve, p.valves.get? v = some valve → w.isOpen v = true → v ∉ shut → valve.otherEnd s ∉ barred →
    t.has (valve.otherEnd s) = true

theorem Led.grow {s v : Nat} (h : Led p w shut barred t s v) (g : Grown t u) : Led p w shut barred u s v :=
  fun valve hv open_ free kept => g.has (h valve hv open_ free kept)

theorem otherEnd_defined (ends : p.endsDefined) {v : Nat} {valve : Valve} (hv : p.valves.get? v = some valve) (s : Nat) :
    p.segments.has (valve.otherEnd s) = true := by
  unfold Valve.otherEnd
  split
  · exact (ends.1 v valve hv).2
  · exact (ends.1 v valve hv).1

/-- The valves of a segment are examined one after another. -/
theorem traceValve_fold (ends : p.endsDefined) {s f : Nat} (reaches : ReachesPast p w shut barred s)
    (live : f ∈ w.liveFeeds) {vs : List Nat} (listed : ∀ v ∈ vs, v ∈ p.valveList s) :
    ∀ {t}, Explained p w shut barred t → let u := vs.foldl (traceValve p w shut barred s f) t
      Explained p w shut barred u ∧ Grown t u ∧ ∀ v ∈ vs, Led p w shut barred u s v := by
  induction vs with
  | nil => exact fun {t} h => ⟨h, grown_refl t, by simp⟩
  | cons v vs ih =>
    intro t h
    have first : Explained p w shut barred (traceValve p w shut barred s f t v) ∧
        Grown t (traceValve p w shut barred s f t v) ∧ Led p w shut barred (traceValve p w shut barred s f t v) s v := by
      unfold traceValve
      split
      next none_ => exact ⟨h, grown_refl t, fun valve hv => by simp [none_] at hv⟩
      next valve hv =>
        split
        next passes =>
          have pass : w.isOpen v = true ∧ v ∉ shut := by simpa using passes
          obtain ⟨explained, grown, has⟩ := reach_explained h (s := valve.otherEnd s) (f := f)
            (fun kept => .valve s v valve reaches (listed v List.mem_cons_self) hv pass.1 pass.2 kept) live
            (otherEnd_defined ends hv s)
          refine ⟨explained, grown, fun valve' hv' _ _ kept => ?_⟩
          cases hv.symm.trans hv'
          exact has kept
        next stops => exact ⟨h, grown_refl t, fun _ _ open_ free => absurd (by simp [open_, free]) stops⟩
    obtain ⟨explained, grown, led⟩ := first
    obtain ⟨explained', grown', led'⟩ := ih (fun v' h' => listed v' (List.mem_cons_of_mem _ h')) explained
    refine ⟨explained', grown.trans grown', fun v' h' => ?_⟩
    rcases List.mem_cons.mp h' with rfl | later
    · exact led.grow grown'
    · exact led' v' later

/-- Every entry either waits in the work list or has led on. -/
def Settled (p : Part) (w : View) (shut barred : List Nat) (t : TraceState) : Prop :=
  ∀ s, t.has s = true → s ∈ t.work ∨ ∀ v ∈ p.valveList s, Led p w shut barred t s v

theorem reached_length_le (h : Explained p w shut barred t) : t.reached.length ≤ p.segments.entries.length := by
  have inside : (t.reached.map (·.1)) ⊆ p.segments.ids := fun s hs => by
    obtain ⟨e, he, rfl⟩ := List.mem_map.mp hs
    obtain ⟨x, hx⟩ := has_iff.mp (h.sound e he).2.2
    exact Laws.mem_ids_of_get? _ _ _ hx
  have := (h.nodup.subperm inside).length_le
  simpa [Table.ids] using this

/-- With a turn for each segment, the work list runs empty (R92). -/
theorem traceWork_spec (ends : p.endsDefined) (n : Nat) : ∀ {t}, Explained p w shut barred t →
    Settled p w shut barred t → t.work.length + (p.segments.entries.length - t.reached.length) ≤ n →
    let u := traceWork p w shut barred n t
    Explained p w shut barred u ∧ Settled p w shut barred u ∧ u.work = [] ∧ ∀ s, t.has s = true → u.has s = true := by
  induction n with
  | zero =>
    intro t h settled few
    have empty : t.work.length = 0 := by omega
    exact ⟨h, settled, List.length_eq_zero_iff.mp empty, fun _ hs => hs⟩
  | succ n ih =>
    intro t h settled few
    unfold traceWork
    split
    next empty => exact ⟨h, settled, empty, fun _ hs => hs⟩
    next s rest work =>
      obtain ⟨f, hf⟩ := has_trace_iff.mp (h.work s (by simp [work]))
      obtain ⟨f', found⟩ : ∃ f', findEntry s t.reached = some f' := by
        cases hfind : findEntry s t.reached with
        | some f' => exact ⟨f', rfl⟩
        | none =>
          have absent (es : List (Nat × Nat)) (none_ : findEntry s es = none) : ∀ g, (s, g) ∉ es := by
            induction es with
            | nil => simp
            | cons e es ih =>
              obtain ⟨i, a⟩ := e
              by_cases same : i = s
              · simp [findEntry, same] at none_
              · have later : findEntry s es = none := by simpa [findEntry, same] using none_
                simp [Ne.symm same, ih later]
          exact absurd hf (absent _ hfind f)
      have entry := h.sound (s, f') (Laws.mem_of_get? ⟨t.reached⟩ s f' found)
      have reaches : ReachesPast p w shut barred s := entry.1
      have live : f' ∈ w.liveFeeds := entry.2.1
      rw [found, Option.getD_some]
      have rest_explained : Explained p w shut barred { t with work := rest } :=
        ⟨h.sound, h.nodup, fun x hx => h.work x (by simp [work, hx])⟩
      obtain ⟨explained, grown, led⟩ := traceValve_fold ends reaches live (vs := p.valveList s) (fun _ hv => hv) rest_explained
      have settled' : Settled p w shut barred
          ((p.valveList s).foldl (traceValve p w shut barred s f') { t with work := rest }) := fun x hx => by
        rcases grown.entered hx with old | waits
        · rcases settled x old with waited | done
          · rw [work] at waited
            rcases List.mem_cons.mp waited with rfl | later
            · exact .inr led
            · obtain ⟨new, _, work'⟩ := grown
              exact .inl (by rw [work']; exact List.mem_append_left _ later)
          · exact .inr fun v hv => Led.grow (t := { t with work := rest }) (done v hv) grown
        · exact .inl waits
      have fewer : ((p.valveList s).foldl (traceValve p w shut barred s f') { t with work := rest }).work.length +
          (p.segments.entries.length -
            ((p.valveList s).foldl (traceValve p w shut barred s f') { t with work := rest }).reached.length) ≤ n := by
        have bound := reached_length_le explained
        obtain ⟨new, reached', work'⟩ := grown
        have entered := congrArg List.length reached'
        have waiting := congrArg List.length work'
        simp only [List.length_append, List.length_map] at entered waiting
        rw [work, List.length_cons] at few
        omega
      obtain ⟨final, final', empty, kept⟩ := ih explained settled' fewer
      exact ⟨final, final', empty, fun x hx => kept x (grown.has hx)⟩

/-- The feeds enter their segments (R91). -/
theorem traceFeeds_fold (ends : p.endsDefined) {fs : List Nat} (live : ∀ f ∈ fs, f ∈ w.liveFeeds) :
    ∀ {t}, Explained p w shut barred t →
      let u := fs.foldl (fun t f => match p.feeds.get? f with
        | none => t
        | some fd => t.reach barred fd.segment f) t
      Explained p w shut barred u ∧ Grown t u ∧
        ∀ f ∈ fs, ∀ fd, p.feeds.get? f = some fd → fd.segment ∉ barred → u.has fd.segment = true := by
  induction fs with
  | nil => exact fun {t} h => ⟨h, grown_refl t, by simp⟩
  | cons f fs ih =>
    intro t h
    rw [List.foldl_cons]
    have rest : ∀ f' ∈ fs, f' ∈ w.liveFeeds := fun f' h' => live f' (List.mem_cons_of_mem _ h')
    cases hf : p.feeds.get? f with
    | none =>
      obtain ⟨explained, grown, has⟩ := ih rest h
      refine ⟨explained, grown, fun f' h' fd hfd => ?_⟩
      rcases List.mem_cons.mp h' with rfl | later
      · rw [hf] at hfd; cases hfd
      · exact has f' later fd hfd
    | some fd =>
      obtain ⟨explained, grown, has⟩ := reach_explained h (s := fd.segment) (f := f)
        (fun kept => .feed f fd (live f List.mem_cons_self) hf kept) (live f List.mem_cons_self) (ends.2 f fd hf)
      obtain ⟨explained', grown', has'⟩ := ih rest explained
      refine ⟨explained', grown.trans grown', fun f' h' fd' hfd kept => ?_⟩
      rcases List.mem_cons.mp h' with rfl | later
      · cases hf.symm.trans hfd
        exact grown'.has (has kept)
      · exact has' f' later fd' hfd kept

/-- The reached set of a trace is what gas reaches, each entry from a live feed (R91, R92, R105). -/
theorem supplyTrace_spec (ends : p.endsDefined) (w : View) (shut barred : List Nat) :
    (∀ s, (∃ f, (s, f) ∈ supplyTrace p w shut barred) ↔ ReachesPast p w shut barred s) ∧
      ∀ s f, (s, f) ∈ supplyTrace p w shut barred → f ∈ w.liveFeeds := by
  obtain ⟨explained, grown, fed⟩ := traceFeeds_fold (p := p) (w := w) (shut := shut) (barred := barred) ends
    (fs := w.liveFeeds) (fun _ h => h) (t := ⟨[], []⟩) ⟨by simp, by simp, by simp⟩
  have waiting : Settled p w shut barred (traceFeeds p w barred) := fun s hs =>
    (grown.entered hs).elim (fun no => by cases no) .inl
  have few : (traceFeeds p w barred).work.length +
      (p.segments.entries.length - (traceFeeds p w barred).reached.length) ≤ p.segments.entries.length + 1 := by
    have bound := reached_length_le explained
    obtain ⟨new, reached, work⟩ := grown
    have reached' : (traceFeeds p w barred).reached = new := reached
    have work' : (traceFeeds p w barred).work = new.map (·.1) := work
    have bound' : (traceFeeds p w barred).reached.length ≤ p.segments.entries.length := bound
    rw [work', List.length_map, ← reached']
    omega
  obtain ⟨final, settled, empty, kept⟩ := traceWork_spec ends _ explained waiting few
  refine ⟨fun s => ⟨fun ⟨f, hf⟩ => (final.sound _ hf).1, fun reaches => ?_⟩, fun s f hf => (final.sound _ hf).2.1⟩
  refine has_trace_iff.mp ?_
  induction reaches with
  | feed f fd hf hg hk => exact kept _ (fed f hf fd hg hk)
  | valve a v valve ha hv hg ho hs hk ih =>
    rcases settled a ih with waits | led
    · exact absurd waits (by rw [empty]; simp)
    · exact led v hv valve hg ho hs hk

theorem reachesPast_nil {s : Nat} : ReachesPast p w [] [] s ↔ Reaches p w s := by
  constructor
  · intro h
    induction h with
    | feed f fd hf hg _ => exact .feed f fd hf hg
    | valve a v valve _ hv hg ho _ _ ih => exact .valve a v valve ih hv hg ho
  · intro h
    induction h with
    | feed f fd hf hg => exact .feed f fd hf hg (by simp)
    | valve a v valve _ hv hg ho ih => exact .valve a v valve ih hv hg ho (by simp) (by simp)

end

/-- Settles O39: the reached set of the trace, with no valve and no segment left out. -/
theorem traceFindsWhatGasReaches : Obligations.TraceFindsWhatGasReaches := by
  intro p w ends
  obtain ⟨reached, live⟩ := supplyTrace_spec ends w [] []
  exact ⟨fun s => (reached s).trans reachesPast_nil, live⟩

end Sys2Proof.Proofs
end


section
/-!
The area search of a plan and what a plan job comes to (R103–R105).
-/

namespace Sys2Proof.Proofs

open Sys2Proof Sys2Proof.Machine

section
variable {p : Part} {w : View} {target : Nat} {s u : Search}

/-- An open inoperable valve of a segment leads on to another. -/
def LeadsOn (p : Part) (w : View) (a b : Nat) : Prop :=
  ∃ v ∈ p.valveList a, ∃ valve, p.valves.get? v = some valve ∧ w.isOpen v = true ∧ v ∈ w.inoperable ∧ valve.otherEnd a = b

/-- What every state of an area search holds (R103, R104). -/
structure Searching (p : Part) (w : View) (target : Nat) (s : Search) : Prop where
  starts : target ∈ s.area
  chain : ∀ pre b post, s.area = pre ++ b :: post → (pre = [] ∧ b = target) ∨ ∃ a ∈ pre, LeadsOn p w a b
  nodup : s.area.Nodup
  few : s.area.length ≤ 32
  closeOnce : s.close.Nodup
  holdOnce : s.hold.Nodup
  close : ∀ v ∈ s.close, w.isOpen v = true ∧ v ∉ w.inoperable ∧ ∃ a ∈ s.area, v ∈ p.valveList a
  hold : ∀ v ∈ s.hold, w.isOpen v = false ∧ ∃ a ∈ s.area, v ∈ p.valveList a
  work : ∀ x ∈ s.work, x ∈ s.area
  large : s.tooLarge = true → s.area.length = 32 ∧ ∃ a ∈ s.area, ∃ b, LeadsOn p w a b ∧ b ∉ s.area

/-- A search that has gone on: what joined the area joined the work list, and nothing has left. -/
structure GoneOn (s u : Search) : Prop where
  area : ∃ new, u.area = s.area ++ new ∧ u.work = s.work ++ new
  close : s.close ⊆ u.close
  hold : s.hold ⊆ u.hold
  small : u.tooLarge = false → s.tooLarge = false

theorem goneOn_refl (s : Search) : GoneOn s s := ⟨⟨[], by simp, by simp⟩, fun _ h => h, fun _ h => h, fun h => h⟩

theorem GoneOn.trans {x : Search} (h : GoneOn s u) (h' : GoneOn u x) : GoneOn s x := by
  obtain ⟨new, area, work⟩ := h.area
  obtain ⟨new', area', work'⟩ := h'.area
  exact ⟨⟨new ++ new', by simp [area', area], by simp [work', work]⟩, fun _ m => h'.close (h.close m),
    fun _ m => h'.hold (h.hold m), fun small => h.small (h'.small small)⟩

theorem GoneOn.mem (h : GoneOn s u) {x : Nat} (hx : x ∈ s.area) : x ∈ u.area := by
  obtain ⟨new, area, _⟩ := h.area
  rw [area]
  exact List.mem_append_left _ hx

/-- A valve of a segment has been classed: its other end is in the area, or it stands on the list of its kind (R103). -/
def Classed (p : Part) (w : View) (s : Search) (a v : Nat) : Prop :=
  ∀ valve, p.valves.get? v = some valve → valve.otherEnd a ∈ s.area ∨ (w.isOpen v = false ∧ v ∈ s.hold) ∨
    (w.isOpen v = true ∧ v ∉ w.inoperable ∧ v ∈ s.close)

theorem Classed.goOn {a v : Nat} (h : Classed p w s a v) (g : GoneOn s u) : Classed p w u a v := fun valve hv =>
  (h valve hv).imp g.mem (Or.imp (And.imp id (fun m => g.hold m)) (And.imp id (And.imp id fun m => g.close m)))

theorem appendOnce_nodup {v : Nat} {l : List Nat} (h : l.Nodup) : (appendOnce v l).Nodup := by
  unfold appendOnce
  split
  · exact h
  next new => exact List.nodup_append.mpr ⟨h, by simp, by simpa using fun x hx same => new (by simpa [← same] using hx)⟩

theorem mem_appendOnce {v x : Nat} {l : List Nat} : x ∈ appendOnce v l ↔ x ∈ l ∨ x = v := by
  unfold appendOnce
  split
  next old =>
    refine ⟨.inl, fun h => h.elim id fun same => ?_⟩
    simpa [same] using old
  · simp

/-- One more segment at the end of the area. -/
theorem chain_append {a b : Nat} {area : List Nat}
    (h : ∀ pre b post, area = pre ++ b :: post → (pre = [] ∧ b = target) ∨ ∃ a ∈ pre, LeadsOn p w a b)
    (ha : a ∈ area) (leads : LeadsOn p w a b) :
    ∀ pre x post, area ++ [b] = pre ++ x :: post → (pre = [] ∧ x = target) ∨ ∃ a ∈ pre, LeadsOn p w a x := by
  intro pre x post split
  rcases List.eq_nil_or_concat post with rfl | ⟨post', y, rfl⟩
  · obtain ⟨rfl, same⟩ := List.append_inj' split rfl
    cases same
    exact .inr ⟨a, ha, leads⟩
  · have : area ++ [b] = (pre ++ x :: post') ++ [y] := by simpa using split
    exact h pre x post' (List.append_inj' this rfl).1

/-- A valve of a segment of the area is examined (R103). -/
theorem searchValve_spec (h : Searching p w target s) {a v : Nat} (ha : a ∈ s.area) (listed : v ∈ p.valveList a) :
    Searching p w target (searchValve p w a s v) ∧ GoneOn s (searchValve p w a s v) ∧
      ((searchValve p w a s v).tooLarge = false → Classed p w (searchValve p w a s v) a v) := by
  unfold searchValve
  split
  next large => exact ⟨h, goneOn_refl s, fun small => by simp [large] at small⟩
  next small =>
    split
    next none_ => exact ⟨h, goneOn_refl s, fun _ valve hv => by simp [none_] at hv⟩
    next valve hv =>
      dsimp only
      split
      next inside =>
        refine ⟨h, goneOn_refl s, fun _ valve' hv' => ?_⟩
        cases hv.symm.trans hv'
        exact .inl (by simpa using inside)
      next outside =>
        replace outside : valve.otherEnd a ∉ s.area := by simpa using outside
        split
        next shut =>
          replace shut : w.isOpen v = false := by simpa using shut
          refine ⟨{ h with holdOnce := appendOnce_nodup h.holdOnce, hold := fun x hx => ?_, large := fun l => absurd l small },
            ⟨⟨[], by simp, by simp⟩, fun _ m => m, fun _ m => mem_appendOnce.mpr (.inl m), fun l => l⟩, fun _ _ _ =>
            .inr (.inl ⟨shut, mem_appendOnce.mpr (.inr rfl)⟩)⟩
          rcases mem_appendOnce.mp hx with old | rfl
          · exact h.hold x old
          · exact ⟨shut, a, ha, listed⟩
        next open_ =>
          replace open_ : w.isOpen v = true := by simpa using open_
          split
          next operable =>
            replace operable : v ∉ w.inoperable := by simpa using operable
            refine ⟨{ h with
              closeOnce := appendOnce_nodup h.closeOnce, close := fun x hx => ?_, large := fun l => absurd l small },
              ⟨⟨[], by simp, by simp⟩, fun _ m => mem_appendOnce.mpr (.inl m), fun _ m => m, fun l => l⟩, fun _ _ _ =>
              .inr (.inr ⟨open_, operable, mem_appendOnce.mpr (.inr rfl)⟩)⟩
            rcases mem_appendOnce.mp hx with old | rfl
            · exact h.close x old
            · exact ⟨open_, operable, a, ha, listed⟩
          next stuck =>
            replace stuck : v ∈ w.inoperable := by simpa using stuck
            have leads : LeadsOn p w a (valve.otherEnd a) := ⟨v, listed, valve, hv, open_, stuck, rfl⟩
            split
            next room =>
              have grown : ∀ {x}, x ∈ s.area → x ∈ s.area ++ [valve.otherEnd a] := fun m => List.mem_append_left _ m
              refine ⟨⟨grown h.starts, chain_append h.chain ha leads, ?_, ?_, h.closeOnce, h.holdOnce, fun x hx => ?_,
                fun x hx => ?_, fun x hx => ?_, fun l => absurd l small⟩,
                ⟨⟨[valve.otherEnd a], rfl, rfl⟩, fun _ m => m, fun _ m => m, fun l => l⟩, fun _ valve' hv' => ?_⟩
              · refine List.nodup_append.mpr ⟨h.nodup, by simp, fun x hx y hy same => outside ?_⟩
                obtain rfl : y = valve.otherEnd a := by simpa using hy
                exact same ▸ hx
              · rw [List.length_append]
                exact room
              · obtain ⟨o, i, b, hb, l⟩ := h.close x hx
                exact ⟨o, i, b, grown hb, l⟩
              · obtain ⟨o, b, hb, l⟩ := h.hold x hx
                exact ⟨o, b, grown hb, l⟩
              · rcases List.mem_append.mp hx with old | new
                · exact grown (h.work x old)
                · exact List.mem_append_right _ new
              · cases hv.symm.trans hv'
                exact .inl (by simp)
            next full =>
              have length : s.area.length = 32 := Nat.le_antisymm h.few (by simpa [areaRoom] using full)
              exact ⟨{ h with large := fun _ => ⟨length, a, ha, _, leads, outside⟩ },
                ⟨⟨[], by simp, by simp⟩, fun _ m => m, fun _ m => m, fun l => by cases l⟩, fun l => by cases l⟩

/-- The valves of a segment are examined one after another. -/
theorem searchValve_fold {a : Nat} {vs : List Nat} (listed : ∀ v ∈ vs, v ∈ p.valveList a) : ∀ {s},
    Searching p w target s → a ∈ s.area → let u := vs.foldl (searchValve p w a) s
      Searching p w target u ∧ GoneOn s u ∧ (u.tooLarge = false → ∀ v ∈ vs, Classed p w u a v) := by
  induction vs with
  | nil => exact fun {s} h _ => ⟨h, goneOn_refl s, by simp⟩
  | cons v vs ih =>
    intro s h ha
    obtain ⟨searching, on, classed⟩ := searchValve_spec h ha (listed v List.mem_cons_self)
    obtain ⟨searching', on', classed'⟩ := ih (fun v' h' => listed v' (List.mem_cons_of_mem _ h')) searching (on.mem ha)
    refine ⟨searching', on.trans on', fun small v' h' => ?_⟩
    rcases List.mem_cons.mp h' with rfl | later
    · exact (classed (on'.small small)).goOn on'
    · exact classed' small v' later

/-- Each segment of the area waits to be taken, or its valves have been classed. -/
def AllClassed (p : Part) (w : View) (s : Search) : Prop :=
  ∀ a ∈ s.area, a ∈ s.work ∨ ∀ v ∈ p.valveList a, Classed p w s a v

/-- With a turn for each place of the area, the search ends too large, or with every valve classed. -/
theorem searchWork_spec (n : Nat) : ∀ {s}, Searching p w target s → (s.tooLarge = false → AllClassed p w s) →
    s.work.length + (32 - s.area.length) ≤ n → let u := searchWork p w n s
    Searching p w target u ∧ (u.tooLarge = false → ∀ a ∈ u.area, ∀ v ∈ p.valveList a, Classed p w u a v) := by
  induction n with
  | zero =>
    intro s h classed few
    have empty : s.work = [] := List.length_eq_zero_iff.mp (by omega)
    exact ⟨h, fun small a ha => (classed small a ha).resolve_left (by simp [empty])⟩
  | succ n ih =>
    intro s h classed few
    unfold searchWork
    split
    next large => exact ⟨h, fun small => by simp [large] at small⟩
    next small =>
      split
      next empty => exact ⟨h, fun small a ha => (classed small a ha).resolve_left (by simp [empty])⟩
      next a rest work =>
        have taken : Searching p w target { s with work := rest } :=
          { h with work := fun x hx => h.work x (by simp [work, hx]) }
        obtain ⟨searching, on, done⟩ := searchValve_fold (a := a) (vs := p.valveList a) (fun _ hv => hv) taken
          (h.work a (by simp [work]))
        obtain ⟨new, area, waits⟩ := on.area
        refine ih searching (fun small' b hb => ?_) ?_
        · rw [area] at hb
          rcases List.mem_append.mp hb with old | entered
          · rcases classed (by simpa using small) b old with waited | classed
            · rw [work] at waited
              rcases List.mem_cons.mp waited with rfl | later
              · exact .inr (done small')
              · exact .inl (by rw [waits]; exact List.mem_append_left _ later)
            · exact .inr fun v hv => Classed.goOn (s := { s with work := rest }) (classed v hv) on
          · exact .inl (by rw [waits]; exact List.mem_append_right _ entered)
        · have few' := searching.few
          have areas := congrArg List.length area
          have waiting := congrArg List.length waits
          simp only [List.length_append] at areas waiting
          rw [work, List.length_cons] at few
          omega

/-- The area search of a plan for a target. -/
def searched (p : Part) (w : View) (target : Nat) : Search :=
  searchWork p w (areaRoom + 1) ⟨[target], [], [], [target], false⟩

theorem searched_spec (p : Part) (w : View) (target : Nat) : Searching p w target (searched p w target) ∧
    ((searched p w target).tooLarge = false →
      ∀ a ∈ (searched p w target).area, ∀ v ∈ p.valveList a, Classed p w (searched p w target) a v) := by
  refine searchWork_spec _ ⟨by simp, fun pre b post split => ?_, by simp, by simp, by simp, by simp, by simp, by simp,
    by simp, by simp⟩ (fun _ a ha => .inl ha) (by simp [areaRoom])
  cases pre with
  | nil => exact .inl ⟨rfl, (List.cons.inj split).1.symm⟩
  | cons x pre => exact absurd (List.cons.inj split).2 (by simp)

theorem mem_boundary {l : List Nat} {v : Nat} : v ∈ s.boundary p l ↔
    v ∈ l ∧ ∀ valve, p.valves.get? v = some valve → ¬ (valve.endA ∈ s.area ∧ valve.endB ∈ s.area) := by
  simp only [Search.boundary, List.mem_filter]
  refine and_congr_right fun _ => ?_
  cases h : p.valves.get? v with
  | none => simp
  | some valve =>
    simp only [Bool.not_and, Bool.or_eq_true, Bool.not_eq_true', List.contains_eq_mem, decide_eq_false_iff_not,
      Option.some.injEq, forall_eq', not_and]
    exact imp_iff_not_or.symm

theorem liveFeedInside_iff {area : List Nat} : liveFeedInside p w area = true ↔
    ∃ f ∈ w.liveFeeds, ∃ fd, p.feeds.get? f = some fd ∧ fd.segment ∈ area := by
  simp only [liveFeedInside, List.any_eq_true]
  refine exists_congr fun f => and_congr_right fun _ => ?_
  cases h : p.feeds.get? f with
  | none => simp
  | some fd => simp

/-! ## What a plan job comes to -/

/-- The result of a plan job: the search too large, fed inside, with a list too long, or a plan with its impact. -/
theorem computePlan_eq (p : Part) (w : View) (target : Nat) : computePlan p w target =
    let s := searched p w target
    let close := if s.tooLarge then s.close else s.boundary p s.close
    let hold := if s.tooLarge then s.hold else s.boundary p s.hold
    let failure : Option PlanFailure :=
      if s.tooLarge then some .tooLarge
      else if liveFeedInside p w s.area then some .feedInside
      else if listRoom < close.length || listRoom < hold.length then some .tooLarge else none
    ⟨s.area, close, hold, if failure = none then some (impactOf p w s.area close) else none, failure⟩ := by
  have search : searchWork p w (areaRoom + 1) ⟨[target], [], [], [target], false⟩ = searched p w target := rfl
  simp only [computePlan, search]
  cases large : (searched p w target).tooLarge with
  | true => simp
  | false =>
    simp only [Bool.false_eq_true, if_false]
    split
    · simp
    · split
      · simp
      · simp

end

section
variable (p : Part) (w : View) (target : Nat)

/-- A search is too large just when an open inoperable valve leads out of its area. -/
theorem tooLarge_iff : (searched p w target).tooLarge = true ↔
    ∃ a ∈ (searched p w target).area, ∃ b, LeadsOn p w a b ∧ b ∉ (searched p w target).area := by
  obtain ⟨searching, classed⟩ := searched_spec p w target
  refine ⟨fun large => (searching.large large).2, fun ⟨a, ha, b, ⟨v, hv, valve, hg, open_, stuck, same⟩, out⟩ => ?_⟩
  by_contra small
  subst same
  rcases classed (by simpa using small) a ha v hv valve hg with inside | ⟨shut, _⟩ | ⟨_, operable, _⟩
  · exact out inside
  · rw [open_] at shut; cases shut
  · exact operable stuck

theorem computePlan_area : (computePlan p w target).area = (searched p w target).area := by rw [computePlan_eq]

theorem computePlan_close_sublist : (computePlan p w target).close.Sublist (searched p w target).close := by
  rw [computePlan_eq]
  dsimp only
  split
  · exact List.Sublist.refl _
  · exact List.filter_sublist

theorem computePlan_hold_sublist : (computePlan p w target).hold.Sublist (searched p w target).hold := by
  rw [computePlan_eq]
  dsimp only
  split
  · exact List.Sublist.refl _
  · exact List.filter_sublist

theorem computePlan_small (small : (searched p w target).tooLarge = false) :
    (computePlan p w target).close = (searched p w target).boundary p (searched p w target).close ∧
      (computePlan p w target).hold = (searched p w target).boundary p (searched p w target).hold := by
  rw [computePlan_eq]
  simp [small]

theorem computePlan_failure : (computePlan p w target).failure =
    if (searched p w target).tooLarge then some .tooLarge
    else if liveFeedInside p w (computePlan p w target).area then some .feedInside
    else if 64 < (computePlan p w target).close.length ∨ 64 < (computePlan p w target).hold.length then some .tooLarge
    else none := by
  rw [computePlan_eq]
  by_cases large : (searched p w target).tooLarge = true
  · simp [large]
  · simp [large, listRoom]

theorem computePlan_impact : (computePlan p w target).impact = if (computePlan p w target).failure = none then
    some (impactOf p w (computePlan p w target).area (computePlan p w target).close) else none := by
  rw [computePlan_eq]

/-- The impact counts what the impact trace does not reach (R105). -/
theorem impactOf_spec (ends : p.endsDefined) (area close : List Nat) : ∃ lost : List (Nat × Segment),
    lost.Sublist p.segments.entries ∧
    (∀ e ∈ p.segments.entries, e ∈ lost ↔ ¬ ReachesPast p w close area e.1) ∧
    impactOf p w area close = ⟨lost.length, (lost.map (·.2.customers)).sum, (lost.map (·.2.priority)).sum⟩ := by
  refine ⟨p.segments.entries.filter fun e => !((supplyTrace p w close area).any fun r => r.1 = e.1), List.filter_sublist,
    fun e he => ?_, rfl⟩
  rw [List.mem_filter, ← (supplyTrace_spec ends w close area).1 e.1]
  simp only [he, true_and, Bool.not_eq_true', List.any_eq_false, decide_eq_true_eq, not_exists]
  exact ⟨fun h f hf => h _ hf rfl, fun h r hr same => h r.2 (same ▸ hr)⟩

theorem mem_computePlan_close {v : Nat} (h : v ∈ (computePlan p w target).close) :
    w.isOpen v = true ∧ v ∉ w.inoperable ∧ ∃ a ∈ (computePlan p w target).area, v ∈ p.valveList a := by
  rw [computePlan_area]
  exact (searched_spec p w target).1.close v ((computePlan_close_sublist p w target).subset h)

theorem mem_computePlan_hold {v : Nat} (h : v ∈ (computePlan p w target).hold) :
    w.isOpen v = false ∧ ∃ a ∈ (computePlan p w target).area, v ∈ p.valveList a := by
  rw [computePlan_area]
  exact (searched_spec p w target).1.hold v ((computePlan_hold_sublist p w target).subset h)

end

theorem otherEnd_outside {valve : Valve} {a : Nat} {area : List Nat} (out : valve.otherEnd a ∉ area) :
    ¬ (valve.endA ∈ area ∧ valve.endB ∈ area) := by
  rintro ⟨inA, inB⟩
  unfold Valve.otherEnd at out
  split at out
  · exact out inB
  · exact out inA

/-- Settles O41: the search with its valves classed, and the failures in their order. -/
theorem computedPlansShutTheAreaOff : Obligations.ComputedPlansShutTheAreaOff := by
  refine ⟨fun p w target fine => ?_, fun p w target => ?_⟩
  · intro r
    obtain ⟨searching, classed⟩ := searched_spec p w target
    have failure := computePlan_failure p w target
    rw [fine] at failure
    have small : (searched p w target).tooLarge = false := by
      by_contra large
      rw [if_pos (by simpa using large)] at failure
      cases failure
    rw [small, if_neg Bool.false_ne_true] at failure
    split at failure
    next => cases failure
    next unfed =>
      split at failure
      next => cases failure
      next short =>
        obtain ⟨close, hold⟩ := computePlan_small p w target small
        have area : r.area = (searched p w target).area := computePlan_area p w target
        refine ⟨area ▸ searching.starts, area ▸ searching.few, not_lt.mp fun long => short (.inl long),
          not_lt.mp fun long => short (.inr long), fun f hf fd hfd inside => ?_,
          fun a ha v hv valve hg _ out => ?_⟩
        · exact unfed (liveFeedInside_iff.mpr ⟨f, hf, fd, hfd, inside⟩)
        · rw [area] at ha out
          have apart : ∀ valve', p.valves.get? v = some valve' →
              ¬ (valve'.endA ∈ (searched p w target).area ∧ valve'.endB ∈ (searched p w target).area) := fun valve' hg' => by
            cases hg.symm.trans hg'
            exact otherEnd_outside out
          have kind := (classed small a ha v hv valve hg).resolve_left out
          refine ⟨fun open_ => ?_, fun shut => ?_⟩
          · rcases kind with ⟨shut, _⟩ | ⟨_, operable, listed⟩
            · rw [open_] at shut; cases shut
            · exact ⟨close ▸ mem_boundary.mpr ⟨listed, apart⟩, operable⟩
          · rcases kind with ⟨_, listed⟩ | ⟨open_, _⟩
            · exact hold ▸ mem_boundary.mpr ⟨listed, apart⟩
            · rw [open_] at shut; cases shut
  · intro r leads fed long
    obtain ⟨searching, _⟩ := searched_spec p w target
    have area : r.area = (searched p w target).area := computePlan_area p w target
    have large : (searched p w target).tooLarge = true ↔ leads := by
      rw [tooLarge_iff, ← area]
      exact exists_congr fun a => and_congr_right fun _ =>
        ⟨fun ⟨b, ⟨v, hv, valve, hg, open_, stuck, same⟩, out⟩ => ⟨v, hv, valve, hg, open_, stuck, same ▸ out⟩,
          fun ⟨v, hv, valve, hg, open_, stuck, out⟩ => ⟨_, ⟨v, hv, valve, hg, open_, stuck, rfl⟩, out⟩⟩
    have feeds : liveFeedInside p w r.area = true ↔ fed := liveFeedInside_iff
    have failure : r.failure = if leads then some .tooLarge else if fed then some .feedInside
        else if long then some .tooLarge else none := by
      simp only [← large, ← feeds]
      exact computePlan_failure p w target
    refine ⟨area ▸ searching.starts, area ▸ searching.nodup, area ▸ searching.few, area ▸ searching.chain,
      searching.closeOnce.sublist (computePlan_close_sublist p w target),
      searching.holdOnce.sublist (computePlan_hold_sublist p w target), fun v => mem_computePlan_close p w target,
      fun v => mem_computePlan_hold p w target, fun within_ v hv valve hg => ?_, fun out => ?_, ?_, ?_, ?_, fun failed => ?_,
      fun fine ends => ?_⟩
    · have small : (searched p w target).tooLarge = false := by
        by_contra big
        exact within_ (large.mp (by simpa using big))
      obtain ⟨close, hold⟩ := computePlan_small p w target small
      rw [area]
      rcases List.mem_append.mp hv with listed | listed
      · exact (mem_boundary.mp (close ▸ listed)).2 valve hg
      · exact (mem_boundary.mp (hold ▸ listed)).2 valve hg
    · rw [area]
      exact (searching.large (large.mpr out)).1
    · rw [failure]; by_cases a : leads <;> by_cases b : fed <;> by_cases c : long <;> simp [a, b, c]
    · rw [failure]; by_cases a : leads <;> by_cases b : fed <;> by_cases c : long <;> simp [a, b, c]
    · rw [failure]; by_cases a : leads <;> by_cases b : fed <;> by_cases c : long <;> simp [a, b, c]
    · exact (computePlan_impact p w target).trans (if_neg failed)
    · obtain ⟨lost, sub, iff_, impact⟩ := impactOf_spec p w ends r.area r.close
      exact ⟨lost, sub, iff_, ((computePlan_impact p w target).trans (if_pos fine)).trans (congrArg some impact)⟩

end Sys2Proof.Proofs
end


section
/-!
Jobs as crews take and leave them: a state in which ASSIGN is refused that O55 has accepted. An AVAILABLE crew that holds
a job, which no run reaches, stands in the way of its own job (R153, test 5).
-/

namespace Sys2Proof.Proofs

open Sys2Proof Sys2Proof.Machine

/-- A part in which an AVAILABLE crew has a job, the one OPEN incident. -/
def strayPart : Part := { Part.released .power 19200 0 0 with
  link := { rate := 19200, resetCause := .power, partState := .running }
  register := { incidents := ⟨[(0, { kind := .leak, grade := .b, segment := none, district := 0, state := .opened
                                     openedTime := 0, stateTime := 0, deadline := 9, nextEscalation := none })]⟩ }
  dispatch := { crews := ⟨[(0, { kind := .emergency, home := 0, state := .available, job := some ⟨.leak, 0⟩ })]⟩ } }

def strayState : State := ⟨[], strayPart⟩

/-- ASSIGN of the crew's own job comes to REFUSED_STATE. -/
theorem strayState_refused : exec (.assign 0 ([byte 0, byte 0] ++ be16 0)) strayState =
    .next (strayState.answered (strayState.begun 0x25 0 ([byte 0, byte 0] ++ be16 0)) .refusedState []) :=
  request_of_admitted (h := assignRule) rfl 0 (show strayState.slotFree from rfl) rfl rfl
    (a := refuse .refusedState (strayState.begun 0x25 0 ([byte 0, byte 0] ++ be16 0))) rfl

/-- An execution has one answer. -/
theorem status_of_answered {s : State} {p q : Part} {r : Request} {st st' : Status} {res res' : List Byte}
    (hp : p.link.executing = some ⟨r, false⟩) (hq : q.link.executing = some ⟨r, false⟩) (idle : p.link.tx = none)
    (empty : p.link.replies = []) (same : s.answered q st' res' = s.answered p st res) : st' = st := by
  have links : q.link.answer st' res' = p.link.answer st res := congrArg (fun s : State => s.part.link) same
  obtain ⟨_, _, alone⟩ := answer_cases st res hp
  obtain ⟨replies, tx⟩ := alone idle empty
  obtain ⟨_, made, _⟩ := Laws.answer_spec q.link ⟨r, false⟩ st' res' hq
  rw [links, Link.made, replies, tx] at made
  rcases made with listed | sent
  · cases listed
  · cases sent
    rfl

/-- Refutes O55: an AVAILABLE crew that holds the OPEN incident is refused it by ASSIGN. -/
theorem not_crewsTakeAndLeaveJobs : ¬ Obligations.CrewsTakeAndLeaveJobs := by
  intro h
  obtain ⟨_, assign, _⟩ := h 0 0 0 { kind := .emergency, home := 0, state := .available, job := some ⟨.leak, 0⟩ } ⟨.leak, 0⟩
    strayState ⟨rfl, rfl⟩ (by decide) (by decide) rfl (by decide) rfl rfl
  have alone : ∀ id d, strayState.part.dispatch.crews.get? id = some d → d.job = some ⟨.leak, 0⟩ → id = 0 := by
    intro id d hd _
    by_contra other
    have none_ : strayState.part.dispatch.crews.get? id = none := by
      simp [strayState, strayPart, Table.get?, findEntry, Ne.symm other]
    rw [none_] at hd
    cases hd
  obtain ⟨q, run, handed⟩ := (assign (.inl rfl) rfl ⟨_, rfl, rfl⟩).1 alone
  rw [strayState_refused] at run
  have link := (handed.leak _ rfl rfl).2.2.2
  have slot : (dispatchDecide q).link.executing = some ⟨⟨0x25, 0, [byte 0, byte 0] ++ be16 0⟩, false⟩ := by
    rw [(Laws.m_dispatchDecide q).link.executing, link, Laws.place_executing]
    rfl
  have same := status_of_answered (p := strayState.begun 0x25 0 ([byte 0, byte 0] ++ be16 0)) rfl slot rfl rfl
    (Host.Outcome.next.inj run).symm
  cases same

end Sys2Proof.Proofs
end


section
/-!
Purges, relights and restorations (R164–R169).
-/

namespace Sys2Proof.Proofs

open Sys2Proof Sys2Proof.Machine

/-! ## What an ended item's crew and notice depend on -/

section
variable {p q : Part} {j : Job}

theorem crewOn_congr (h : q.dispatch = p.dispatch) : q.crewOn j = p.crewOn j := by rw [Part.crewOn, Part.crewOn, h]

theorem endJob_dispatch_congr (h : q.dispatch = p.dispatch) : (endJob j q).dispatch = (endJob j p).dispatch := by
  simp only [endJob, crewOn_congr (j := j) h]
  split
  · exact h
  · split <;> simp [Part.onCrew, h]

theorem endJob_frame (j : Job) (p : Part) :
    endJob j p = { p with link := (endJob j p).link, dispatch := (endJob j p).dispatch } := by
  unfold endJob
  split
  · rfl
  · split <;> rfl

theorem endJob_link_congr (dispatch : q.dispatch = p.dispatch) (clock : q.clock = p.clock) (link : q.link = p.link) :
    (endJob j q).link = (endJob j p).link := by
  have time : q.time = p.time := by rw [Part.time, Part.time, clock]
  simp only [endJob, crewOn_congr (j := j) dispatch]
  split
  · exact link
  · split
    · show Link.place q.time _ q.link = Link.place p.time _ p.link
      rw [time, link]
    · exact link

end

/-! ## Restorations -/

/-- A segment SUPPLIED and out of its outage, with its mark (R168). -/
def unserved (seg : Nat) (p : Part) : Part :=
  markSegment seg (p.onSegment seg fun s => { s with supply := .supplied, relit := 0, outage := none })

section
variable {p : Part} {seg id : Nat} {x : Segment} {o : Outage}

theorem unserved_frame (seg : Nat) (p : Part) :
    unserved seg p = { p with segments := (unserved seg p).segments, link := (unserved seg p).link } := by
  unfold unserved markSegment
  split
  · rfl
  · split
    · rfl
    · dsimp only
      split <;> rfl

theorem unserved_this (hx : p.segments.get? seg = some x) : (unserved seg p).segments.get? seg =
    some { x with supply := .supplied, relit := 0, outage := none, changed := true } := by
  rw [unserved, markSegment_get?, onSegment_of_get? hx]
  simp

theorem unserved_other {n : Nat} (other : n ≠ seg) (p : Part) :
    (unserved seg p).segments.get? n = p.segments.get? n := by
  rw [unserved, markSegment_other other]
  exact Laws.get?_modify_other _ _ _ _ other

theorem unserved_link (hx : p.segments.get? seg = some x) : (unserved seg p).link = p.linkMarked seg := by
  rw [unserved, onSegment_of_get? hx,
    markSegment_link (seg := { x with supply := .supplied, relit := 0, outage := none }) (by simp),
    linkMarked_set { x with supply := .supplied, relit := 0, outage := none } hx rfl]

/-- The outage without one member, restored (R168). -/
def withoutMember (o : Outage) (x : Segment) : Outage :=
  { o with
    members := o.members - 1
    customersOff := o.customersOff - x.customers
    priorityOff := o.priorityOff - x.priority
    customersRelit := o.customersRelit - x.relit }

/-- The part with the outage's counts and the district's written, and the segment's item ended (R168). -/
def unlisted (seg id : Nat) (x : Segment) (o : Outage) (p : Part) : Part :=
  endJob ⟨.relight, seg⟩ (putOutage id (withoutMember o x)
    (if p.memberIn id x.district then p
    else p.onDistrict x.district fun d => { d with activeOutages := d.activeOutages - 1 }))

theorem restoreSegment_alone (hx : p.segments.get? seg = some x) (alone : x.outage.bind p.outages.get? = none) :
    restoreSegment seg p = endJob ⟨.relight, seg⟩ (unserved seg p) := by
  have outages : (unserved seg p).outages = p.outages := by rw [unserved_frame]
  have none_ : (x.outage.bind fun id => ((unserved seg p).outages.get? id).map fun o => (id, o)) = none := by
    rw [outages]
    cases h : x.outage with
    | none => rfl
    | some id =>
      rw [h] at alone
      simp [show p.outages.get? id = none from alone]
  simp only [restoreSegment, hx]
  rw [← unserved, none_]

theorem restoreSegment_member (hx : p.segments.get? seg = some x) (member : x.outage = some id)
    (ho : p.outages.get? id = some o) : restoreSegment seg p =
      let told := place (.segmentRestored seg id x.customers (withoutMember o x).customersOff (withoutMember o x).members)
        (unlisted seg id x o (unserved seg p))
      if (withoutMember o x).members = 0 then endOutage id told else told := by
  have outages : (unserved seg p).outages = p.outages := by rw [unserved_frame]
  have some_ : (x.outage.bind fun id => ((unserved seg p).outages.get? id).map fun o => (id, o)) = some (id, o) := by
    simp [outages, member, ho]
  simp only [restoreSegment, hx]
  rw [← unserved, some_]
  rfl

/-- The record of a restored segment, and the crews that its item frees (R156, R168). -/
theorem restoreSegment_spec (hx : p.segments.get? seg = some x) : let q := restoreSegment seg p
    q.segments = (unserved seg p).segments ∧ p.Released q [⟨.relight, seg⟩] := by
  have dispatch : (unserved seg p).dispatch = p.dispatch := by rw [unserved_frame]
  cases member : x.outage.bind p.outages.get? with
  | none =>
    rw [restoreSegment_alone hx member]
    exact ⟨by simp, released_endJob _ dispatch⟩
  | some o =>
    obtain ⟨id, member, ho⟩ := Option.bind_eq_some_iff.mp member
    have told : (putOutage id (withoutMember o x) (if (unserved seg p).memberIn id x.district then unserved seg p
        else (unserved seg p).onDistrict x.district fun d => { d with activeOutages := d.activeOutages - 1 })).dispatch =
          p.dispatch := by
      split <;> simp [dispatch, Part.onDistrict]
    have segments : (unlisted seg id x o (unserved seg p)).segments = (unserved seg p).segments := by
      unfold unlisted
      split <;> simp [Part.onDistrict]
    rw [restoreSegment_member hx member ho]
    dsimp only
    split
    · exact ⟨by simp [segments], by
        have := released_endJob (p := p) ⟨.relight, seg⟩ told
        simpa [Part.Released, unlisted] using this⟩
    · exact ⟨by simp [segments], by
        have := released_endJob (p := p) ⟨.relight, seg⟩ told
        simpa [Part.Released, unlisted] using this⟩

end

/-! ## The two requests -/

section
variable {p : Part} {b : List Byte} {id : Nat} {x : Segment}

theorem purgeRule_act (id_eq : u16 b 0 = id) (hid : id < 512) (hx : p.segments.get? id = some x)
    (recharged : x.supply = .recharged) (fit : p.fitToPurge id x = true) :
    purgeRule.act b p = ⟨.ok, [(purgeSegment id x p).supplyCode id], purgeSegment id x p⟩ := by
  simp only [purgeRule, onSegmentNumbered, id_eq, hx]
  rw [if_neg (by omega), if_neg (by simp [recharged, fit])]
  rfl

theorem relightReportRule_act {n source : Nat} (id_eq : u16 b 0 = id) (n_eq : u16 b 2 = n) (source_eq : u8 b 4 = source)
    (hid : id < 512) (some_ : 1 ≤ n) (hs : source ≤ 1) (hx : p.segments.get? id = some x)
    (admitted : x.supply = .relighting ∨ (source = 1 ∧ x.supply = .purged)) :
    relightReportRule.act b p = ⟨.ok, be16 ((((relightSegment id x n p).segments.get? id).map (·.relit)).getD 0) ++
      [(relightSegment id x n p).supplyCode id], relightSegment id x n p⟩ := by
  have admits : relightAdmitted source x.supply = true := by simpa [relightAdmitted] using admitted
  simp only [relightReportRule, id_eq, n_eq, source_eq, hx, admits]
  rw [if_neg (by simp; omega), if_neg (by simp)]
  rfl

theorem supplyCode_of_get? (h : p.segments.get? id = some x) : p.supplyCode id = byte x.supply.code := by
  simp [Part.supplyCode, h]

/-- A segment with customers is PURGED, with its mark (R165). -/
theorem purgeSegment_customers (hx : p.segments.get? id = some x) (some_ : 0 < x.customers) : purgeSegment id x p =
    dispatchDecide (markSegment id { p with segments := p.segments.set id { x with supply := .purged, relit := 0 } }) := by
  simp only [purgeSegment, some_, if_true, onSegment_of_get? hx]

theorem purgeSegment_empty (empty : x.customers = 0) : purgeSegment id x p = dispatchDecide (restoreSegment id p) := by
  simp [purgeSegment, empty]

/-- The relit count and the supply state that some premises relit leave the segment and its outage with (R164, R167). -/
theorem addRelit_spec (hx : p.segments.get? id = some x) (n : Nat) : let q := addRelit id x n p
    q = { p with segments := p.segments.set id { x with relit := min (x.relit + n) x.customers }
                 outages := q.outages, panel := q.panel } ∧
    (∀ o r, x.outage = some o → p.outages.get? o = some r → q.outages =
      p.outages.set o { r with customersRelit := r.customersRelit + (min (x.relit + n) x.customers - x.relit) }) ∧
    (x.outage.bind p.outages.get? = none → q.outages = p.outages) := by
  simp only [addRelit, onSegment_of_get? hx]
  cases h : x.outage with
  | none => exact ⟨rfl, by simp, by simp⟩
  | some o =>
    cases ho : p.outages.get? o with
    | none =>
      refine ⟨by simp [ho], fun o' r same hr => ?_, by simp [ho]⟩
      cases same
      cases ho.symm.trans hr
    | some r =>
      simp only [Option.bind_some, ho, Option.map_some]
      exact ⟨rfl, fun o' r' same hr => by cases same; cases ho.symm.trans hr; rfl, by simp⟩

theorem relightSegment_some {n : Nat} (few : x.relit + n < x.customers) : relightSegment id x n p = addRelit id x n p := by
  simp [relightSegment, Nat.not_le.mpr few]

theorem relightSegment_all {n : Nat} (all : x.customers ≤ x.relit + n) :
    relightSegment id x n p = dispatchDecide (restoreSegment id (addRelit id x n p)) := by
  simp [relightSegment, all]

end

theorem set_self {t : Table α} {n k : Nat} {x : α} (w : t.wf n = true) (h : t.get? k = some x) : t.set k x = t := by
  obtain ⟨before, after, old, new⟩ := entries_around w h
  exact congrArg Table.mk ((new.1 x).trans old.symm)

/-- What a purge or a report of premises relit leaves of the rest of the part: one segment's record is written. -/
def OneSegment (id : Nat) (x : Segment) (p q : Part) (y : Segment) : Prop :=
  q.segments.get? id = some y ∧
  y = { x with supply := y.supply, relit := y.relit, outage := y.outage, changed := y.changed } ∧
  (∀ n, n ≠ id → q.segments.get? n = p.segments.get? n) ∧ q.points = p.points ∧ q.lines = p.lines ∧
  q.plans = p.plans ∧ q.register = p.register ∧ q.valves = p.valves

section
variable {p q r : Part} {id : Nat} {x y z : Segment}

theorem OneSegment.trans (h : OneSegment id x p q y) (k : OneSegment id y q r z) : OneSegment id x p r z := by
  obtain ⟨hy, y_eq, others, points, lines, plans, register, valves⟩ := h
  obtain ⟨hz, z_eq, others', points', lines', plans', register', valves'⟩ := k
  refine ⟨hz, ?_, fun n other => (others' n other).trans (others n other), points'.trans points, lines'.trans lines,
    plans'.trans plans, register'.trans register, valves'.trans valves⟩
  rw [z_eq, y_eq]

theorem OneSegment.decided (h : OneSegment id x p q y) : OneSegment id x p (dispatchDecide q) y := by
  simpa [OneSegment] using h

theorem oneSegment_purged (id : Nat) (x : Segment) (p : Part) : OneSegment id x p
    (markSegment id { p with segments := p.segments.set id { x with supply := .purged, relit := 0 } })
    { x with supply := .purged, relit := 0, changed := true } :=
  ⟨by simp [markSegment_get?], rfl, fun n other => by rw [markSegment_other other]; exact Laws.get?_set_other _ _ _ _ other,
    by simp, by simp, by simp, by simp, by simp⟩

theorem oneSegment_restored (hx : p.segments.get? id = some x) : OneSegment id x p (restoreSegment id p)
    { x with supply := .supplied, relit := 0, outage := none, changed := true } := by
  have segments := (restoreSegment_spec hx).1
  exact ⟨by rw [segments, unserved_this hx], rfl, fun n other => by rw [segments, unserved_other other],
    by simp, by simp, by simp, by simp, by simp⟩

theorem oneSegment_relit (hx : p.segments.get? id = some x) (n : Nat) : OneSegment id x p (addRelit id x n p)
    { x with relit := min (x.relit + n) x.customers } := by
  rw [(addRelit_spec hx n).1]
  exact ⟨by simp, rfl, fun m other => Laws.get?_set_other _ _ _ _ other, rfl, rfl, rfl, rfl, rfl⟩

/-- A segment with its premises relit is RESTORED (R167, R168). -/
theorem oneSegment_relightSegment {n : Nat} (hx : p.segments.get? id = some x) (all : x.customers ≤ x.relit + n) :
    OneSegment id x p (relightSegment id x n p)
      { x with supply := .supplied, relit := 0, outage := none, changed := true } := by
  rw [relightSegment_all all]
  have relit := oneSegment_relit hx n
  exact (relit.trans (oneSegment_restored relit.1)).decided

end

theorem relight_reads {id n source : Nat} (hid : id < 512) (hn : n ≤ 65535) (hs : source ≤ 1) :
    let b := be16 id ++ be16 n ++ [byte source]
    u16 b 0 = id ∧ u16 b 2 = n ∧ u8 b 4 = source := by
  simp only [u16, u8, be16, List.cons_append, List.nil_append, List.getD_cons_succ, List.getD_cons_zero, toNat_byte]
  omega

/-- What the restoration of a member leaves, from the part as its request found it (R168, R169). -/
theorem restoration {p p' : Part} {id o : Nat} {x x' : Segment} {r' : Outage} (w : p.segments.wf 512 = true)
    (hx : p.segments.get? id = some x) (member : x.outage = some o)
    (frame : p' = { p with segments := p.segments.set id x', outages := p'.outages, panel := p'.panel })
    (outages : ∀ u, p'.outages.set o u = p.outages.set o u) (hr : p'.outages.get? o = some r')
    (same_x : x' = { x with relit := x'.relit }) :
    let others := p.segments.any fun i y => decide (i ≠ id ∧ y.outage = some o ∧ y.district = x.district)
    let now := withoutMember r' x'
    ∃ q, q = { p with
        segments := q.segments, outages := p.outages.set o now, dispatch := q.dispatch, panel := q.panel, link := q.link
        districts := if others then p.districts
          else p.districts.modify x.district fun d => { d with activeOutages := d.activeOutages - 1 } } ∧
      q.dispatch = (endJob ⟨.relight, id⟩ p).dispatch ∧
      q.link = (endJob ⟨.relight, id⟩ (p.withLink (p.linkMarked id))).link ∧ p.Released q [⟨.relight, id⟩] ∧
      q.segments.get? id = some { x with supply := .supplied, relit := 0, outage := none, changed := true } ∧
      (∀ i, i ≠ id → q.segments.get? i = p.segments.get? i) ∧
      let told := place (.segmentRestored id o x.customers now.customersOff now.members) q
      (now.members ≠ 0 → restoreSegment id p' = told) ∧
      (now.members = 0 → restoreSegment id p' = place (.outageEnded o now.cause now.opened now.listing.length now.overflow
        now.noGas) (refreshLamps { told with outages := told.outages.set o { now with ended := some p.time } })) := by
  intro others now
  replace ⟨os, panel, frame⟩ : ∃ os panel, p' = { p with
      segments := p.segments.set id x', outages := os, panel := panel } := ⟨_, _, frame⟩
  have hx' : p'.segments.get? id = some x' := by rw [frame]; simp
  have member' : x'.outage = some o := by rw [same_x]; exact member
  have district : x'.district = x.district := by rw [same_x]
  have customers : x'.customers = x.customers := by rw [same_x]
  have run := restoreSegment_member hx' member' hr
  have ⟨segments, link', served⟩ : ∃ segments link', unserved id p' = { p' with
      segments := segments, link := link' } := ⟨_, _, unserved_frame id p'⟩
  have link : (unserved id p').link = p.linkMarked id := by
    rw [unserved_link hx']
    have marked := linkMarked_set x' hx (by rw [same_x]) id
    rw [← marked, frame]
    rfl
  have this := unserved_this hx'
  have wf' : (unserved id p').segments.wf 512 = true := by
    have : p'.segments.wf 512 = true := by rw [frame]; exact Laws.wf_set_used _ _ _ _ _ w hx
    rw [unserved]
    unfold markSegment
    split
    · exact Laws.wf_modify _ _ _ _ this
    next y hy =>
      split
      · exact Laws.wf_modify _ _ _ _ this
      · dsimp only
        split <;> simp <;> exact Laws.wf_set_used _ _ _ _ _ (Laws.wf_modify _ _ _ _ this) hy
  have elsewhere : ∀ n, n ≠ id → (unserved id p').segments.get? n = p.segments.get? n := fun n other => by
    rw [unserved_other other, frame]
    exact Laws.get?_set_other _ _ _ _ other
  have others_iff : (unserved id p').memberIn o x.district = others := by
    rw [Bool.eq_iff_iff]
    simp only [Part.memberIn, others, Table.any, List.any_eq_true, Bool.and_eq_true, decide_eq_true_eq]
    constructor
    · rintro ⟨⟨n, y⟩, hy, joined, here⟩
      have hy := get?_of_mem wf' hy
      have other : n ≠ id := fun same => by
        rw [same, this] at hy
        rw [← Option.some.inj hy] at joined
        cases joined
      exact ⟨(n, y), Laws.mem_of_get? _ _ _ ((elsewhere n other).symm.trans hy), other, joined, here⟩
    · rintro ⟨⟨n, y⟩, hy, other, joined, here⟩
      exact ⟨(n, y), Laws.mem_of_get? _ _ _ ((elsewhere n other).trans (get?_of_mem w hy)), joined, here⟩
  have q_eq : unlisted id o x' r' (unserved id p') = endJob ⟨.relight, id⟩ (putOutage o now
      (if others then unserved id p'
      else (unserved id p').onDistrict x.district fun d => { d with activeOutages := d.activeOutages - 1 })) := by
    rw [unlisted, district, others_iff]
  have dispatch' : (putOutage o now (if others then unserved id p' else (unserved id p').onDistrict x.district
      fun d => { d with activeOutages := d.activeOutages - 1 })).dispatch = p.dispatch := by
    split
    · rw [Laws.f_putOutage_dispatch, served, frame]
    · rw [Laws.f_putOutage_dispatch, Part.onDistrict, served, frame]
  have full : unserved id p' = { p with segments := segments, link := link', outages := os, panel := panel } := by
    rw [served, frame]
  have outages' : ∀ u, os.set o u = p.outages.set o u := fun u => by rw [← outages u, frame]
  have link_eq : link' = p.linkMarked id := by rw [← link, served]
  have this_eq : segments.get? id = some { x with supply := .supplied, relit := 0, outage := none, changed := true } := by
    rw [served] at this
    rw [this, same_x]
  have told : ∀ u, (unlisted id o x' r' (unserved id p')).outages.set o u = p.outages.set o u := fun u => by
    rw [q_eq]
    split <;> simp [Part.onDistrict, full, putOutage, set_set, outages']
  refine ⟨unlisted id o x' r' (unserved id p'), ?_, ?_, ?_, ?_, ?_, fun i other => ?_, fun more => ?_, fun last => ?_⟩
  · rw [q_eq]
    rw [endJob_frame]
    split <;> simp [Part.onDistrict, full, putOutage, outages']
  · rw [q_eq]
    exact endJob_dispatch_congr dispatch'
  · rw [q_eq]
    refine endJob_link_congr dispatch' ?_ ?_
    · split <;> simp [Part.onDistrict, full, Part.withLink]
    · split <;> simp [Part.onDistrict, served, link_eq, Part.withLink]
  · rw [q_eq]
    exact released_endJob _ dispatch'
  · rw [q_eq]
    split <;> simp [Part.onDistrict, served, this_eq]
  · rw [q_eq]
    have := elsewhere i other
    rw [served] at this
    split <;> simpa [Part.onDistrict, served] using this
  · rw [run]
    dsimp only
    rw [if_neg more, customers]
  · rw [run]
    dsimp only
    rw [if_pos last, customers]
    have found : (unlisted id o x' r' (unserved id p')).outages.get? o = some now := by
      rw [q_eq, Laws.f_endJob_outages, putOutage]
      simp
    simp only [endOutage, Laws.place_outages, found]
    rw [show (place _ _ : Part).time = p.time by simp [Part.time, q_eq]; split <;> simp [full, Part.onDistrict]]
    rfl

/-- Settles O56: the record of the one segment by the relation of what a purge and a report may touch, and the
restoration of a member with its outage's and its district's counts. -/
theorem purgeAndRelight : Obligations.PurgeAndRelight := by
  unfold Obligations.PurgeAndRelight
  have id_read : ∀ {id : Nat}, id < 512 → u16 (be16 id) 0 = id := fun hid => u16_be16 (Nat.lt_trans hid (by decide)) []
  constructor
  · intro tag id x s ready hid hx after
    refine ⟨fun recharged fit => ?_, fun n source some_ hn hs admitted => ?_⟩
    · have act := purgeRule_act (p := s.begun 0x27 tag (be16 id)) (id_read hid) hid hx recharged fit
      have run := fun {y : Segment} (h : OneSegment id x s.part
          (purgeSegment id x (s.begun 0x27 tag (be16 id))) y) =>
        request_ok (h := purgeRule) rfl tag ready.1 rfl (decide_eq_true ready.2)
          (supplyCode_of_get? h.1 ▸ act)
      by_cases some_ : 0 < x.customers
      · have one : OneSegment id x s.part (purgeSegment id x (s.begun 0x27 tag (be16 id)))
            { x with supply := .purged, relit := 0, changed := true } := by
          rw [purgeSegment_customers (p := s.begun 0x27 tag (be16 id)) hx some_]
          exact (oneSegment_purged id x (s.begun 0x27 tag (be16 id))).decided
        exact ⟨_, _, run one, one, rfl, rfl,
          fun _ => ⟨rfl, rfl, _, purgeSegment_customers (p := s.begun 0x27 tag (be16 id)) hx some_, by simp; rfl⟩,
          fun empty => absurd some_ (by omega)⟩
      · have empty : x.customers = 0 := by omega
        have one : OneSegment id x s.part (purgeSegment id x (s.begun 0x27 tag (be16 id)))
            { x with supply := .supplied, relit := 0, outage := none, changed := true } := by
          rw [purgeSegment_empty empty]
          exact (oneSegment_restored (p := s.begun 0x27 tag (be16 id)) hx).decided
        exact ⟨_, _, run one, one, rfl, rfl, fun more => absurd more some_,
          fun _ => ⟨rfl, rfl, _, purgeSegment_empty empty,
            (restoreSegment_spec (p := s.begun 0x27 tag (be16 id)) hx).2⟩⟩
    · have ⟨id_eq, n_eq, source_eq⟩ := relight_reads hid hn hs
      have act := relightReportRule_act (p := s.begun 0x28 tag (be16 id ++ be16 n ++ [byte source])) id_eq n_eq source_eq
        hid some_ hs hx admitted
      have run := fun {y : Segment} (h : OneSegment id x s.part
          (relightSegment id x n (s.begun 0x28 tag (be16 id ++ be16 n ++ [byte source]))) y) =>
        request_ok (h := relightReportRule) (body := be16 id ++ be16 n ++ [byte source]) rfl tag ready.1 rfl
          (decide_eq_true ready.2) (q := relightSegment id x n (s.begun 0x28 tag (be16 id ++ be16 n ++ [byte source])))
          (result := be16 y.relit ++ [byte y.supply.code])
          (by rw [act, supplyCode_of_get? h.1, h.1]; rfl)
      by_cases all : x.customers ≤ x.relit + n
      · have one := oneSegment_relightSegment (p := s.begun 0x28 tag (be16 id ++ be16 n ++ [byte source])) hx all
        refine ⟨_, _, run one, one, fun few => absurd all (by omega), fun _ => ⟨rfl, rfl, rfl, rfl, _,
          relightSegment_all all, ?_⟩⟩
        have relit := oneSegment_relit (p := s.begun 0x28 tag (be16 id ++ be16 n ++ [byte source])) hx n
        have released := (restoreSegment_spec relit.1).2
        rw [(addRelit_spec (p := s.begun 0x28 tag (be16 id ++ be16 n ++ [byte source])) hx n).1] at released ⊢
        exact released
      · have few : x.relit + n < x.customers := by omega
        have one := oneSegment_relit (p := s.begun 0x28 tag (be16 id ++ be16 n ++ [byte source])) hx n
        have spec := addRelit_spec (p := s.begun 0x28 tag (be16 id ++ be16 n ++ [byte source])) hx n
        rw [← relightSegment_some few] at one spec
        rw [Nat.min_eq_left (Nat.le_of_lt few)] at one spec
        refine ⟨_, _, run one, one, fun _ => ⟨rfl, rfl, rfl, rfl, by rw [spec.1]; rfl, fun o r member hr => ?_⟩,
          fun done => absurd done all⟩
        rw [spec.2.1 o r member hr, Nat.add_sub_cancel_left]
        rfl
  · intro tag id o x r s ready hid hx w member hr others restored
    refine ⟨fun recharged fit empty => ?_, fun n source some_ hn hs admitted all => ?_⟩
    · have act := purgeRule_act (p := s.begun 0x27 tag (be16 id)) (id_read hid) hid hx recharged fit
      have one := (oneSegment_restored (p := s.begun 0x27 tag (be16 id)) hx).decided
      rw [purgeSegment_empty empty, supplyCode_of_get? one.1] at act
      obtain ⟨q, frame, dispatch, link, released, this, elsewhere, more, last⟩ := restoration
        (p := s.begun 0x27 tag (be16 id)) (p' := s.begun 0x27 tag (be16 id)) (x' := x) w hx member (by
          rw [show (s.begun 0x27 tag (be16 id)).segments.set id x = s.part.segments from set_self w hx]
          rfl) (fun _ => rfl) hr rfl
      refine ⟨q, frame, dispatch, link, released, this, elsewhere, fun some_ => ?_, fun none_ => ?_⟩
      · rw [more some_] at act
        exact request_ok (h := purgeRule) rfl tag ready.1 rfl (decide_eq_true ready.2) act
      · rw [last none_] at act
        exact request_ok (h := purgeRule) rfl tag ready.1 rfl (decide_eq_true ready.2) act
    · have ⟨id_eq, n_eq, source_eq⟩ := relight_reads hid hn hs
      have act := relightReportRule_act (p := s.begun 0x28 tag (be16 id ++ be16 n ++ [byte source])) id_eq n_eq source_eq
        hid some_ hs hx admitted
      have one := oneSegment_relightSegment (p := s.begun 0x28 tag (be16 id ++ be16 n ++ [byte source])) hx all
      have ⟨frame', outages, _⟩ := addRelit_spec (p := s.begun 0x28 tag (be16 id ++ be16 n ++ [byte source])) hx n
      have told : be16 0 ++ [byte SupplyState.supplied.code] = [0, 0, 0] := by decide
      rw [supplyCode_of_get? one.1, one.1, Option.map_some, Option.getD_some, told, relightSegment_all all] at act
      have full : min (x.relit + n) x.customers = x.customers := by omega
      rw [full] at frame' outages
      have outages := outages o r member hr
      obtain ⟨q, frame, dispatch, link, released, this, elsewhere, more, last⟩ := restoration
        (p := s.begun 0x28 tag (be16 id ++ be16 n ++ [byte source])) w hx member frame'
        (fun u => by rw [outages, set_set])
        (r' := { r with customersRelit := r.customersRelit + (x.customers - x.relit) }) (by rw [outages]; simp) rfl
      refine ⟨q, frame, dispatch, link, released, this, elsewhere, fun some_ => ?_, fun none_ => ?_⟩
      · rw [more some_] at act
        exact request_ok (h := relightReportRule) rfl tag ready.1 rfl (decide_eq_true ready.2) act
      · rw [last none_] at act
        exact request_ok (h := relightReportRule) rfl tag ready.1 rfl (decide_eq_true ready.2) act

end Sys2Proof.Proofs
end


section
/-!
What a completed supply trace writes: the segments, the members that lose their gas again, and the joiners' record
(R93–R95, R161–R164).
-/

namespace Sys2Proof.Proofs

open Sys2Proof Sys2Proof.Machine

/-! ## Picking a record by its time -/

section
variable {es : List (Nat × Nat)} {r : Nat × Nat}

theorem pickBy_eq_none {before : Nat → Nat → Bool} (h : pickBy before es = none) : es = [] := by
  cases es with
  | nil => rfl
  | cons e rest =>
    rw [pickBy] at h
    split at h
    · cases h
    · split at h <;> cases h

/-- The earliest of the times, and of equal ones the lowest id (R162). -/
theorem pickBy_earliest (rise : es.Pairwise fun a b => a.1 < b.1)
    (h : pickBy (fun r e => decide (r < e)) es = some r) : ∀ e ∈ es, r.2 < e.2 ∨ (r.2 = e.2 ∧ r.1 ≤ e.1) := by
  induction es generalizing r with
  | nil => simp
  | cons e rest ih =>
    obtain ⟨least, rise⟩ := List.pairwise_cons.mp rise
    rw [pickBy] at h
    split at h
    next none_ =>
      cases h
      cases pickBy_eq_none none_
      simp
    next r' found =>
      have ih := ih rise found
      have above := least r' (Laws.pickBy_mem _ _ _ found)
      intro a ha
      split at h
      next sooner =>
        cases h
        have sooner := of_decide_eq_true sooner
        rcases List.mem_cons.mp ha with rfl | ha
        · exact .inl sooner
        · exact ih a ha
      next later =>
        cases h
        have later : ¬r'.2 < e.2 := fun sooner => later (decide_eq_true sooner)
        rcases List.mem_cons.mp ha with rfl | ha
        · exact .inr ⟨rfl, Nat.le_refl _⟩
        · have := ih a ha
          have := least a ha
          omega

/-- The latest of the times, and of equal ones the highest id (R162). -/
theorem pickBy_latest (rise : es.Pairwise fun a b => a.1 < b.1)
    (h : pickBy (fun r e => decide (e ≤ r)) es = some r) : ∀ e ∈ es, e.2 < r.2 ∨ (e.2 = r.2 ∧ e.1 ≤ r.1) := by
  induction es generalizing r with
  | nil => simp
  | cons e rest ih =>
    obtain ⟨least, rise⟩ := List.pairwise_cons.mp rise
    rw [pickBy] at h
    split at h
    next none_ =>
      cases h
      cases pickBy_eq_none none_
      simp
    next r' found =>
      have ih := ih rise found
      have above := least r' (Laws.pickBy_mem _ _ _ found)
      intro a ha
      split at h
      next later =>
        cases h
        have later := of_decide_eq_true later
        rcases List.mem_cons.mp ha with rfl | ha
        · omega
        · exact ih a ha
      next sooner =>
        cases h
        have sooner : ¬e.2 ≤ r'.2 := fun later => sooner (decide_eq_true later)
        rcases List.mem_cons.mp ha with rfl | ha
        · exact .inr ⟨rfl, Nat.le_refl _⟩
        · have := ih a ha
          omega

end

theorem entries_rise {t : Table α} {room : Nat} (w : t.wf room = true) : t.entries.Pairwise fun a b => a.1 < b.1 :=
  List.pairwise_map.mp ((Laws.wf_iff t room).mp w).1

theorem firstFree_none {t : Table α} {room k : Nat} (h : t.firstFree room = none) (hk : k < room) :
    ∃ x, t.get? k = some x := by
  have := List.find?_eq_none.mp h k (List.mem_range.mpr hk)
  exact Option.ne_none_iff_exists'.mp (by simpa [Table.has] using this)

/-- The record that the joiners take, in the three cases of the register (R162). -/
theorem outageFor_cases (p : Part) (c : Cause) (w : p.outages.wf 64 = true) : ∃ o base joined,
    p.outageFor c = some (o, base, joined) ∧
    ((p.outages.firstFree 64 = some o ∧ base = openedOutage c p.time) ∨
      (p.outages.firstFree 64 = none ∧ base = openedOutage c p.time ∧ ∃ r t, p.outages.get? o = some r ∧
        r.ended = some t ∧ ∀ o' r' t', p.outages.get? o' = some r' → r'.ended = some t' → t < t' ∨ (t = t' ∧ o ≤ o')) ∨
      (p.outages.firstFree 64 = none ∧ (∀ o' r', p.outages.get? o' = some r' → r'.ended = none) ∧
        ∃ r, p.outages.get? o = some r ∧ base = { r with cause := .mixed, item := none, plan := none } ∧
          ∀ o' r', p.outages.get? o' = some r' → r'.opened < r.opened ∨ (r'.opened = r.opened ∧ o' ≤ o))) := by
  simp only [Part.outageFor]
  cases full : p.outages.firstFree 64 with
  | some o => exact ⟨o, _, _, rfl, .inl ⟨rfl, rfl⟩⟩
  | none =>
    have rise := entries_rise w
    cases found : pickBy (fun r e => decide (r < e))
        (p.outages.entries.filterMap fun e => e.2.ended.map fun t => (e.1, t)) with
    | some e =>
      obtain ⟨o, t⟩ := e
      have mem := Laws.pickBy_mem _ _ _ found
      obtain ⟨⟨k, r⟩, hr, at_⟩ := List.mem_filterMap.mp mem
      obtain ⟨t', ended, same⟩ := Option.map_eq_some_iff.mp at_
      obtain ⟨rfl, rfl⟩ := Prod.mk.inj same
      have order := pickBy_earliest (List.Pairwise.filterMap _ (fun a b lt a' ha b' hb => by
        obtain ⟨_, _, rfl⟩ := Option.map_eq_some_iff.mp ha
        obtain ⟨_, _, rfl⟩ := Option.map_eq_some_iff.mp hb
        exact lt) rise) found
      refine ⟨k, _, _, rfl, .inr (.inl ⟨rfl, rfl, r, t', get?_of_mem w hr, ended, fun o' r' u hr' ended' => ?_⟩)⟩
      exact order (o', u) (List.mem_filterMap.mpr ⟨(o', r'), Laws.mem_of_get? _ _ _ hr', by simp [ended']⟩)
    | none =>
      have none_ended : ∀ o' r', p.outages.get? o' = some r' → r'.ended = none := fun o' r' hr' => by
        cases ended : r'.ended with
        | none => rfl
        | some t =>
          have : (o', t) ∈ p.outages.entries.filterMap fun e => e.2.ended.map fun t => (e.1, t) :=
            List.mem_filterMap.mpr ⟨(o', r'), Laws.mem_of_get? _ _ _ hr', by simp [ended]⟩
          rw [pickBy_eq_none found] at this
          cases this
      cases latest : pickBy (fun r e => decide (e ≤ r)) (p.outages.entries.map fun e => (e.1, e.2.opened)) with
      | none =>
        obtain ⟨x, hx⟩ := firstFree_none full (show 0 < 64 by decide)
        have := Laws.mem_of_get? _ _ _ hx
        rw [List.map_eq_nil_iff.mp (pickBy_eq_none latest)] at this
        cases this
      | some e =>
        obtain ⟨o, t⟩ := e
        obtain ⟨⟨k, r⟩, hr, same⟩ := List.mem_map.mp (Laws.pickBy_mem _ _ _ latest)
        cases same
        have hr := get?_of_mem w hr
        have order := pickBy_latest (List.pairwise_map.mpr rise) latest
        refine ⟨k, { r with cause := .mixed, item := none, plan := none }, true, by simp [hr], .inr (.inr ⟨rfl, none_ended, r, hr, rfl, fun o' r' hr' => ?_⟩)⟩
        exact order (o', r'.opened) (List.mem_map.mpr ⟨(o', r'), Laws.mem_of_get? _ _ _ hr', rfl⟩)

/-! ## The joining of segments -/

theorem memberIn_iff {p : Part} (w : p.segments.wf 512 = true) (o d : Nat) : p.memberIn o d = true ↔
    ∃ n x, p.segments.get? n = some x ∧ x.outage = some o ∧ x.district = d := by
  simp only [Part.memberIn, Table.any, List.any_eq_true, Bool.and_eq_true, decide_eq_true_eq]
  constructor
  · rintro ⟨⟨n, x⟩, hx, joined, here⟩
    exact ⟨n, x, get?_of_mem w hx, joined, here⟩
  · rintro ⟨n, x, hx, joined, here⟩
    exact ⟨(n, x), Laws.mem_of_get? _ _ _ hx, joined, here⟩

/-- One joiner's place in a record's listing, and the overflow beyond 64 (R163). -/
def enlist (l : List Nat × Nat) (seg : Nat) : List Nat × Nat :=
  if l.1.contains seg then l else if l.1.length < 64 then (l.1 ++ [seg], l.2) else (l.1, bump l.2)

/-- A segment as it stands once it has joined a record (R161). -/
def Segment.joining (x : Segment) (o : Nat) : Segment := { x with outage := some o, suspect := false, noGas := [] }

/-- A record with one more member (R164). -/
def withMember (o : Outage) (seg : Nat) (x : Segment) : Outage :=
  { o with
    members := o.members + 1
    customersOff := o.customersOff + x.customers
    priorityOff := o.priorityOff + x.priority
    listing := (enlist (o.listing, o.overflow) seg).1
    overflow := (enlist (o.listing, o.overflow) seg).2 }

theorem joinSegment_of_get? {p : Part} {seg : Nat} {x : Segment} (h : p.segments.get? seg = some x) (id : Nat)
    (o : Outage) : joinSegment id seg (p, o) =
      ({ p with
        segments := p.segments.set seg (Segment.joining x id)
        districts := p.districts.modify x.district fun d => { d with
          suspects := if x.suspect then d.suspects - 1 else d.suspects
          activeOutages := if p.memberIn id x.district then d.activeOutages else d.activeOutages + 1 } },
        withMember o seg x) := by
  simp only [joinSegment, h, Part.onDistrict, withMember, enlist, Segment.joining]
  refine Prod.ext ?_ ?_
  · cases p.memberIn id x.district <;> rfl
  · dsimp only
    split
    · rfl
    · split <;> rfl

/-- The listing after some joiners, each listed once (R163). -/
theorem foldl_enlist {ids : List Nat} (once : ids.Nodup) (l : List Nat) (k : Nat) :
    let new := ids.filter fun id => !l.contains id
    let room := 64 - l.length
    ids.foldl enlist (l, k) = (l ++ new.take room,
      if new.length ≤ room then k else min 65535 (k + (new.length - room))) := by
  induction ids generalizing l k with
  | nil => simp
  | cons a rest ih =>
    obtain ⟨fresh, once⟩ := List.nodup_cons.mp once
    simp only [List.foldl_cons, List.filter_cons]
    by_cases listed : l.contains a = true
    · simp only [enlist, listed, if_true, Bool.not_true]
      exact ih once l k
    · simp only [enlist, listed, Bool.not_false, if_true]
      have unlisted : ∀ l' : List Nat, rest.filter (fun id => !(l' ++ [a]).contains id) =
          rest.filter fun id => !l'.contains id := fun l' => List.filter_congr fun id mem => by
        have : id ≠ a := fun same => fresh (same ▸ mem)
        simp [this]
      by_cases short : l.length < 64
      · rw [if_neg (by simp), if_pos short, ih once, unlisted]
        obtain ⟨n, room⟩ : ∃ n, 64 - l.length = n + 1 := ⟨63 - l.length, by omega⟩
        have room' : 64 - (l ++ [a]).length = n := by simp; omega
        simp only [room, room', List.take_succ_cons, List.append_assoc, List.singleton_append, List.length_cons,
          Nat.add_le_add_iff_right, Nat.add_sub_add_right]
      · rw [if_neg (by simp), if_neg short, ih once]
        have room : 64 - l.length = 0 := by omega
        simp only [room, List.take_zero, List.append_nil, List.length_cons, Nat.sub_zero, Nat.le_zero_eq,
          Nat.add_one_ne_zero, if_false, Prod.mk.injEq, true_and, bump, maxCount]
        split <;> omega

/-- What the joiners of a group leave: their own records, their districts' counts, and the record's (R161–R164). The
entries given are the joiners as they stood before the trace wrote them, which the counts read. -/
theorem foldl_joinSegment (id : Nat) (es : List (Nat × Segment)) : ∀ (p : Part) (o : Outage),
    p.segments.wf 512 = true → (es.map (·.1)).Nodup →
    (∀ e ∈ es, ∃ x, p.segments.get? e.1 = some x ∧ x.district = e.2.district ∧ x.suspect = e.2.suspect ∧
      x.customers = e.2.customers ∧ x.priority = e.2.priority) →
    let q := ((es.map (·.1)).foldl (fun acc seg => joinSegment id seg acc) (p, o)).1
    let o' := ((es.map (·.1)).foldl (fun acc seg => joinSegment id seg acc) (p, o)).2
    q = { p with segments := q.segments, districts := q.districts } ∧ q.segments.wf 512 = true ∧
    (∀ n, q.segments.get? n = (p.segments.get? n).map fun x =>
      if n ∈ es.map (·.1) then Segment.joining x id else x) ∧
    (∀ d, q.districts.get? d = (p.districts.get? d).map fun r => { r with
      suspects := r.suspects - (es.filter fun e => e.2.suspect && decide (e.2.district = d)).length
      activeOutages := if (es.any fun e => decide (e.2.district = d)) && !p.memberIn id d then r.activeOutages + 1
        else r.activeOutages }) ∧
    o' = { o with
      members := o.members + es.length
      customersOff := o.customersOff + (es.map (·.2.customers)).sum
      priorityOff := o.priorityOff + (es.map (·.2.priority)).sum
      listing := ((es.map (·.1)).foldl enlist (o.listing, o.overflow)).1
      overflow := ((es.map (·.1)).foldl enlist (o.listing, o.overflow)).2 } := by
  induction es with
  | nil => exact fun p o w _ _ => ⟨rfl, w, by simp, by simp, rfl⟩
  | cons e rest ih =>
    intro p o w once known
    obtain ⟨k, y⟩ := e
    obtain ⟨fresh, once⟩ := List.nodup_cons.mp once
    obtain ⟨x, hx, district, suspect, customers, priority⟩ := known (k, y) List.mem_cons_self
    simp only [List.map_cons, List.foldl_cons, joinSegment_of_get? hx]
    generalize hr : ({ p with
        segments := p.segments.set k (Segment.joining x id)
        districts := p.districts.modify x.district fun d => { d with
          suspects := if x.suspect then d.suspects - 1 else d.suspects
          activeOutages := if p.memberIn id x.district then d.activeOutages else d.activeOutages + 1 } } : Part) = r
    have segments : r.segments = p.segments.set k (Segment.joining x id) := by rw [← hr]
    have districts : r.districts = p.districts.modify x.district fun d => { d with
          suspects := if x.suspect then d.suspects - 1 else d.suspects
          activeOutages := if p.memberIn id x.district then d.activeOutages else d.activeOutages + 1 } := by rw [← hr]
    have w' : r.segments.wf 512 = true := segments ▸ Laws.wf_set_used _ _ _ _ _ w hx
    have member : ∀ d, r.memberIn id d = (p.memberIn id d || decide (y.district = d)) := fun d => by
      rw [Bool.eq_iff_iff, Bool.or_eq_true, memberIn_iff w', memberIn_iff w, decide_eq_true_eq, segments]
      constructor
      · rintro ⟨n, z, hz, joined, here⟩
        rw [get?_set] at hz
        split at hz
        · cases hz
          exact .inr (district.symm.trans here)
        · exact .inl ⟨n, z, hz, joined, here⟩
      · rintro (⟨n, z, hz, joined, here⟩ | here)
        · by_cases same : n = k
          · subst same
            cases hx.symm.trans hz
            exact ⟨n, Segment.joining x id, by simp, rfl, here⟩
          · exact ⟨n, z, (Laws.get?_set_other _ _ _ _ same).trans hz, joined, here⟩
        · exact ⟨k, Segment.joining x id, by simp, rfl, district.trans here⟩
    obtain ⟨frame, wf, segs, dists, out⟩ := ih r (withMember o k x) w' once fun e he => by
      obtain ⟨z, hz, rest⟩ := known e (List.mem_cons_of_mem _ he)
      have other : e.1 ≠ k := fun same => fresh (List.mem_map.mpr ⟨e, he, same⟩)
      exact ⟨z, by rw [segments]; exact (Laws.get?_set_other _ _ _ _ other).trans hz, rest⟩
    refine ⟨?_, wf, fun n => ?_, fun d => ?_, ?_⟩
    · rw [frame, ← hr]
    · rw [segs, segments, get?_set]
      by_cases same : n = k
      · subst same
        simp only [if_true, List.mem_cons_self, hx, Option.map_some, if_neg fresh]
      · simp only [List.mem_cons, same, false_or, if_false]
    · rw [dists, districts, get?_modify]
      cases p.districts.get? d with
      | none => rfl
      | some t =>
        simp only [Option.map_some, Option.some.injEq, member, List.filter_cons, List.any_cons, district, suspect]
        by_cases here : y.district = d
        · have lit : (if d = y.district then true else false) = true := if_pos here.symm
          simp only [here, if_true, decide_true, Bool.and_true, Bool.true_or, Bool.true_and, Bool.or_true,
            Bool.not_true, Bool.and_false, Bool.false_eq_true, if_false]
          congr 1
          · cases p.memberIn id d <;> simp
          · cases y.suspect <;> simp; omega
        · have no : decide (y.district = d) = false := decide_eq_false here
          simp only [no, Ne.symm here, if_false, Bool.and_false, Bool.false_eq_true, Bool.or_false, Bool.false_or]
    · rw [out]
      simp only [withMember, customers, priority, List.length_cons, List.sum_cons, Prod.mk.eta]
      congr 1 <;> omega

/-- The joiners of a group with a record for them (R161–R164). -/
theorem joinOutage_spec {p : Part} {c : Cause} {id : Nat} {o : Outage} {j : Bool} {es : List (Nat × Segment)}
    (some_ : es ≠ []) (found : p.outageFor c = some (id, o, j)) (w : p.segments.wf 512 = true)
    (once : (es.map (·.1)).Nodup) (known : ∀ e ∈ es, ∃ x, p.segments.get? e.1 = some x ∧ x.district = e.2.district ∧
      x.suspect = e.2.suspect ∧ x.customers = e.2.customers ∧ x.priority = e.2.priority) :
    let q := joinOutage (es.map (·.1)) c p
    let new := (es.map (·.1)).filter fun id => !o.listing.contains id
    let room := 64 - o.listing.length
    q = { p with link := q.link, segments := q.segments, districts := q.districts, outages := q.outages,
                 panel := q.panel } ∧
    (∀ n, q.segments.get? n = (p.segments.get? n).map fun x =>
      if n ∈ es.map (·.1) then Segment.joining x id else x) ∧
    (∀ d, q.districts.get? d = (p.districts.get? d).map fun r => { r with
      suspects := r.suspects - (es.filter fun e => e.2.suspect && decide (e.2.district = d)).length
      activeOutages := if (es.any fun e => decide (e.2.district = d)) && !p.memberIn id d then r.activeOutages + 1
        else r.activeOutages }) ∧
    q.outages = p.outages.set id { o with
      members := o.members + es.length
      customersOff := o.customersOff + (es.map (·.2.customers)).sum
      priorityOff := o.priorityOff + (es.map (·.2.priority)).sum
      listing := o.listing ++ new.take room
      overflow := if new.length ≤ room then o.overflow else min 65535 (o.overflow + (new.length - room)) } := by
  intro q new room
  obtain ⟨frame, wf, segs, dists, out⟩ := foldl_joinSegment id es p o w once known
  rw [foldl_enlist once] at out
  have q_eq : q = place (.outageOpened id j
      ((es.map (·.1)).foldl (fun acc seg => joinSegment id seg acc) (p, o)).2.cause
      ((es.map (·.1)).foldl (fun acc seg => joinSegment id seg acc) (p, o)).2.item
      ((es.map (·.1)).foldl (fun acc seg => joinSegment id seg acc) (p, o)).2.plan (es.map (·.1)).length
      ((es.map (·.1)).foldl (fun acc seg => joinSegment id seg acc) (p, o)).2.customersOff
      ((es.map (·.1)).foldl (fun acc seg => joinSegment id seg acc) (p, o)).2.priorityOff)
      (putOutage id ((es.map (·.1)).foldl (fun acc seg => joinSegment id seg acc) (p, o)).2
        ((es.map (·.1)).foldl (fun acc seg => joinSegment id seg acc) (p, o)).1) := by
    simp only [q, joinOutage]
    split
    next none_ => exact absurd (List.map_eq_nil_iff.mp none_) some_
    · rw [found]
  rw [q_eq]
  refine ⟨?_, fun n => ?_, fun d => ?_, ?_⟩
  · rw [frame]
    rfl
  · rw [← segs n]; rfl
  · rw [← dists d]; rfl
  · rw [Laws.place_outages, putOutage, Laws.refreshLamps_outages, out, frame]

/-! ## The members that lose their gas again -/

theorem loseMembers_frame (es : List (Nat × Segment)) : ∀ p : Part, loseMembers es p =
    { p with outages := (loseMembers es p).outages, panel := (loseMembers es p).panel } := by
  induction es with
  | nil => exact fun p => rfl
  | cons e rest ih =>
    intro p
    have head : ∃ r, loseMembers (e :: rest) p = loseMembers rest r ∧
        r = { p with outages := r.outages, panel := r.panel } := by
      refine ⟨_, rfl, ?_⟩
      dsimp only
      split
      · unfold loseMember
        split <;> rfl
      · rfl
    obtain ⟨r, step, same⟩ := head
    rw [step]
    have := ih r
    rw [same] at this ⊢
    exact this

theorem loseMember_get? (id n k : Nat) (p : Part) : (loseMember id n p).outages.get? k =
    (p.outages.get? k).map fun r => { r with customersRelit := r.customersRelit - if k = id then n else 0 } := by
  unfold loseMember
  split
  next free =>
    by_cases same : k = id
    · subst same
      simp [free]
    · simp [same]
  next o ho =>
    rw [putOutage, Laws.refreshLamps_outages, get?_set]
    by_cases same : k = id
    · subst same
      simp [ho]
    · simp [same]

/-- Each outage loses what its members that are lost again had relit (R164). -/
theorem loseMembers_get? (es : List (Nat × Segment)) (o : Nat) : ∀ p : Part, (loseMembers es p).outages.get? o =
    (p.outages.get? o).map fun r => { r with customersRelit :=
      r.customersRelit - ((es.filter fun e => decide (e.2.outage = some o)).map (·.2.relit)).sum } := by
  induction es with
  | nil => simp [loseMembers]
  | cons e rest ih =>
    intro p
    have step : loseMembers (e :: rest) p = loseMembers rest (match e.2.outage with
      | some id => loseMember id e.2.relit p
      | none => p) := rfl
    rw [step, ih, List.filter_cons]
    cases member : e.2.outage with
    | none => simp
    | some id =>
      rw [loseMember_get?, Option.map_map]
      refine congrArg (fun f => Option.map f _) (funext fun r => ?_)
      by_cases here : o = id
      · simp [here, Nat.sub_sub]
      · simp [here, Ne.symm here]

theorem firstFree_congr {t u : Table α} (h : ∀ k, (t.get? k).isSome = (u.get? k).isSome) (room : Nat) :
    t.firstFree room = u.firstFree room := by
  unfold Table.firstFree
  congr 1
  exact funext fun k => by rw [Table.has, Table.has, h k]

theorem foldl_endJob_frame (jobs : List Job) : ∀ p : Part, jobs.foldl (fun p j => endJob j p) p =
    { p with link := (jobs.foldl (fun p j => endJob j p) p).link
             dispatch := (jobs.foldl (fun p j => endJob j p) p).dispatch } := by
  induction jobs with
  | nil => exact fun p => rfl
  | cons j rest ih =>
    intro p
    have := ih (endJob j p)
    rw [List.foldl_cons, this]
    simp

theorem exec_supplyTraceComplete {s : State} {c : Cause} {w : View} (engine : s.part.trace.engine = .supplyJob c)
    (view : s.part.trace.view = some w) :
    exec .supplyTraceComplete s = .next (s.withPart (completeTrace c w s.part)) := by
  have run : exec .supplyTraceComplete s = .next (s.withPart (traceEnds s.part)) := rfl
  rw [run, traceEnds, engine, view]

/-- The part as a completed trace's event has written the segments, their marks and the members lost again, before the
joiners are recorded (R93, R164). -/
def lostOff (w : View) (p : Part) : Part :=
  loseMembers (lostInTrace w p) (markSegments (changedByTrace w p) (writeTrace w p))

section
variable (w : View) (p : Part)

theorem lostOff_frame : lostOff w p = { p with
    link := (lostOff w p).link, segments := (lostOff w p).segments, outages := (lostOff w p).outages
    panel := (lostOff w p).panel } := by
  rw [lostOff, loseMembers_frame]
  simp [writeTrace]

theorem lostOff_segment (n : Nat) (wf : p.segments.wf 512 = true) : (lostOff w p).segments.get? n =
    (p.segments.get? n).map fun x =>
    let reached := findEntry n (supplyTrace p w [] [])
    { x.traced reached with
      changed := x.changed || decide (x.reaching ≠ reached ∨ x.supply ≠ supplyAfter reached.isSome x.supply) } := by
  rw [lostOff, loseMembers_frame, markSegments_get?, writeTrace, Laws.get?_map, Option.map_map]
  cases hx : p.segments.get? n with
  | none => rfl
  | some x =>
    have mem : n ∈ changedByTrace w p ↔ x.reaching ≠ findEntry n (supplyTrace p w [] []) ∨
        x.supply ≠ supplyAfter (findEntry n (supplyTrace p w [] [])).isSome x.supply := by
      rw [changedByTrace, mem_idsWhere wf]
      simp [hx]
    simp only [Option.map_some, Function.comp, mem]
    rfl

theorem lostOff_outage (o : Nat) : (lostOff w p).outages.get? o = (p.outages.get? o).map fun r => { r with
    customersRelit := r.customersRelit -
      (((lostInTrace w p).filter fun e => decide (e.2.outage = some o)).map (·.2.relit)).sum } := by
  rw [lostOff, loseMembers_get?]
  simp [writeTrace]

end

/-- The relight jobs that a trace ends (R156). -/
def relightsOf (lost : List (Nat × Segment)) : List Job :=
  (lost.filter fun e => decide (e.2.supply = .purged ∨ e.2.supply = .relighting)).map fun e => ⟨.relight, e.1⟩

theorem endRelights_eq (lost : List (Nat × Segment)) (p : Part) :
    endRelights lost p = (relightsOf lost).foldl (fun p j => endJob j p) p := by
  rw [relightsOf, List.foldl_map, endRelights]
  refine congrArg (fun es => List.foldl _ p es) (List.filter_congr fun e _ => ?_)
  rw [Bool.eq_iff_iff]
  simp

/-- The rest of a completed trace's event leaves the records as the outage register left them. -/
theorem endRelights_frame (lost : List (Nat × Segment)) (p : Part) : endRelights lost p =
    { p with link := (endRelights lost p).link, dispatch := (endRelights lost p).dispatch } := by
  rw [endRelights_eq]
  exact foldl_endJob_frame _ p

theorem lostInTrace_ids_nodup {w : View} {p : Part} (wf : p.segments.wf 512 = true) :
    (((lostInTrace w p).filter fun e => e.2.outage.isNone).map (·.1)).Nodup := by
  have rise : p.segments.ids.Nodup := ((Laws.wf_iff _ _).mp wf).1.imp fun lt => Nat.ne_of_lt lt
  exact rise.sublist ((List.filter_sublist.trans List.filter_sublist).map _)

/-- The joiners, as the joining finds them: the trace has left what the counts read (R93). -/
theorem joiner_known {w : View} {p : Part} (wf : p.segments.wf 512 = true) {e : Nat × Segment}
    (h : e ∈ (lostInTrace w p).filter fun e => e.2.outage.isNone) : ∃ x, (lostOff w p).segments.get? e.1 = some x ∧
      x.district = e.2.district ∧ x.suspect = e.2.suspect ∧ x.customers = e.2.customers ∧ x.priority = e.2.priority := by
  have mem := (List.mem_filter.mp (List.mem_filter.mp h).1).1
  rw [lostOff_segment w p _ wf, get?_of_mem wf mem]
  exact ⟨_, rfl, rfl, rfl, rfl, rfl⟩

theorem lostOff_tables {w : View} {p : Part} (tables : p.tablesOk) : (lostOff w p).tablesOk := by
  refine Laws.Moves.tables ?_ tables
  refine Laws.m_foldl ((Laws.m_segments (.refl p) _ (Laws.wf_map _ _ _)).trans (Laws.m_markSegments _ _)) _
    (fun q e => ?_) _
  split
  · exact Laws.m_loseMember _ _ _
  · exact .refl q

theorem traced_relit {feed : Option Nat} {st : SupplyState} {n : Nat} :
    (if supplyAfter feed.isSome st = .off && st != .off then 0 else n) = if feed.isNone ∧ st ≠ .off then 0 else n := by
  cases feed <;> cases st <;> rfl

/-- Settles O40: what the trace writes of the segments, the members that are lost again, and the joiners' record, each
by its lemma; the relight jobs end and the arbiter decides on the part so written. -/
theorem supplyTraceIsApplied : Obligations.SupplyTraceIsApplied := by
  unfold Obligations.SupplyTraceIsApplied
  intro c w s tables engine view p reached after lost joining joiners again fresh
  obtain ⟨-, -, segs', -, -, -, -, -, -, -, outs', -⟩ := lostOff_tables (w := w) tables
  obtain ⟨-, -, segs, -, -, -, -, -, -, -, outs, -⟩ := tables
  have lost_eq : lostInTrace w p = lost :=
    List.filter_congr fun e _ => congrArg _ (by cases e.2.supply <;> rfl)
  have fresh_eq : fresh = openedOutage c p.time := by cases c <;> rfl
  have frame := lostOff_frame w p
  have segments := fun n => lostOff_segment w p n segs
  have outages := lostOff_outage w p
  rw [lost_eq] at outages
  have run := exec_supplyTraceComplete engine view
  rw [completeTrace_eq, ← lostOff, lost_eq] at run
  have alike : ∀ m : Part, let q := dispatchDecide (endRelights lost (idleEngine m))
      q.segments = m.segments ∧ q.districts = m.districts ∧ q.outages = m.outages := fun m => by
    intro q
    simp only [q, Laws.f_dispatchDecide_segments, Laws.f_dispatchDecide_districts, Laws.f_dispatchDecide_outages]
    rw [endRelights_frame]
    exact ⟨rfl, rfl, rfl⟩
  have rest : ∀ m : Part, m = { p with
      link := m.link, segments := m.segments, districts := m.districts, outages := m.outages, panel := m.panel } →
      let q := dispatchDecide (endRelights lost (idleEngine m))
      q.trace = { p.trace with engine := .idle, view := none, changeSet := [] } ∧
      q.clock = p.clock ∧ q.valves = p.valves ∧ q.feeds = p.feeds ∧ q.points = p.points ∧ q.plans = p.plans ∧
      q.register = p.register ∧ q.lines = p.lines ∧ ∃ h : Part, h.dispatch = p.dispatch ∧ h.clock = p.clock ∧
          q = dispatchDecide ((relightsOf lost).foldl (fun r j => endJob j r) h) ∧
          p.Released ((relightsOf lost).foldl (fun r j => endJob j r) h) (relightsOf lost) := fun m same => by
    have dispatch : (idleEngine m).dispatch = p.dispatch := by rw [idleEngine, same]
    intro q
    have q_eq : q = dispatchDecide ((relightsOf lost).foldl (fun r j => endJob j r) (idleEngine m)) := by
      rw [← endRelights_eq]
    refine ⟨?_, ?_, ?_, ?_, ?_, ?_, ?_, ?_, idleEngine m, dispatch, by rw [idleEngine, same], q_eq,
      released_endJobs _ dispatch⟩
    all_goals
      rw [q_eq, foldl_endJob_frame, same]
      simp [idleEngine]
  have written : ∀ id x, p.segments.get? id = some x → ∃ y, (lostOff w p).segments.get? id = some y ∧ y = { x with
      reaching := reached id, supply := after id x
      relit := if (reached id).isNone ∧ x.supply ≠ .off then 0 else x.relit
      changed := x.changed || decide (x.reaching ≠ reached id ∨ x.supply ≠ after id x) } := fun id x hx => by
    refine ⟨_, by rw [segments, hx]; rfl, ?_⟩
    simp only [Segment.traced, traced_relit]
    rfl
  have once : (joining.map (·.1)).Nodup := by
    have := lostInTrace_ids_nodup (w := w) segs
    rwa [lost_eq] at this
  by_cases none_ : joining = []
  · have empty : joiners = [] := by simp [joiners, none_]
    have m_eq : joinOutage (joinersOf lost) c (lostOff w p) = lostOff w p := by
      rw [show joinersOf lost = joiners from rfl, empty]
      rfl
    rw [m_eq] at run
    obtain ⟨segs_eq, dists_eq, outs_eq⟩ := alike (lostOff w p)
    obtain ⟨trace, clock, valves, feeds, points, plans, register, lines, ended⟩ := rest (lostOff w p) (by rw [frame])
    refine ⟨_, run, trace, clock, valves, feeds, points, plans, register, lines, ended, fun id x hx => ?_, fun _ => ?_,
      fun some_ => absurd empty some_⟩
    · obtain ⟨y, hy, y_eq⟩ := written id x hx
      exact ⟨y, segs_eq ▸ hy, by rw [y_eq], fun _ => by rw [y_eq]; exact ⟨rfl, rfl, rfl⟩⟩
    · refine ⟨dists_eq.trans (by rw [frame]), fun o r hr => ?_⟩
      rw [outs_eq, outages, hr]
      rfl
  · have back : ∀ o r', (lostOff w p).outages.get? o = some r' → ∃ r, p.outages.get? o = some r ∧
        r' = { r with customersRelit := r.customersRelit - again o } := fun o r' hr' => by
      rw [outages] at hr'
      obtain ⟨r, hr, same⟩ := Option.map_eq_some_iff.mp hr'
      exact ⟨r, hr, same.symm⟩
    have forth : ∀ o r, p.outages.get? o = some r →
        (lostOff w p).outages.get? o = some { r with customersRelit := r.customersRelit - again o } := fun o r hr => by
      rw [outages, hr]
      rfl
    have free : (lostOff w p).outages.firstFree 64 = p.outages.firstFree 64 :=
      firstFree_congr (fun k => by rw [outages, Option.isSome_map]) 64
    have now : (lostOff w p).time = p.time := by rw [frame]; rfl
    obtain ⟨o, base, j, found, base', same, picked⟩ : ∃ o base j, (lostOff w p).outageFor c = some (o, base, j) ∧
        ∃ base', base = { base' with customersRelit := base'.customersRelit - again o } ∧
        ((p.outages.firstFree 64 = some o ∧ base' = fresh) ∨
          (p.outages.firstFree 64 = none ∧ base' = fresh ∧ ∃ r t, p.outages.get? o = some r ∧ r.ended = some t ∧
            ∀ o' r' t', p.outages.get? o' = some r' → r'.ended = some t' → t < t' ∨ (t = t' ∧ o ≤ o')) ∨
          (p.outages.firstFree 64 = none ∧ (∀ o' r', p.outages.get? o' = some r' → r'.ended = none) ∧
            ∃ r, p.outages.get? o = some r ∧ base' = { r with cause := .mixed, item := none, plan := none } ∧
              ∀ o' r', p.outages.get? o' = some r' → r'.opened < r.opened ∨ (r'.opened = r.opened ∧ o' ≤ o))) := by
      obtain ⟨o, base, j, found, cases_⟩ := outageFor_cases (lostOff w p) c outs'
      rw [free, now, ← fresh_eq] at cases_
      have empty : fresh = { fresh with customersRelit := fresh.customersRelit - again o } := by
        simp only [fresh]
        cases c <;> simp
      rcases cases_ with ⟨at_, rfl⟩ | ⟨none_, rfl, r', t, hr', ended, earliest⟩ | ⟨none_, active, r', hr', rfl, latest⟩
      · exact ⟨o, fresh, j, found, fresh, empty, .inl ⟨at_, rfl⟩⟩
      · obtain ⟨r, hr, rfl⟩ := back o r' hr'
        exact ⟨o, fresh, j, found, fresh, empty, .inr (.inl ⟨none_, rfl, r, t, hr, ended,
          fun o' r' t' hr' ended' => earliest o' _ t' (forth o' r' hr') ended'⟩)⟩
      · obtain ⟨r, hr, rfl⟩ := back o r' hr'
        exact ⟨o, _, j, found, { r with cause := .mixed, item := none, plan := none }, rfl,
          .inr (.inr ⟨none_, fun o' r' hr' => (active o' _ (forth o' r' hr') :), r, hr, rfl,
            fun o' r' hr' => (latest o' _ (forth o' r' hr') :)⟩)⟩
    have known : ∀ e ∈ joining, ∃ x, (lostOff w p).segments.get? e.1 = some x ∧ x.district = e.2.district ∧
        x.suspect = e.2.suspect ∧ x.customers = e.2.customers ∧ x.priority = e.2.priority := fun e he =>
      joiner_known segs (by rw [lost_eq]; exact he)
    obtain ⟨m_frame, m_segments, m_districts, m_outages⟩ := joinOutage_spec none_ found segs' once known
    rw [show joinersOf lost = joining.map (·.1) from rfl] at run
    obtain ⟨segs_eq, dists_eq, outs_eq⟩ := alike (joinOutage (joining.map (·.1)) c (lostOff w p))
    obtain ⟨trace, clock, valves, feeds, points, plans, register, lines, ended⟩ :=
      rest (joinOutage (joining.map (·.1)) c (lostOff w p)) (by
        rw [m_frame, frame])
    have memberIn : ∀ d, (lostOff w p).memberIn o d = p.memberIn o d := fun d => by
      rw [Bool.eq_iff_iff, memberIn_iff segs', memberIn_iff segs]
      constructor
      · rintro ⟨n, y, hy, joined, here⟩
        rw [segments] at hy
        obtain ⟨x, hx, rfl⟩ := Option.map_eq_some_iff.mp hy
        exact ⟨n, x, hx, joined, here⟩
      · rintro ⟨n, x, hx, joined, here⟩
        obtain ⟨y, hy, rfl⟩ := written n x hx
        exact ⟨n, _, hy, joined, here⟩
    refine ⟨_, run, trace, clock, valves, feeds, points, plans, register, lines, ended, fun id x hx => ?_,
      fun empty => absurd (List.map_eq_nil_iff.mp empty) none_,
      fun _ => ⟨o, base', picked, fun id mem => ?_, ?_, fun o' r other hr => ?_, fun d r hr => ?_⟩⟩
    · obtain ⟨y, hy, y_eq⟩ := written id x hx
      have now := m_segments id
      rw [hy, Option.map_some] at now
      refine ⟨_, segs_eq ▸ now, ?_, fun apart => ?_⟩
      · split <;> rw [y_eq] <;> rfl
      · rw [if_neg apart, y_eq]
        exact ⟨rfl, rfl, rfl⟩
    · obtain ⟨e, he, rfl⟩ := List.mem_map.mp mem
      obtain ⟨y, hy, -⟩ := known e he
      have now := m_segments e.1
      rw [hy, Option.map_some, if_pos mem] at now
      exact ⟨_, segs_eq ▸ now, rfl, rfl, rfl⟩
    · rw [outs_eq, m_outages, Laws.get?_set_same, same]
      simp only [joiners, List.length_map]
    · rw [outs_eq, m_outages]
      exact (Laws.get?_set_other _ _ _ _ other).trans (forth o' r hr)
    · rw [dists_eq, m_districts, memberIn, show (lostOff w p).districts = p.districts by rw [frame], hr]
      rfl

end Sys2Proof.Proofs
end


section
/-!
Operations on valves: what orders, cancellations and ends of operations leave, and what each makes of its valve's
operation (R32, R110–R116, R119).
-/

namespace Sys2Proof.Proofs

open Sys2Proof Sys2Proof.Machine

/-! ## What work on operations leaves -/

/-- Work on operations writes the lines, the outstations' sequence bits, the operations, the crews and the link. -/
structure Works (p q : Part) : Prop where
  frame : q = { p with
    link := q.link, lines := q.lines, outstations := q.outstations, valves := q.valves, dispatch := q.dispatch }
  bare : ∀ v, q.bare v = p.bare v
  comm : ∀ i, (q.outstations.get? i).map (·.comm) = (p.outstations.get? i).map (·.comm)

section
variable {p q r : Part}

theorem Works.refl (p : Part) : Works p p := ⟨rfl, fun _ => rfl, fun _ => rfl⟩

theorem Works.trans (h : Works p q) (k : Works q r) : Works p r := by
  refine ⟨?_, fun v => (k.bare v).trans (h.bare v), fun i => (k.comm i).trans (h.comm i)⟩
  have := k.frame
  rw [h.frame] at this
  exact this

theorem Works.time (h : Works p q) : q.time = p.time := by rw [h.frame]; rfl

theorem works_foldl {α : Type} (f : Part → α → Part) (hf : ∀ q a, Works q (f q a)) (as : List α) (p : Part) :
    Works p (as.foldl f p) := by
  induction as generalizing p with
  | nil => exact .refl p
  | cons a as ih => exact (hf p a).trans (ih _)

theorem answers_of_comm (h : ∀ i, (q.outstations.get? i).map (·.comm) = (p.outstations.get? i).map (·.comm)) (os : Nat) :
    q.answers os = p.answers os := by
  have read : ∀ r : Part, r.answers os = ((r.outstations.get? os).map (·.comm)).any
      fun c => decide (c = .unknown) || decide (c = .online) || decide (c = .suspect) := fun r => by
    unfold Part.answers
    cases r.outstations.get? os <;> rfl
  rw [read, read, h os]

theorem Works.modeFor (h : Works p q) (x : Valve) : q.modeFor x = p.modeFor x := by
  rw [Part.modeFor, Part.modeFor, answers_of_comm h.comm]

theorem bare_of_valves (h : q.valves = p.valves) (v : Nat) : q.bare v = p.bare v := by rw [Part.bare, Part.bare, h]

theorem works_place (n : Notice) (p : Part) : Works p (place n p) := ⟨rfl, fun _ => rfl, fun _ => rfl⟩

theorem works_endJob (j : Job) (p : Part) : Works p (endJob j p) :=
  ⟨by conv_lhs => rw [endJob_frame]
      simp, bare_of_valves (by simp), fun _ => by simp⟩

theorem works_onLine (n : Nat) (f : Line → Line) (p : Part) : Works p (p.onLine n f) := ⟨rfl, fun _ => rfl, fun _ => rfl⟩

theorem works_sendCommand (n : Nat) (p : Part) : Works p (sendCommand n p) := by
  refine ⟨?_, bare_of_valves (by simp), (lineOnly_sendCommand n p).comm⟩
  unfold sendCommand
  split
  · rfl
  · dsimp only
    split <;> rfl

theorem works_wakeLine (n : Nat) (p : Part) : Works p (wakeLine n p) := by
  unfold wakeLine
  dsimp only
  split
  · exact works_sendCommand n p
  · exact .refl p

theorem works_offerCommand (c : Command) (p : Part) : Works p (offerCommand c p).1 := by
  unfold offerCommand
  dsimp only
  split
  · exact .refl p
  · split
    · exact (works_onLine _ _ p).trans (works_wakeLine _ _)
    · split
      · exact .refl p
      · split
        · exact .refl p
        · exact (works_onLine _ _ p).trans (works_wakeLine _ _)

theorem works_offerStop (v : Nat) (p : Part) : Works p (offerStop v p) := by
  unfold offerStop
  split
  · exact .refl p
  · exact works_offerCommand _ p

theorem works_withdrawCommand (v : Nat) (p : Part) : Works p (withdrawCommand v p) := by
  unfold withdrawCommand
  split
  · exact .refl p
  · exact works_onLine _ _ p

theorem works_onValve {v : Nat} {f : Valve → Valve} (hf : ∀ x, { f x with operation := none } = { x with operation := none })
    (p : Part) : Works p (p.onValve v f) := by
  refine ⟨rfl, fun u => ?_, fun _ => rfl⟩
  simp only [Part.bare, Part.onValve, get?_modify, Option.map_map, Function.comp_def]
  refine congrArg (fun g => Option.map g _) (funext fun x => ?_)
  split
  · exact hf x
  · rfl

end

/-! ## The records of operations -/

/-- An operation that has ended, or one as a crew or a command leaves it, at some time. -/
def Operation.ended (o : Operation) (st : OpState) (now : Nat) : Operation :=
  { o with state := st, stateTime := now, travelExpiry := none }

section
variable {p q : Part} {v u : Nat} {x : Valve} {o : Operation}

theorem op?_of_get? (h : p.valves.get? v = some x) : p.op? v = x.operation := by simp [Part.op?, h]

theorem get?_of_op? (h : p.op? v = some o) : ∃ x, p.valves.get? v = some x ∧ x.operation = some o :=
  Option.bind_eq_some_iff.mp h

/-- A valve's record is its operation and the rest. -/
theorem valve_ext {x y : Option Valve} (bare : x.map (fun z => { z with operation := none }) =
    y.map fun z => { z with operation := none }) (op : x.bind (·.operation) = y.bind (·.operation)) : x = y := by
  cases x <;> cases y <;> simp_all
  next a b =>
    obtain ⟨⟩ := a
    obtain ⟨⟩ := b
    simp_all

theorem setOpState_get? (v : Nat) (st : OpState) (e : Option Nat) (p : Part) (u : Nat) :
    (setOpState v st e p).valves.get? u = (p.valves.get? u).map fun x => if u = v then { x with
      operation := x.operation.map fun o => { o with state := st, stateTime := p.time, travelExpiry := e } } else x := by
  simp only [setOpState, Part.onValve, get?_modify]

theorem works_setOpState (v : Nat) (st : OpState) (e : Option Nat) (p : Part) : Works p (setOpState v st e p) := by
  refine works_onValve (fun x => ?_) p
  rfl

theorem failOp_eq (h : p.op? v = some o) (reason : OpFailure) : failOp v reason p =
    let failed := place (.valveFailed v o.action o.origin o.mode reason) (setOpState v (.failed reason) none p)
    if o.mode = .crew then endJob ⟨.valve, v⟩ failed else failed := by
  simp only [failOp, h]

theorem finishOp_eq (h : p.op? v = some o) : finishOp v p =
    let done := place (.valveDone v o.action o.origin o.mode) (setOpState v .done none p)
    if o.mode = .crew then endJob ⟨.valve, v⟩ done else done := by
  simp only [finishOp, h]

theorem works_failOp (v : Nat) (reason : OpFailure) (p : Part) : Works p (failOp v reason p) := by
  unfold failOp
  split
  · exact .refl p
  · dsimp only
    split
    · exact ((works_setOpState _ _ _ p).trans (works_place _ _)).trans (works_endJob _ _)
    · exact (works_setOpState _ _ _ p).trans (works_place _ _)

theorem works_finishOp (v : Nat) (p : Part) : Works p (finishOp v p) := by
  unfold finishOp
  split
  · exact .refl p
  · dsimp only
    split
    · exact ((works_setOpState _ _ _ p).trans (works_place _ _)).trans (works_endJob _ _)
    · exact (works_setOpState _ _ _ p).trans (works_place _ _)

theorem failOp_op? (v : Nat) (reason : OpFailure) (p : Part) (u : Nat) : (failOp v reason p).op? u =
    (p.op? u).map fun o => if u = v then Operation.ended o (.failed reason) p.time else o := by
  have state : ∀ q : Part, q.valves = (setOpState v (.failed reason) none p).valves → q.op? u =
      (p.op? u).map fun o => if u = v then Operation.ended o (.failed reason) p.time else o := fun q h => by
    rw [Part.op?, h, setOpState_get?, Part.op?]
    cases p.valves.get? u with
    | none => rfl
    | some x => by_cases same : u = v <;> simp [same, Operation.ended]
  cases h : p.op? v with
  | none =>
    have same : failOp v reason p = p := by simp only [failOp, h]
    rw [same]
    by_cases here : u = v
    · rw [here, h]; rfl
    · simp [here]
  | some o =>
    rw [failOp_eq h]
    dsimp only
    split
    · exact state _ (by simp)
    · exact state _ rfl

theorem finishOp_op? (v : Nat) (p : Part) (u : Nat) : (finishOp v p).op? u =
    (p.op? u).map fun o => if u = v then Operation.ended o .done p.time else o := by
  have state : ∀ q : Part, q.valves = (setOpState v .done none p).valves → q.op? u =
      (p.op? u).map fun o => if u = v then Operation.ended o .done p.time else o := fun q h => by
    rw [Part.op?, h, setOpState_get?, Part.op?]
    cases p.valves.get? u with
    | none => rfl
    | some x => by_cases same : u = v <;> simp [same, Operation.ended]
  cases h : p.op? v with
  | none =>
    have same : finishOp v p = p := by simp only [finishOp, h]
    rw [same]
    by_cases here : u = v
    · rw [here, h]; rfl
    · simp [here]
  | some o =>
    rw [finishOp_eq h]
    dsimp only
    split
    · exact state _ (by simp)
    · exact state _ rfl

/-! ### Cancellations (R119) -/

theorem live_iff : o.live = true ↔ o.state = .pending ∨ o.state = .acting := by simp [Operation.live]

theorem cancelOp_dead (h : ∀ o, p.op? v = some o → o.live = false) : cancelOp v p = p := by
  unfold cancelOp
  split
  · rfl
  next o found => simp [h o found]

/-- What follows the failure of a cancelled operation: its command is withdrawn or a STOP is offered. -/
def cancelRest (v : Nat) (o : Operation) (p : Part) : Part :=
  match o.mode, o.state with
  | .field, .pending => withdrawCommand v p
  | .field, .acting => offerStop v p
  | _, _ => p

theorem cancelOp_live (h : p.op? v = some o) (live : o.live = true) :
    cancelOp v p = cancelRest v o (failOp v .cancelled p) := by
  simp only [cancelOp, h, live, if_true]
  rfl

theorem works_cancelRest (v : Nat) (o : Operation) (p : Part) : Works p (cancelRest v o p) := by
  unfold cancelRest
  split
  · exact works_withdrawCommand v p
  · exact works_offerStop v p
  · exact .refl p

theorem cancelRest_valves (v : Nat) (o : Operation) (p : Part) : (cancelRest v o p).valves = p.valves := by
  unfold cancelRest
  split <;> simp

theorem works_cancelOp (v : Nat) (p : Part) : Works p (cancelOp v p) := by
  cases h : p.op? v with
  | none => rw [cancelOp_dead (by simp [h])]; exact .refl p
  | some o =>
    by_cases live : o.live = true
    · rw [cancelOp_live h live]
      exact (works_failOp _ _ _).trans (works_cancelRest _ _ _)
    · rw [cancelOp_dead fun o' found => by cases h.symm.trans found; simpa using live]
      exact .refl p

theorem cancelOp_op? (v : Nat) (p : Part) (u : Nat) : (cancelOp v p).op? u = (p.op? u).map fun o =>
    if u = v ∧ o.live = true then Operation.ended o (.failed .cancelled) p.time else o := by
  by_cases dead : ∀ o, p.op? v = some o → o.live = false
  · rw [cancelOp_dead dead]
    cases h : p.op? u with
    | none => rfl
    | some o =>
      have : ¬(u = v ∧ o.live = true) := fun ⟨here, live⟩ => by
        rw [here] at h
        rw [dead o h] at live
        cases live
      simp [this]
  · simp only [not_forall, Bool.not_eq_false] at dead
    obtain ⟨o, h, live⟩ := dead
    rw [cancelOp_live h live, Part.op?, cancelRest_valves, ← Part.op?, failOp_op?]
    by_cases here : u = v
    · rw [here, h]
      simp [live]
    · simp [here]

/-- The operations of some valves after they have been cancelled one after another. -/
theorem cancelAll_op? (vs : List Nat) (u : Nat) : ∀ p : Part, (vs.foldl (fun p v => cancelOp v p) p).op? u =
    (p.op? u).map fun o => if u ∈ vs ∧ o.live = true then Operation.ended o (.failed .cancelled) p.time else o := by
  induction vs with
  | nil => simp
  | cons v rest ih =>
    intro p
    rw [List.foldl_cons, ih, cancelOp_op?, (works_cancelOp v p).time, Option.map_map]
    refine congrArg (fun g => Option.map g _) (funext fun o => ?_)
    by_cases live : o.live = true
    · by_cases here : u = v
      · have ended : (Operation.ended o (.failed .cancelled) p.time).live = false := rfl
        simp [here, live, ended]
      · simp [here, live]
    · simp [live]

theorem works_cancelAll (vs : List Nat) (p : Part) : Works p (vs.foldl (fun p v => cancelOp v p) p) :=
  works_foldl _ (fun _ _ => works_cancelOp _ _) vs p

end

/-! ### Orders (R110, R111) -/

section
variable {p q : Part} {v u : Nat} {x : Valve} {a : Action} {origin : Origin}

/-- A new operation, as it is ordered (R110). -/
def newOp (p : Part) (x : Valve) (a : Action) (origin : Origin) : Operation :=
  { action := a, origin := origin, mode := p.modeFor x, state := .pending, ordered := p.time, stateTime := p.time }

/-- The part with a new operation on a valve. -/
def withOp (p : Part) (v : Nat) (x : Valve) (o : Operation) : Part :=
  { p with valves := p.valves.set v { x with operation := some o } }

/-- The command of a new FIELD operation (R111). -/
def commandOf (v : Nat) (x : Valve) (a : Action) (origin : Origin) : Command :=
  { valve := v, outstation := x.outstation, slot := x.slot, action := a.drive, origin := some origin }

theorem onValve_of_get? (h : p.valves.get? v = some x) (f : Valve → Valve) :
    p.onValve v f = { p with valves := p.valves.set v (f x) } := by
  simp only [Part.onValve, modify_of_get? h]

theorem orderOp_crew (h : p.valves.get? v = some x) (crew : p.modeFor x = .crew) :
    orderOp v a origin p = withOp p v x (newOp p x a origin) := by
  simp only [orderOp, h, onValve_of_get? h, crew]
  simp only [withOp, newOp, crew]

theorem orderOp_field (h : p.valves.get? v = some x) (field : p.modeFor x = .field) : orderOp v a origin p =
    let r := offerCommand (commandOf v x a origin) (withOp p v x (newOp p x a origin))
    if r.2 then failOp v .comms r.1 else r.1 := by
  simp only [orderOp, h, onValve_of_get? h, field]
  simp only [withOp, newOp, field]
  rfl

/-- What an order makes of its valve's operation: PENDING, or, with its command not placed, FAILED (R111). -/
def orderedOp (p : Part) (v : Nat) (x : Valve) (a : Action) (origin : Origin) : Operation :=
  let o := newOp p x a origin
  if p.modeFor x = .field ∧ (offerCommand (commandOf v x a origin) (withOp p v x o)).2 = true then
    Operation.ended o (.failed .comms) p.time
  else o

theorem orderedOp_crew (crew : p.modeFor x = .crew) : orderedOp p v x a origin = newOp p x a origin := by
  rw [orderedOp]
  exact if_neg fun both => by rw [crew] at both; cases both.1

theorem orderedOp_field (field : p.modeFor x = .field) : orderedOp p v x a origin =
    if (offerCommand (commandOf v x a origin) (withOp p v x (newOp p x a origin))).2 = true then
      Operation.ended (newOp p x a origin) (.failed .comms) p.time
    else newOp p x a origin := by
  simp only [orderedOp, field, true_and]

theorem works_withOp (h : p.valves.get? v = some x) (o : Operation) : Works p (withOp p v x o) := by
  have same : withOp p v x o = p.onValve v fun x => { x with operation := some o } :=
    (onValve_of_get? h fun x => { x with operation := some o }).symm
  rw [same]
  refine works_onValve (fun x => ?_) p
  rfl

theorem orderOp_undefined (h : p.valves.get? v = none) : orderOp v a origin p = p := by simp only [orderOp, h]

theorem works_orderOp (v : Nat) (a : Action) (origin : Origin) (p : Part) : Works p (orderOp v a origin p) := by
  cases h : p.valves.get? v with
  | none => rw [orderOp_undefined h]; exact .refl p
  | some x =>
    cases mode : p.modeFor x with
    | crew => rw [orderOp_crew h mode]; exact works_withOp h _
    | field =>
      rw [orderOp_field h mode]
      dsimp only
      split
      · exact ((works_withOp h _).trans (works_offerCommand _ _)).trans (works_failOp _ _ _)
      · exact (works_withOp h _).trans (works_offerCommand _ _)

theorem withOp_op? (p : Part) (v : Nat) (x : Valve) (o : Operation) (u : Nat) :
    (withOp p v x o).op? u = if u = v then some o else p.op? u := by
  rw [Part.op?, withOp, get?_set]
  split <;> rfl

theorem offerCommand_op? (c : Command) (p : Part) (u : Nat) : (offerCommand c p).1.op? u = p.op? u := by
  rw [Part.op?, Laws.f_offerCommand_valves, ← Part.op?]

theorem orderOp_op? (h : p.valves.get? v = some x) (u : Nat) :
    (orderOp v a origin p).op? u = if u = v then some (orderedOp p v x a origin) else p.op? u := by
  cases mode : p.modeFor x with
  | crew =>
    rw [orderOp_crew h mode, withOp_op?, orderedOp_crew mode]
  | field =>
    have written := (works_withOp h (newOp p x a origin)).trans (works_offerCommand (commandOf v x a origin) _)
    rw [orderOp_field h mode]
    dsimp only
    rw [orderedOp_field mode]
    by_cases full : (offerCommand (commandOf v x a origin) (withOp p v x (newOp p x a origin))).2 = true
    · rw [if_pos full, failOp_op?, offerCommand_op?, withOp_op?, written.time, if_pos full]
      by_cases here : u = v <;> simp [here]
    · rw [if_neg full, offerCommand_op?, withOp_op?, if_neg full]

theorem orderedOp_fields (p : Part) (v : Nat) (x : Valve) (a : Action) (origin : Origin) :
    let o := orderedOp p v x a origin
    o.action = a ∧ o.origin = origin ∧ o.mode = p.modeFor x ∧ o.ordered = p.time ∧ o.stateTime = p.time ∧
      o.travelExpiry = none ∧ (o.mode = .crew → o.state = .pending) ∧ (o.state = .pending ∨ o.state = .failed .comms) := by
  intro o
  cases mode : p.modeFor x with
  | crew =>
    rw [show o = newOp p x a origin from orderedOp_crew mode]
    exact ⟨rfl, rfl, mode, rfl, rfl, rfl, fun _ => rfl, .inl rfl⟩
  | field =>
    rw [show o = _ from orderedOp_field mode]
    split
    · refine ⟨rfl, rfl, mode, rfl, rfl, rfl, fun crew => ?_, .inr rfl⟩
      cases mode.symm.trans crew
    · exact ⟨rfl, rfl, mode, rfl, rfl, rfl, fun _ => rfl, .inl rfl⟩

/-- Orders of one action on some valves: each has a new operation, and every other keeps its own. -/
theorem orderAll_op? (vs : List Nat) (a : Action) (origin : Origin) (u : Nat) : ∀ p : Part,
    let q := vs.foldl (fun p v => orderOp v a origin p) p
    (u ∉ vs → q.op? u = p.op? u) ∧
    ∀ x, u ∈ vs → p.valves.get? u = some x → ∃ o, q.op? u = some o ∧ o.action = a ∧ o.origin = origin ∧
      o.ordered = p.time ∧ o.mode = p.modeFor x ∧ (o.state = .pending ∨ o.state = .failed .comms) := by
  induction vs with
  | nil => exact fun p => ⟨fun _ => rfl, fun x mem => absurd mem List.not_mem_nil⟩
  | cons v rest ih =>
    intro p
    have works := works_orderOp v a origin p
    obtain ⟨away, here⟩ := ih (orderOp v a origin p)
    have other : u ≠ v → (orderOp v a origin p).op? u = p.op? u := fun ne => by
      cases h : p.valves.get? v with
      | none => rw [orderOp_undefined h]
      | some x => rw [orderOp_op? h, if_neg ne]
    refine ⟨fun out => ?_, fun x mem hx => ?_⟩
    · obtain ⟨ne, out⟩ := not_or.mp (fun h => out (List.mem_cons.mpr h))
      exact (away out).trans (other ne)
    · have bare := works.bare u
      simp only [Part.bare, hx, Option.map_some] at bare
      obtain ⟨y, hy, same⟩ := Option.map_eq_some_iff.mp bare
      by_cases later : u ∈ rest
      · obtain ⟨o, ho, action, from_, ordered, mode, state⟩ := here y later hy
        refine ⟨o, ho, action, from_, ordered.trans works.time, ?_, state⟩
        rw [mode, works.modeFor]
        have actuated : y.actuated = x.actuated := by simpa using congrArg Valve.actuated same
        have outstation : y.outstation = x.outstation := by simpa using congrArg Valve.outstation same
        rw [Part.modeFor, Part.modeFor, actuated, outstation]
      · obtain rfl | later' := List.mem_cons.mp mem
        · obtain ⟨action, from_, mode, ordered, -, -, -, state⟩ := orderedOp_fields p u x a origin
          have now : (orderOp u a origin p).op? u = some (orderedOp p u x a origin) := by rw [orderOp_op? hx, if_pos rfl]
          exact ⟨_, (away later).trans now, action, from_, ordered, mode, state⟩
        · exact absurd later' later

theorem works_orderAll (vs : List Nat) (a : Action) (origin : Origin) (p : Part) :
    Works p (vs.foldl (fun p v => orderOp v a origin p) p) := works_foldl _ (fun _ _ => works_orderOp _ _ _ _) vs p

end

/-! ## What the lines make of orders, whatever else the part holds -/

/-- Two parts with the same lines, outstations and clock, and the same valves but for their holders. -/
structure SameField (p q : Part) : Prop where
  lines : q.lines = p.lines
  outstations : q.outstations = p.outstations
  clock : q.clock = p.clock
  valves : ∀ v, (q.valves.get? v).map (fun x => { x with holders := [] }) =
    (p.valves.get? v).map fun x => { x with holders := [] }

section
variable {p q : Part}

theorem SameField.refl (p : Part) : SameField p p := ⟨rfl, rfl, rfl, fun _ => rfl⟩

theorem SameField.line (h : SameField p q) (n : Nat) : q.line n = p.line n := by rw [Part.line, Part.line, h.lines]

theorem SameField.time (h : SameField p q) : q.time = p.time := by rw [Part.time, Part.time, h.clock]

theorem SameField.answers (h : SameField p q) (os : Nat) : q.answers os = p.answers os := by
  rw [Part.answers, Part.answers, h.outstations]

theorem SameField.modeFor (h : SameField p q) (x : Valve) : q.modeFor x = p.modeFor x := by
  rw [Part.modeFor, Part.modeFor, h.answers]

/-- The valves of parts with the same field, one by one: only the holders may differ. -/
theorem SameField.get? (h : SameField p q) {v : Nat} {x : Valve} (hx : p.valves.get? v = some x) :
    ∃ hs, q.valves.get? v = some { x with holders := hs } := by
  have := h.valves v
  rw [hx] at this
  obtain ⟨y, hy, same⟩ := Option.map_eq_some_iff.mp this
  refine ⟨y.holders, ?_⟩
  rw [hy]
  obtain ⟨⟩ := x
  obtain ⟨⟩ := y
  simp_all

theorem SameField.undefined (h : SameField p q) {v : Nat} (hx : p.valves.get? v = none) : q.valves.get? v = none := by
  have := h.valves v
  rw [hx] at this
  exact Option.map_eq_none_iff.mp this

theorem SameField.op? (h : SameField p q) (v : Nat) : q.op? v = p.op? v := by
  cases hx : p.valves.get? v with
  | none => rw [Part.op?, Part.op?, hx, h.undefined hx]
  | some x =>
    obtain ⟨hs, hy⟩ := h.get? hx
    rw [op?_of_get? hx, op?_of_get? hy]

theorem sameField_of_valves {r t : Part} (h : SameField p q) (lines : t.lines = r.lines)
    (outstations : t.outstations = r.outstations) (clock : t.clock = q.clock) (clock' : r.clock = p.clock)
    (valves : t.valves = q.valves) (valves' : r.valves = p.valves) : SameField r t :=
  ⟨lines, outstations, clock.trans (h.clock.trans clock'.symm), fun v => by rw [valves, valves']; exact h.valves v⟩

theorem sameField_onLine (h : SameField p q) (n : Nat) (f : Line → Line) : SameField (p.onLine n f) (q.onLine n f) :=
  sameField_of_valves h (by simp only [Part.onLine, h.lines]) h.outstations rfl rfl rfl rfl

theorem sameField_sendCommand (h : SameField p q) (n : Nat) : SameField (sendCommand n p) (sendCommand n q) := by
  have both : (sendCommand n q).lines = (sendCommand n p).lines ∧
      (sendCommand n q).outstations = (sendCommand n p).outstations := by
    cases queue : (p.line n).queue with
    | nil =>
      simp only [sendCommand, h.line, queue]
      exact ⟨h.lines, h.outstations⟩
    | cons c rest =>
      simp only [sendCommand, h.line, queue, h.outstations]
      cases c.bit <;> simp [Part.onLine, Part.onOutstation, h.lines, h.outstations]
  exact sameField_of_valves h both.1 both.2 (by simp) (by simp) (by simp) (by simp)

theorem sameField_wakeLine (h : SameField p q) (n : Nat) : SameField (wakeLine n p) (wakeLine n q) := by
  simp only [wakeLine, h.line]
  split
  · exact sameField_sendCommand h n
  · exact h

theorem sameField_offerCommand (h : SameField p q) (c : Command) :
    SameField (offerCommand c p).1 (offerCommand c q).1 ∧ (offerCommand c q).2 = (offerCommand c p).2 := by
  simp only [offerCommand, h.line, h.answers]
  split
  · exact ⟨h, rfl⟩
  · split
    · exact ⟨sameField_wakeLine (sameField_onLine h _ _) _, rfl⟩
    · split
      · exact ⟨h, rfl⟩
      · split
        · exact ⟨h, rfl⟩
        · exact ⟨sameField_wakeLine (sameField_onLine h _ _) _, rfl⟩

theorem sameField_offerStop (h : SameField p q) (v : Nat) : SameField (offerStop v p) (offerStop v q) := by
  cases hx : p.valves.get? v with
  | none => simpa only [offerStop, hx, h.undefined hx] using h
  | some x =>
    obtain ⟨hs, hy⟩ := h.get? hx
    simpa only [offerStop, hx, hy] using (sameField_offerCommand h _).1

theorem sameField_withdrawCommand (h : SameField p q) (v : Nat) : SameField (withdrawCommand v p) (withdrawCommand v q) := by
  cases hx : p.valves.get? v with
  | none => simpa only [withdrawCommand, hx, h.undefined hx] using h
  | some x =>
    obtain ⟨hs, hy⟩ := h.get? hx
    simpa only [withdrawCommand, hx, hy] using sameField_onLine h _ _

theorem sameField_setOpState (h : SameField p q) (v : Nat) (st : OpState) (e : Option Nat) :
    SameField (setOpState v st e p) (setOpState v st e q) := by
  refine ⟨h.lines, h.outstations, h.clock, fun u => ?_⟩
  rw [setOpState_get?, setOpState_get?, h.time]
  cases hx : p.valves.get? u with
  | none => rw [h.undefined hx]
  | some x =>
    obtain ⟨hs, hy⟩ := h.get? hx
    rw [hy]
    by_cases here : u = v <;> simp [here]

theorem sameField_failOp (h : SameField p q) (v : Nat) (reason : OpFailure) :
    SameField (failOp v reason p) (failOp v reason q) := by
  cases found : p.op? v with
  | none => simpa only [failOp, found, h.op?] using h
  | some o =>
    have state := sameField_setOpState h v (.failed reason) none
    rw [failOp_eq found, failOp_eq ((h.op? v).trans found)]
    dsimp only
    split
    · exact sameField_of_valves state (by simpa using state.lines) (by simpa using state.outstations) (by simp)
        (by simp) (by simp) (by simp)
    · exact sameField_of_valves state state.lines state.outstations rfl rfl rfl rfl

theorem sameField_cancelOp (h : SameField p q) (v : Nat) : SameField (cancelOp v p) (cancelOp v q) := by
  by_cases dead : ∀ o, p.op? v = some o → o.live = false
  · rw [cancelOp_dead dead, cancelOp_dead fun o found => dead o ((h.op? v).symm.trans found)]
    exact h
  · simp only [not_forall, Bool.not_eq_false] at dead
    obtain ⟨o, found, live⟩ := dead
    rw [cancelOp_live found live, cancelOp_live ((h.op? v).trans found) live]
    have failed := sameField_failOp h v .cancelled
    unfold cancelRest
    split
    · exact sameField_withdrawCommand failed v
    · exact sameField_offerStop failed v
    · exact failed

theorem sameField_withOp (h : SameField p q) (v : Nat) (x : Valve) (hs : List Nat) (o : Operation) :
    SameField (withOp p v x o) (withOp q v { x with holders := hs } o) := by
  refine ⟨h.lines, h.outstations, h.clock, fun u => ?_⟩
  rw [withOp, withOp, get?_set, get?_set]
  split
  · rfl
  · exact h.valves u

theorem sameField_orderOp (h : SameField p q) (v : Nat) (a : Action) (origin : Origin) :
    SameField (orderOp v a origin p) (orderOp v a origin q) := by
  cases hx : p.valves.get? v with
  | none => rw [orderOp_undefined hx, orderOp_undefined (h.undefined hx)]; exact h
  | some x =>
    obtain ⟨hs, hy⟩ := h.get? hx
    have mode' : q.modeFor { x with holders := hs } = p.modeFor x := (h.modeFor _).trans rfl
    have op : newOp q { x with holders := hs } a origin = newOp p x a origin := by
      rw [newOp, newOp, mode', h.time]
    cases mode : p.modeFor x with
    | crew =>
      rw [orderOp_crew hx mode, orderOp_crew hy (mode'.trans mode), op]
      exact sameField_withOp h v x hs _
    | field =>
      rw [orderOp_field hx mode, orderOp_field hy (mode'.trans mode), op]
      obtain ⟨offered, full⟩ := sameField_offerCommand (sameField_withOp h v x hs (newOp p x a origin))
        (commandOf v x a origin)
      simp only [show commandOf v { x with holders := hs } a origin = commandOf v x a origin from rfl, full]
      split
      · exact sameField_failOp offered v .comms
      · exact offered

theorem sameField_foldl {α : Type} (f : Part → α → Part) (hf : ∀ p q a, SameField p q → SameField (f p a) (f q a))
    (as : List α) : ∀ {p q : Part}, SameField p q → SameField (as.foldl f p) (as.foldl f q) := by
  induction as with
  | nil => exact fun h => h
  | cons a as ih => exact fun h => ih (hf _ _ a h)

theorem SameField.operatesAs (h : SameField p q) : q.operatesAs p := ⟨h.lines, h.outstations, h.op?⟩

end

end Sys2Proof.Proofs
end


section
/-!
Plans under way: holds given and dropped, release lists left, plans that go FREE, and the tests after an operation's
outcome (R109, R117–R121).
-/

namespace Sys2Proof.Proofs

open Sys2Proof Sys2Proof.Machine

/-! ## Holds -/

section
variable {p q : Part} {id v : Nat} {x : Plan}

theorem dropHolders_get? (id : Nat) (vs : List Nat) (u : Nat) : ∀ p : Part,
    (vs.foldl (fun p v => dropHolder id v p) p).valves.get? u = (p.valves.get? u).map fun x => { x with
      holders := if u ∈ vs then x.holders.filter (· != id) else x.holders } := by
  induction vs with
  | nil => simp
  | cons v rest ih =>
    intro p
    rw [List.foldl_cons, ih, dropHolder, Part.onValve, get?_modify, Option.map_map]
    refine congrArg (fun g => Option.map g _) (funext fun x => ?_)
    by_cases here : u = v <;> by_cases later : u ∈ rest <;> simp [here, later]

theorem addHolders_get? (id : Nat) {vs : List Nat} (u : Nat) : ∀ (p : Part), vs.Nodup →
    (vs.foldl (fun p v => addHolder id v p) p).valves.get? u = (p.valves.get? u).map fun x => { x with
      holders := if u ∈ vs then x.holders ++ [id] else x.holders } := by
  induction vs with
  | nil => simp
  | cons v rest ih =>
    intro p once
    obtain ⟨fresh, once⟩ := List.nodup_cons.mp once
    rw [List.foldl_cons, ih _ once, addHolder, Part.onValve, get?_modify, Option.map_map]
    refine congrArg (fun g => Option.map g _) (funext fun x => ?_)
    by_cases here : u = v
    · subst here; simp [fresh]
    · simp [here]

/-- Holds given or dropped leave all but the valves. -/
theorem onValves_frame (f : Nat → Valve → Valve) (vs : List Nat) : ∀ p : Part,
    vs.foldl (fun p v => p.onValve v (f v)) p =
      { p with valves := (vs.foldl (fun p v => p.onValve v (f v)) p).valves } := by
  induction vs with
  | nil => exact fun p => rfl
  | cons v rest ih => exact fun p => ih (p.onValve v (f v))

/-! ## Snooping plans -/

/-- The snoop writes plans, the change set and the link. -/
def SnoopOnly (p q : Part) : Prop := q = { p with trace := q.trace, plans := q.plans, link := q.link }

theorem SnoopOnly.trans {p q r : Part} (h : SnoopOnly p q) (k : SnoopOnly q r) : SnoopOnly p r := by
  have := k
  rw [SnoopOnly, h] at this
  exact this

theorem snoopOnly_setPlanState (id : Nat) (new : PlanState) (valve : Option Nat) (p : Part) :
    SnoopOnly p (setPlanState id new valve p) := by
  unfold setPlanState
  split <;> rfl

theorem snoop_frame (vs : List Nat) (except : Option Nat) (p : Part) : SnoopOnly p (snoop vs except p) := by
  have entered : SnoopOnly p (changesEntered vs p) := by
    unfold changesEntered
    split <;> rfl
  have stale : ∀ (ids : List Nat) (p : Part), SnoopOnly p (ids.foldl (fun p id => setPlanState id .stale none p) p) := by
    intro ids
    induction ids with
    | nil => exact fun p => rfl
    | cons id rest ih => exact fun p => (snoopOnly_setPlanState id .stale none p).trans (ih _)
  rw [snoop_eq]
  exact entered.trans (stale _ _)

theorem snoop_except (vs : List Nat) (id : Nat) (p : Part) : (snoop vs (some id) p).plans.get? id = p.plans.get? id := by
  rw [snoop_eq, staleAll_get?, changesEntered_plans]
  have out : id ∉ p.plans.idsWhere fun k q => q.state = .ready && vs.any q.uses && some id != some k := fun mem => by
    simp only [Table.idsWhere, List.mem_map, List.mem_filter] at mem
    obtain ⟨e, ⟨_, test⟩, rfl⟩ := mem
    simp at test
  simp [out]

/-! ## Plans that go FREE -/

theorem freePlan_undefined (h : p.plans.get? id = none) : freePlan id p = p := by simp only [freePlan, h]

theorem freePlan_plans (id : Nat) (p : Part) (k : Nat) :
    (freePlan id p).plans.get? k = if k = id then none else p.plans.get? k := by
  cases h : p.plans.get? id with
  | none =>
    rw [freePlan_undefined h]
    split
    next same => rw [same, h]
    · rfl
  | some x =>
    have erased : (freePlan id p).plans = p.plans.erase id := by
      simp only [freePlan, h]
      split
      · split <;> simp
      · simp
    rw [erased]
    by_cases same : k = id
    · subst same; simp
    · rw [if_neg same]; exact Laws.get?_erase_other _ _ _ same

/-- The incidents once a plan has gone FREE: the plan's own incident links to it no more (R123). -/
theorem freePlan_incidents (h : p.plans.get? id = some x) :
    (freePlan id p).register = { p.register with incidents := (freePlan id p).register.incidents } ∧
    ∀ i, (freePlan id p).register.incidents.get? i = (p.register.incidents.get? i).map fun inc => { inc with
      planLink := if x.incident = some i ∧ inc.planLink = some id then none else inc.planLink } := by
  by_cases linked : ∃ i inc, x.incident = some i ∧ p.register.incidents.get? i = some inc ∧ inc.planLink = some id
  · obtain ⟨i, inc, hi, hinc, link⟩ := linked
    rw [freePlan_linked h hi hinc link]
    refine ⟨by simp [putIncident], fun k => ?_⟩
    simp only [putIncident, Laws.refreshLamps_register, Laws.place_register, get?_set, hi, Option.some.injEq]
    by_cases same : k = i
    · subst same; simp [hinc, link]
    · simp [same, Ne.symm same]
  · have unlinked : ∀ i inc, x.incident = some i → p.register.incidents.get? i = some inc → inc.planLink ≠ some id :=
      fun i inc hi hinc link => linked ⟨i, inc, hi, hinc, link⟩
    rw [freePlan_unlinked h unlinked]
    refine ⟨rfl, fun k => ?_⟩
    simp only [Laws.place_register]
    cases hinc : p.register.incidents.get? k with
    | none => rfl
    | some inc =>
      have : ¬(x.incident = some k ∧ inc.planLink = some id) := fun ⟨hk, link⟩ => unlinked k inc hk hinc link
      simp [this]

/-! ## Release lists -/

theorem leaveReleaseOf_stays (h : p.plans.get? id = some x) (stays : ¬(x.state = .releasing ∧ v ∈ x.releaseList)) :
    leaveReleaseOf id v p = p := by
  simp only [leaveReleaseOf, h]
  exact if_neg (by simpa using stays)

theorem leaveReleaseOf_left (h : p.plans.get? id = some x) (releasing : x.state = .releasing) (mem : v ∈ x.releaseList) :
    let left := { p with plans := p.plans.set id { x with releaseList := x.releaseList.filter (· != v) } }
    leaveReleaseOf id v p = if x.releaseList.filter (· != v) = [] then freePlan id left else left := by
  intro left
  simp only [leaveReleaseOf, h]
  rw [if_pos (by simp [releasing, mem]), onPlan_of_get? h]
  simp only [List.isEmpty_iff]
  rfl

/-- A plan after a valve has left its release list (R121). -/
theorem without_one (x : Plan) (v : Nat) : x.without [v] = if x.state = .releasing ∧ v ∈ x.releaseList then
    if x.releaseList.filter (· != v) = [] then none else some { x with releaseList := x.releaseList.filter (· != v) }
    else some x := by
  have rest : (x.releaseList.filter fun u => !([v].contains u)) = x.releaseList.filter (· != v) :=
    List.filter_congr fun u _ => by
      rw [Bool.eq_iff_iff]
      simp
  simp only [Plan.without, rest]
  have left : x.releaseList.filter (· != v) ≠ x.releaseList ↔ v ∈ x.releaseList := by
    rw [ne_eq, List.filter_eq_self]
    simp
  simp only [left]

theorem leaveReleaseOf_get? (id v : Nat) (p : Part) (k : Nat) : (leaveReleaseOf id v p).plans.get? k =
    (p.plans.get? k).bind fun x => if k = id then x.without [v] else some x := by
  cases h : p.plans.get? id with
  | none =>
    have same : leaveReleaseOf id v p = p := by simp only [leaveReleaseOf, h]
    rw [same]
    by_cases here : k = id
    · rw [here, h]; rfl
    · simp [here]
  | some x =>
    by_cases leaves : x.state = .releasing ∧ v ∈ x.releaseList
    · rw [leaveReleaseOf_left h leaves.1 leaves.2]
      split
      next last =>
        rw [freePlan_plans]
        by_cases here : k = id
        · rw [if_pos here, here, h]
          rw [Option.bind_some, if_pos rfl, without_one, if_pos leaves, if_pos last]
        · rw [if_neg here, get?_set, if_neg here]
          simp [here]
      next more =>
        rw [get?_set]
        by_cases here : k = id
        · rw [if_pos here, here, h]
          rw [Option.bind_some, if_pos rfl, without_one, if_pos leaves, if_neg more]
        · simp [here]
    · rw [leaveReleaseOf_stays h leaves]
      by_cases here : k = id
      · rw [here, h]
        simp [without_one, leaves]
      · simp [here]

theorem without_of_stays {vs : List Nat} (stays : ¬(x.state = .releasing ∧ ∃ v ∈ vs, v ∈ x.releaseList)) :
    x.without vs = some x := by
  by_cases releasing : x.state = .releasing
  · have rest : (x.releaseList.filter fun v => !vs.contains v) = x.releaseList := by
      rw [List.filter_eq_self]
      intro v mem
      have : v ∉ vs := fun listed => stays ⟨releasing, v, listed, mem⟩
      simpa using this
    simp only [Plan.without, rest, ne_eq, not_true_eq_false, and_false, if_false]
  · simp [Plan.without, releasing]

/-- Valves that leave a release list one after another leave it together. -/
theorem without_cons (x : Plan) (v : Nat) (vs : List Nat) :
    (x.without [v]).bind (fun y => y.without vs) = x.without (v :: vs) := by
  by_cases releasing : x.state = .releasing
  · have rest : ((x.releaseList.filter (· != v)).filter fun u => !vs.contains u) =
        x.releaseList.filter fun u => !(v :: vs).contains u := by
      rw [List.filter_filter]
      refine List.filter_congr fun u _ => ?_
      rw [Bool.eq_iff_iff]
      simp [and_comm]
    rw [without_one]
    by_cases mem : v ∈ x.releaseList
    · have out : v ∉ x.releaseList.filter fun u => !(v :: vs).contains u := by simp
      have changed : (x.releaseList.filter fun u => !(v :: vs).contains u) ≠ x.releaseList := fun same => by
        rw [same] at out
        exact out mem
      rw [if_pos ⟨releasing, mem⟩]
      simp only [Plan.without, releasing, changed, true_and, ne_eq, not_false_eq_true, if_true]
      by_cases empty : x.releaseList.filter (· != v) = []
      · rw [if_pos empty, ← rest, empty]
        rfl
      · rw [if_neg empty, Option.bind_some]
        simp only [rest]
        split
        · rfl
        next same =>
          have same : (x.releaseList.filter fun u => !(v :: vs).contains u) = x.releaseList.filter (· != v) := by
            simpa using same
          rw [same, if_neg empty]
    · rw [if_neg fun both => mem both.2, Option.bind_some]
      have same : x.releaseList.filter (· != v) = x.releaseList := by
        rw [List.filter_eq_self]
        intro u hu
        have : u ≠ v := fun h => mem (h ▸ hu)
        simpa using this
      rw [same] at rest
      simp only [Plan.without, rest]
  · rw [without_of_stays (fun both => releasing both.1), without_of_stays (fun both => releasing both.1)]
    exact without_of_stays fun both => releasing both.1

theorem without_twice (x : Plan) (v : Nat) : (x.without [v]).bind (fun y => y.without [v]) = x.without [v] := by
  rw [without_one]
  split
  · split
    · rfl
    · refine without_of_stays fun ⟨_, u, hu, mem⟩ => ?_
      cases List.mem_singleton.mp hu
      simp at mem
  next stays =>
    refine without_of_stays fun ⟨releasing, u, hu, mem⟩ => ?_
    cases List.mem_singleton.mp hu
    exact stays ⟨releasing, mem⟩

theorem leaveReleaseOf_all_get? (v : Nat) (ids : List Nat) (k : Nat) : ∀ p : Part,
    (ids.foldl (fun p id => leaveReleaseOf id v p) p).plans.get? k =
      (p.plans.get? k).bind fun x => if k ∈ ids then x.without [v] else some x := by
  induction ids with
  | nil => simp
  | cons id rest ih =>
    intro p
    rw [List.foldl_cons, ih, leaveReleaseOf_get?, Option.bind_assoc]
    refine congrArg (Option.bind (p.plans.get? k)) (funext fun x => ?_)
    by_cases here : k = id <;> by_cases later : k ∈ rest
    · subst here
      simp only [if_true, later, List.mem_cons_self]
      exact without_twice x v
    · subst here; simp [later]
    · simp [here, later]
    · simp [here, later]

/-- A valve leaves every release list but that of one plan (R121). -/
theorem leaveReleases_get? (v : Nat) (except : Option Nat) (p : Part) (k : Nat) :
    (leaveReleases v except p).plans.get? k =
      (p.plans.get? k).bind fun x => if except = some k then some x else x.without [v] := by
  rw [leaveReleases, leaveReleaseOf_all_get?]
  cases h : p.plans.get? k with
  | none => rfl
  | some x =>
    simp only [Option.bind_some]
    by_cases excepted : except = some k
    · have out : k ∉ p.plans.idsWhere fun id q =>
          q.state = .releasing && q.releaseList.contains v && except != some id := fun mem => by
        simp only [Table.idsWhere, List.mem_map, List.mem_filter] at mem
        obtain ⟨e, ⟨_, test⟩, rfl⟩ := mem
        simp [excepted] at test
      rw [if_neg out, if_pos excepted]
    · rw [if_neg excepted]
      by_cases leaves : x.state = .releasing ∧ v ∈ x.releaseList
      · have mem : k ∈ p.plans.idsWhere fun id q =>
            q.state = .releasing && q.releaseList.contains v && except != some id := by
          refine List.mem_map.mpr ⟨(k, x), List.mem_filter.mpr ⟨Laws.mem_of_get? _ _ _ h, ?_⟩, rfl⟩
          simpa [leaves] using excepted
        rw [if_pos mem]
      · rw [without_of_stays fun ⟨releasing, u, hu, listed⟩ => by
          cases List.mem_singleton.mp hu
          exact leaves ⟨releasing, listed⟩]
        split <;> rfl

theorem leaveAll_get? (id : Nat) (vs : List Nat) (k : Nat) : ∀ p : Part,
    (vs.foldl (fun p v => leaveReleases v (some id) p) p).plans.get? k =
      (p.plans.get? k).bind fun x => if k = id then some x else x.without vs := by
  induction vs with
  | nil =>
    intro p
    cases h : p.plans.get? k with
    | none => rw [List.foldl_nil, h]; rfl
    | some x => rw [List.foldl_nil, h, Option.bind_some, without_of_stays (by simp)]; simp
  | cons v rest ih =>
    intro p
    rw [List.foldl_cons, ih, leaveReleases_get?, Option.bind_assoc]
    refine congrArg (Option.bind (p.plans.get? k)) (funext fun x => ?_)
    by_cases here : k = id
    · simp [here]
    · simp only [here, if_false, Option.some.injEq, Ne.symm here]
      exact without_cons x v rest

/-! ## Plans that vanish, and the incidents that linked to them -/

/-- Plans keep their incidents or go FREE, and an incident's link to a plan of its own that went FREE is dropped. -/
structure Frees (p q : Part) : Prop where
  register : q.register = { p.register with incidents := q.register.incidents }
  kept : ∀ k y, q.plans.get? k = some y → ∃ x, p.plans.get? k = some x ∧ y.incident = x.incident
  links : ∀ i, q.register.incidents.get? i = (p.register.incidents.get? i).map fun inc => { inc with
    planLink := inc.planLink.bind fun k =>
      if ((p.plans.get? k).any fun x => decide (x.incident = some i)) = true ∧ q.plans.get? k = none then none else some k }

section
variable {q r : Part}

theorem frees_of_kept (register : q.register = p.register) (kept : ∀ k, (q.plans.get? k).map (·.incident) =
    (p.plans.get? k).map (·.incident)) : Frees p q := by
  refine ⟨by rw [register], fun k y hy => ?_, fun i => ?_⟩
  · have := kept k
    rw [hy] at this
    obtain ⟨x, hx, same⟩ := Option.map_eq_some_iff.mp this.symm
    exact ⟨x, hx, same.symm⟩
  · rw [register]
    have stays : ∀ k, ¬(((p.plans.get? k).any fun x => decide (x.incident = some i)) = true ∧ q.plans.get? k = none) :=
      fun k ⟨some_, none_⟩ => by
        have := kept k
        rw [none_] at this
        rw [Option.map_eq_none_iff.mp this.symm] at some_
        cases some_
    simp [stays]

theorem Frees.refl (p : Part) : Frees p p := frees_of_kept rfl fun _ => rfl

theorem Frees.trans (h : Frees p q) (k : Frees q r) : Frees p r := by
  refine ⟨?_, fun n z hz => ?_, fun i => ?_⟩
  · rw [k.register, h.register]
  · obtain ⟨y, hy, same⟩ := k.kept n z hz
    obtain ⟨x, hx, same'⟩ := h.kept n y hy
    exact ⟨x, hx, same.trans same'⟩
  · rw [k.links, h.links, Option.map_map]
    refine congrArg (fun g => Option.map g _) (funext fun inc => ?_)
    cases link : inc.planLink with
    | none => simp [link]
    | some n =>
      have gone : q.plans.get? n = none → r.plans.get? n = none := fun none_ => by
        cases hz : r.plans.get? n with
        | none => rfl
        | some z =>
          obtain ⟨y, hy, -⟩ := k.kept n z hz
          cases none_.symm.trans hy
      simp only [Function.comp, link, Option.bind_some]
      cases hx : p.plans.get? n with
      | none =>
        have hy : q.plans.get? n = none := by
          cases hy : q.plans.get? n with
          | none => rfl
          | some y =>
            obtain ⟨x, hx', -⟩ := h.kept n y hy
            cases hx.symm.trans hx'
        simp [hy]
      | some x =>
        cases hy : q.plans.get? n with
        | none =>
          have hz := gone hy
          by_cases own : x.incident = some i <;> simp [own, hy, hz]
        | some y =>
          obtain ⟨x', hx', same⟩ := h.kept n y hy
          cases hx.symm.trans hx'
          simp [hy, same]

theorem frees_freePlan (id : Nat) (p : Part) : Frees p (freePlan id p) := by
  cases h : p.plans.get? id with
  | none => rw [freePlan_undefined h]; exact .refl p
  | some x =>
    obtain ⟨register, incidents⟩ := freePlan_incidents h
    refine ⟨register, fun k y hy => ?_, fun i => ?_⟩
    · rw [freePlan_plans] at hy
      split at hy
      · cases hy
      · exact ⟨y, hy, rfl⟩
    · rw [incidents]
      refine congrArg (fun g => Option.map g _) (funext fun inc => ?_)
      cases link : inc.planLink with
      | none => simp
      | some k =>
        simp only [freePlan_plans, Option.bind_some]
        by_cases here : k = id
        · subst here
          by_cases own : x.incident = some i <;> simp [h, own]
        · have : ¬(((p.plans.get? k).any fun x => decide (x.incident = some i)) = true ∧ p.plans.get? k = none) :=
            fun ⟨some_, none_⟩ => by rw [none_] at some_; cases some_
          simp [here, this]

theorem frees_leaveReleaseOf (id v : Nat) (p : Part) : Frees p (leaveReleaseOf id v p) := by
  cases h : p.plans.get? id with
  | none =>
    have same : leaveReleaseOf id v p = p := by simp only [leaveReleaseOf, h]
    rw [same]; exact .refl p
  | some x =>
    by_cases leaves : x.state = .releasing ∧ v ∈ x.releaseList
    · rw [leaveReleaseOf_left h leaves.1 leaves.2]
      have left : Frees p { p with plans := p.plans.set id { x with releaseList := x.releaseList.filter (· != v) } } :=
        frees_of_kept rfl fun k => by
          rw [get?_set]
          split
          next same => rw [same, h]; rfl
          · rfl
      split
      · exact left.trans (frees_freePlan _ _)
      · exact left
    · rw [leaveReleaseOf_stays h leaves]; exact .refl p

theorem frees_foldl {α : Type} (f : Part → α → Part) (hf : ∀ q a, Frees q (f q a)) (as : List α) (p : Part) :
    Frees p (as.foldl f p) := by
  induction as generalizing p with
  | nil => exact .refl p
  | cons a as ih => exact (hf p a).trans (ih _)

theorem frees_leaveReleases (v : Nat) (except : Option Nat) (p : Part) : Frees p (leaveReleases v except p) :=
  frees_foldl _ (fun _ _ => frees_leaveReleaseOf _ _ _) _ p

theorem frees_setPlanState (id : Nat) (new : PlanState) (valve : Option Nat) (p : Part) :
    Frees p (setPlanState id new valve p) := by
  refine frees_of_kept (by simp) fun k => ?_
  rw [setPlanState_get?, Option.map_map]
  refine congrArg (fun g => Option.map g _) (funext fun x => ?_)
  simp only [Function.comp]
  split <;> rfl

theorem frees_snoop (vs : List Nat) (except : Option Nat) (p : Part) : Frees p (snoop vs except p) := by
  rw [snoop_eq]
  have entered : Frees p (changesEntered vs p) := frees_of_kept (by unfold changesEntered; split <;> rfl)
    fun k => by rw [changesEntered_plans]
  exact entered.trans (frees_foldl _ (fun _ _ => frees_setPlanState _ _ _ _) _ _)

end

end

end Sys2Proof.Proofs
end


section
/-!
REISSUE and ABORT (R118, R119): the orders and the cancellations, and what the plan, its valves and its incident come to.
-/

namespace Sys2Proof.Proofs

open Sys2Proof Sys2Proof.Machine

/-! ## The tests after a plan's orders -/

section
variable {p q : Part} {id v : Nat} {x : Plan}

theorem lastEnd?_of_bare (h : q.bare v = p.bare v) : q.lastEnd? v = p.lastEnd? v := by
  have read : ∀ r : Part, r.lastEnd? v = (r.bare v).map (·.lastEnd) := fun r => by
    rw [Part.bare, Option.map_map]
    rfl
  rw [read, read, h]

theorem allClosed_iff {p : Part} {x : Plan} : p.allClosed x = true ↔ p.shut x.closeList := by
  simp [Part.allClosed, Part.shut]

theorem isolates_iff : p.isolates x = true ↔ (x.state = .executing ∨ x.state = .blocked) ∧ p.shut x.closeList := by
  rw [Part.isolates, Bool.and_eq_true, allClosed_iff, Bool.or_eq_true, decide_eq_true_eq, decide_eq_true_eq]

theorem cancelPending_stays (h : p.plans.get? id = some x) (stays : ¬p.isolates x = true) : cancelPending id p = p := by
  simp only [cancelPending, h]
  exact if_neg stays

theorem cancelPending_isolates (h : p.plans.get? id = some x) (isolates : p.isolates x = true) :
    cancelPending id p = p.cancelled id x.closeList fun o => decide o.closePending := by
  simp only [cancelPending, h, isolates, if_true, Part.cancelled, Part.opsOf]
  congr 1
  refine List.filter_congr fun v _ => ?_
  cases p.op? v with
  | none => rfl
  | some o =>
    rw [Bool.eq_iff_iff]
    simp [Operation.closePending]

theorem isolationTest_stays (h : p.plans.get? id = some x) (stays : ¬p.isolates x = true) : isolationTest id p = p := by
  simp only [isolationTest, h]
  exact if_neg stays

theorem isolationTest_isolates (h : p.plans.get? id = some x) (isolates : p.isolates x = true) :
    isolationTest id p = enterIsolated id p := by
  simp only [isolationTest, h, isolates, if_true]

/-- An operation whose failure blocks its plan (R117). -/
def Operation.blocks (o : Operation) (id : Nat) : Prop :=
  o.origin = .plan id ∧ o.action = .toClose ∧ o.state ≠ .failed .cancelled

theorem failureTest_blocks {o : Operation} (h : p.plans.get? id = some x) (executing : x.state = .executing)
    (ho : p.op? v = some o) (blocks : Operation.blocks o id) :
    failureTest id ⟨v, true⟩ p = setPlanState id .blocked (some v) p := by
  obtain ⟨origin, action, state⟩ := blocks
  simp only [failureTest, h, ho]
  exact if_pos (by simp [origin, action, executing, state])

theorem failureTest_stays (h : p.plans.get? id = some x)
    (stays : ¬(x.state = .executing ∧ ∃ o, p.op? v = some o ∧ Operation.blocks o id)) :
    failureTest id ⟨v, true⟩ p = p := by
  cases ho : p.op? v with
  | none => simp only [failureTest, h, ho]
  | some o =>
    simp only [failureTest, h, ho]
    refine if_neg fun test => stays ?_
    simp only [Bool.true_and, Bool.and_eq_true, decide_eq_true_eq, bne_iff_ne, ne_eq] at test
    obtain ⟨⟨⟨origin, action⟩, state⟩, executing⟩ := test
    exact ⟨executing, o, ho, origin, action, state⟩

theorem failureTest_unfailed (id v : Nat) (p : Part) : failureTest id ⟨v, false⟩ p = p := by
  unfold failureTest
  split <;> simp

/-- A plan goes BLOCKED by a valve, if there is one (R117). -/
def blockedBy (id : Nat) (v : Option Nat) (p : Part) : Part :=
  match v with
  | none => p
  | some v => setPlanState id .blocked (some v) p

/-- The first of the valves whose CLOSE failed blocks the plan, and the rest find it BLOCKED (R117). -/
theorem failureTests_eq (vs : List Nat) (h : p.plans.get? id = some x) (executing : x.state = .executing)
    (blocks : ∀ v ∈ vs, ∃ o, p.op? v = some o ∧ Operation.blocks o id) :
    vs.foldl (fun r v => failureTest id ⟨v, true⟩ r) p = blockedBy id vs.head? p := by
  cases vs with
  | nil => rfl
  | cons v rest =>
    obtain ⟨o, ho, first⟩ := blocks v List.mem_cons_self
    rw [List.foldl_cons, failureTest_blocks h executing ho first]
    have now : (setPlanState id .blocked (some v) p).plans.get? id =
        some { x with state := .blocked, stateTime := p.time, blocking := some v } := by
      rw [setPlanState_get?, h]
      simp
    have stays : ∀ vs : List Nat, vs.foldl (fun r v => failureTest id ⟨v, true⟩ r) (setPlanState id .blocked (some v) p) =
        setPlanState id .blocked (some v) p := by
      intro vs
      induction vs with
      | nil => rfl
      | cons u us ih =>
        rw [List.foldl_cons, failureTest_stays now (by simp)]
        exact ih
    exact stays rest

/-- The valves of a list whose operation failed as it was ordered. -/
def Part.failedOf (p : Part) (vs : List Nat) : List Nat :=
  vs.filter fun v => (p.op? v).any fun o => decide (o.state = .failed .comms)

theorem afterCloses_eq (id : Nat) (vs : List Nat) (p : Part) : afterCloses id vs p =
    isolationTest id ((Part.failedOf p vs).foldl (fun r v => failureTest id ⟨v, true⟩ r) (cancelPending id p)) := rfl

/-- A plan whose close list is not all last CLOSED stays EXECUTING after its orders, or goes BLOCKED by the first that
failed (R117; notes/assumptions/21.md). -/
theorem afterCloses_open {vs : List Nat} (h : p.plans.get? id = some x) (executing : x.state = .executing)
    (apart : ¬p.shut x.closeList) (ordered : ∀ v ∈ vs, ∀ o, p.op? v = some o → o.origin = .plan id ∧ o.action = .toClose) :
    afterCloses id vs p = blockedBy id (Part.failedOf p vs).head? p := by
  have blocks : ∀ v ∈ Part.failedOf p vs, ∃ o, p.op? v = some o ∧ Operation.blocks o id := fun v mem => by
    obtain ⟨mem, failed⟩ := List.mem_filter.mp mem
    obtain ⟨o, ho, state⟩ := (Option.any_eq_true _ _).mp failed
    have state := of_decide_eq_true state
    exact ⟨o, ho, (ordered v mem o ho).1, (ordered v mem o ho).2, by rw [state]; simp⟩
  rw [afterCloses_eq, cancelPending_stays h fun isolates => apart (isolates_iff.mp isolates).2,
    failureTests_eq _ h executing blocks]
  cases first : (Part.failedOf p vs).head? with
  | none => exact isolationTest_stays h fun isolates => apart (isolates_iff.mp isolates).2
  | some v =>
    refine isolationTest_stays (x := { x with state := .blocked, stateTime := p.time, blocking := some v }) ?_ fun isolates =>
      apart ?_
    · rw [blockedBy, setPlanState_get?, h]
      simp
    · have := (isolates_iff.mp isolates).2
      simpa [Part.shut, blockedBy, Part.lastEnd?] using this

theorem blockedBy_get? (id : Nat) (v : Option Nat) (p : Part) (k : Nat) :
    (blockedBy id v p).plans.get? k = (p.plans.get? k).map fun x => if k = id ∧ v ≠ none then { x with
      state := .blocked, stateTime := p.time, blocking := v } else x := by
  cases v with
  | none => simp [blockedBy]
  | some v => rw [blockedBy, setPlanState_get?]; simp

theorem blockedBy_trace (id : Nat) (v : Option Nat) (p : Part) : (blockedBy id v p).trace = p.trace := by
  cases v <;> simp [blockedBy]

theorem blockedBy_frame (id : Nat) (v : Option Nat) (p : Part) : SnoopOnly p (blockedBy id v p) := by
  cases v with
  | none => rfl
  | some v => exact snoopOnly_setPlanState _ _ _ p

end

/-! ## REISSUE -/

theorem reissueRule_act {p : Part} {b : List Byte} {id : Nat} {x : Plan} (id_eq : u8 b 0 = id) (hid : id < 16)
    (hx : p.plans.get? id = some x) (state : x.state = .blocked ∨ x.state = .releasing) (some_ : (p.reissued x).2 ≠ []) :
    reissueRule.act b p = ⟨.accepted, [], reissuePlan id x p⟩ := by
  simp only [reissueRule, onPlanNumbered, id_eq, hx]
  rw [if_neg (by omega), if_neg (by rcases state with h | h <;> simp [h]), if_neg (by simpa using some_)]

/-- Settles O44: the orders by the rule on operations, and the plan by the tests that follow them. -/
theorem reissueOrdersAgain : Obligations.ReissueOrdersAgain := by
  unfold Obligations.ReissueOrdersAgain
  intro tag id x s ready hid hx p again
  have id_eq : u8 [byte id] 0 = id := u8_of_byte (by omega)
  have hx : p.plans.get? id = some x := hx
  have run := fun {q : Part} (act : reissueRule.act [byte id] p = ⟨.accepted, [], q⟩) =>
    request_of_admitted (h := reissueRule) rfl tag ready.1 rfl (decide_eq_true ready.2) act
  refine ⟨fun blocked some_ => ?_, fun releasing some_ => ?_⟩
  · have vs_eq : p.reissued x = (.toClose, x.closeList.filter p.closeQualifies) := by
      simp [Part.reissued, blocked]
    have act := reissueRule_act id_eq hid hx (.inl blocked) (by rw [vs_eq]; exact some_)
    generalize hvs : x.closeList.filter p.closeQualifies = vs at *
    have works : Works p (p.ordered id .toClose vs) := works_orderAll vs .toClose (.plan id) p
    have plans : (p.ordered id .toClose vs).plans = p.plans := by rw [works.frame]
    have written : setPlanState id .executing none ((p.ordered id .toClose vs).onPlan id fun q => { q with blocking := none }) =
        place (.planState id .blocked .executing x.target x.incident x.failure none) { p.ordered id .toClose vs with
            plans := p.plans.set id { x with state := .executing, stateTime := p.time, blocking := none } } := by
      have hr : (p.ordered id .toClose vs).plans.get? id = some x := by rw [plans]; exact hx
      rw [onPlan_of_get? hr, setPlanState_of_get? (x := { x with blocking := none }) (by simp)]
      simp only [set_set, plans, blocked]
      rw [← works.time]
      rfl
    generalize hr : place (.planState id .blocked .executing x.target x.incident x.failure none)
      { p.ordered id .toClose vs with
        plans := p.plans.set id { x with state := .executing, stateTime := p.time, blocking := none } } = r at *
    have r_frame : r = { p.ordered id .toClose vs with plans := r.plans, link := r.link } := by rw [← hr]; rfl
    have r_plans : r.plans = p.plans.set id { x with state := .executing, stateTime := p.time, blocking := none } := by
      rw [← hr]; rfl
    have now : r.plans.get? id = some { x with state := .executing, stateTime := p.time, blocking := none } := by
      rw [r_plans]; simp
    have bare : ∀ v, r.bare v = p.bare v := fun v => by rw [r_frame]; exact works.bare v
    have op? : ∀ v, r.op? v = (p.ordered id .toClose vs).op? v := fun v => by rw [r_frame]; rfl
    have qualified : ∀ v ∈ vs, ∃ valve, p.valves.get? v = some valve ∧ valve.lastEnd = .opened := fun v mem => by
      rw [← hvs] at mem
      have qualifies := (List.mem_filter.mp mem).2
      unfold Part.closeQualifies at qualifies
      split at qualifies
      · cases qualifies
      next valve hv =>
        simp only [Bool.and_eq_true, decide_eq_true_eq] at qualifies
        exact ⟨valve, hv, qualifies.1.1⟩
    have apart : ¬r.shut x.closeList := fun shut => by
      obtain ⟨v, mem⟩ := List.exists_mem_of_ne_nil _ some_
      obtain ⟨valve, hv, opened⟩ := qualified v mem
      have closed := shut v (List.mem_filter.mp (hvs ▸ mem)).1
      rw [lastEnd?_of_bare (bare v), Part.lastEnd?, hv, Option.map_some, opened] at closed
      cases closed
    have ordered : ∀ v ∈ vs, ∃ o, r.op? v = some o ∧ o.action = .toClose ∧ o.origin = .plan id ∧ o.ordered = p.time :=
      fun v mem => by
        obtain ⟨valve, hv, -⟩ := qualified v mem
        obtain ⟨o, ho, action, origin, at_, -⟩ := (orderAll_op? vs .toClose (.plan id) v p).2 valve mem hv
        exact ⟨o, (op? v).trans ho, action, origin, at_⟩
    have blocks := afterCloses_open (vs := vs) now rfl apart fun v mem o ho => by
      obtain ⟨o', ho', action, origin, -⟩ := ordered v mem
      cases ho.symm.trans ho'
      exact ⟨origin, action⟩
    have failed : (Part.failedOf r vs) = vs.filter fun v =>
        ((p.ordered id .toClose vs).op? v).any fun o => decide (o.state = .failed .comms) :=
      List.filter_congr fun v _ => by rw [op?]
    rw [failed] at blocks
    have frame := blockedBy_frame id (vs.filter fun v =>
      ((p.ordered id .toClose vs).op? v).any fun o => decide (o.state = .failed .comms)).head? r
    have trace := blockedBy_trace id (vs.filter fun v =>
      ((p.ordered id .toClose vs).op? v).any fun o => decide (o.state = .failed .comms)).head? r
    have plans' := blockedBy_get? id (vs.filter fun v =>
      ((p.ordered id .toClose vs).op? v).any fun o => decide (o.state = .failed .comms)).head? r
    rw [← blocks] at frame trace plans'
    have act' : reissueRule.act [byte id] p = ⟨.accepted, [], dispatchDecide (afterCloses id vs r)⟩ := by
      rw [act, reissuePlan, vs_eq]
      simp only [blocked, if_true]
      rw [← written]
      rfl
    refine ⟨_, ⟨run act', ?_, ?_, fun v => ?_, fun v mem => ?_⟩, by rw [hr], ?_, fun k other => ?_, ?_, ?_, ?_, ?_, fun v => ?_⟩
    · rw [Laws.f_dispatchDecide_points, frame, r_frame, works.frame]
    · rw [Laws.f_dispatchDecide_segments, frame, r_frame, works.frame]
    · rw [← bare v]
      exact bare_of_valves (by rw [Laws.f_dispatchDecide_valves, frame]) v
    · obtain ⟨o, ho, facts⟩ := ordered v mem
      exact ⟨o, by rw [Part.op?, Laws.f_dispatchDecide_valves, frame]; exact ho, facts⟩
    · rw [Laws.f_dispatchDecide_plans, plans', now, Option.map_some]
      generalize (vs.filter fun v => ((p.ordered id .toClose vs).op? v).any fun o => decide (o.state = .failed .comms)) = ws
      cases ws with
      | nil => simp
      | cons v rest => simp [show r.time = p.time by rw [r_frame]; exact works.time]
    · rw [Laws.f_dispatchDecide_plans, plans', r_plans, Laws.get?_set_other _ _ _ _ other]
      simp [other]
    · rw [Laws.f_dispatchDecide_trace, trace, r_frame, works.frame]
    · rw [Laws.f_dispatchDecide_register, frame, r_frame, works.frame]
    · rw [Laws.f_dispatchDecide_lines, frame, r_frame]
    · rw [Laws.f_dispatchDecide_outstations, frame, r_frame]
    · rw [← op? v, Part.op?, Laws.f_dispatchDecide_valves, frame]
      rfl
  · have vs_eq : p.reissued x = (.toOpen, x.releaseList.filter p.openQualifies) := by
      simp [Part.reissued, releasing]
    have act := reissueRule_act id_eq hid hx (.inr releasing) (by rw [vs_eq]; exact some_)
    generalize hvs : x.releaseList.filter p.openQualifies = vs at *
    have works : Works p (p.ordered id .toOpen vs) := works_orderAll vs .toOpen (.plan id) p
    have act' : reissueRule.act [byte id] p = ⟨.accepted, [], dispatchDecide (p.ordered id .toOpen vs)⟩ := by
      rw [act, reissuePlan, vs_eq]
      simp only [releasing]
      rfl
    refine ⟨_, ⟨run act', ?_, ?_, fun v => ?_, fun v mem => ?_⟩, ?_, rfl, ?_, ?_, fun v => ?_⟩
    · rw [Laws.f_dispatchDecide_points, works.frame]
    · rw [Laws.f_dispatchDecide_segments, works.frame]
    · rw [← works.bare v, bare_of_valves (Laws.f_dispatchDecide_valves _)]
    · have qualifies := (List.mem_filter.mp (hvs ▸ mem)).2
      unfold Part.openQualifies at qualifies
      split at qualifies
      next valve o hv ho =>
        obtain ⟨o, ho, action, origin, at_, -⟩ := (orderAll_op? vs .toOpen (.plan id) v p).2 valve mem hv
        exact ⟨o, by rw [Part.op?, Laws.f_dispatchDecide_valves]; exact ho, action, origin, at_⟩
      · cases qualifies
    · rw [Laws.f_dispatchDecide_plans, works.frame]
    · exact Laws.f_dispatchDecide_lines _
    · exact Laws.f_dispatchDecide_outstations _
    · rw [Part.op?, Laws.f_dispatchDecide_valves]
      rfl

/-! ## ABORT -/

section
variable {p : Part} {v : Nat} {valve : Valve} {o : Operation}

theorem setOpState_eq (h : p.valves.get? v = some valve) (ho : valve.operation = some o) (st : OpState) :
    setOpState v st none p = withOp p v valve (Operation.ended o st p.time) := by
  rw [setOpState, onValve_of_get? h, withOp, ho]
  rfl

theorem withdrawCommand_of_get? (h : p.valves.get? v = some valve) : withdrawCommand v p =
    p.onLine (lineOf valve.outstation) fun l => { l with
      queue := ((l.queue.take l.inTxn).map fun q =>
          if q.valve = v && q.action != .stop then { q with withdrawn := true } else q) ++
        (l.queue.drop l.inTxn).filter fun q => !(decide (q.valve = v) && q.action != .stop) } := by
  simp only [withdrawCommand, h]

theorem onLine_congr {n : Nat} {f g : Line → Line} (h : f (p.line n) = g (p.line n)) : p.onLine n f = p.onLine n g := by
  simp only [Part.onLine]
  rw [show f (p.lines.get n) = g (p.lines.get n) from h]

theorem cancelOp_cases (h : p.valves.get? v = some valve) (ho : valve.operation = some o) :
    let failed := place (.valveFailed v o.action o.origin o.mode .cancelled)
      (withOp p v valve (Operation.ended o (.failed .cancelled) p.time))
    (o.mode = .field → o.state = .pending → cancelOp v p = withdrawCommand v failed) ∧
    (o.mode = .field → o.state = .acting → cancelOp v p = offerStop v failed) ∧
    (o.mode = .crew → (o.state = .pending ∨ o.state = .acting) → cancelOp v p = endJob ⟨.valve, v⟩ failed) ∧
    (o.state ≠ .pending → o.state ≠ .acting → cancelOp v p = p) := by
  intro failed
  have found : p.op? v = some o := (op?_of_get? h).trans ho
  have failure : failOp v .cancelled p = if o.mode = .crew then endJob ⟨.valve, v⟩ failed else failed := by
    rw [failOp_eq found, setOpState_eq h ho]
  refine ⟨fun field pending => ?_, fun field acting => ?_, fun crew live => ?_, fun pending acting => ?_⟩
  · rw [cancelOp_live found (live_iff.mpr (.inl pending)), failure]
    simp [field, pending, cancelRest]
  · rw [cancelOp_live found (live_iff.mpr (.inr acting)), failure]
    simp [field, acting, cancelRest]
  · rw [cancelOp_live found (live_iff.mpr live), failure]
    simp [crew, cancelRest]
  · refine cancelOp_dead fun o' found' => ?_
    cases found.symm.trans found'
    simpa [Operation.live] using And.intro pending acting

theorem withdrawCommand_cases (h : p.valves.get? v = some valve) :
    let n := valve.outstation / 16
    let l := p.line n
    let mine := fun (c : Command) => decide (c.valve = v ∧ c.action ≠ .stop)
    let put := fun (queue : List Command) => p.onLine n fun l => { l with queue := queue }
    ((∀ t, l.txn? = some t → t.isCommand = false) → withdrawCommand v p = put (l.queue.filter fun c => !mine c)) ∧
    (∀ t c rest, l.txn? = some t → t.isCommand = true → l.queue = c :: rest → withdrawCommand v p =
      put ((if mine c then { c with withdrawn := true } else c) :: rest.filter fun c => !mine c)) := by
  intro n l mine put
  have test : ∀ c : Command, (decide (c.valve = v) && c.action != .stop) = mine c := fun c => by
    rw [Bool.eq_iff_iff]
    simp [mine]
  rw [withdrawCommand_of_get? h]
  refine ⟨fun free => onLine_congr ?_, fun t c rest txn command queue => onLine_congr ?_⟩
  · have none_ : (p.line (lineOf valve.outstation)).inTxn = 0 := by
      unfold Line.inTxn
      cases txn : (p.line (lineOf valve.outstation)).txn? with
      | none => rfl
      | some t => simp [free t txn]
    simp only [none_, List.take_zero, List.map_nil, List.nil_append, List.drop_zero, test]
    rfl
  · have one : (p.line (lineOf valve.outstation)).inTxn = 1 := by
      unfold Line.inTxn
      rw [show (p.line (lineOf valve.outstation)).txn? = some t from txn]
      simp [command]
    have queue : (p.line (lineOf valve.outstation)).queue = c :: rest := queue
    simp only [one, queue, test]
    rfl

end

section
variable {p : Part} {id : Nat} {x : Plan}

theorem cancelled_works (p : Part) (id : Nat) (vs : List Nat) (f : Operation → Bool) : Works p (p.cancelled id vs f) :=
  works_cancelAll _ p

/-- The operations once those of a plan that pass a test are cancelled, the test holding of no ended one. -/
theorem cancelled_op? (p : Part) (id : Nat) (vs : List Nat) {f : Operation → Bool} (live : ∀ o, f o = true → o.live = true)
    (u : Nat) : (p.cancelled id vs f).op? u = (p.op? u).map fun o =>
      if u ∈ vs ∧ o.origin = .plan id ∧ f o = true then Operation.ended o (.failed .cancelled) p.time else o := by
  rw [Part.cancelled, cancelAll_op?]
  cases ho : p.op? u with
  | none => rfl
  | some o =>
    simp only [Option.map_some, List.mem_filter, ho, Option.any_some, Bool.and_eq_true, decide_eq_true_eq, and_assoc]
    by_cases cut : u ∈ vs ∧ o.origin = .plan id ∧ f o = true
    · rw [if_pos cut, if_pos ⟨cut.1, cut.2.1, cut.2.2, live o cut.2.2⟩]
    · rw [if_neg cut, if_neg fun all => cut ⟨all.1, all.2.1, all.2.2.1⟩]

theorem cancelOps_eq (id : Nat) (x : Plan) (f : Operation → Bool) (p : Part) :
    cancelOps id x (fun _ o => f o) p = p.cancelled id x.closeList f := by
  rw [cancelOps, Part.cancelled, Part.opsOf]
  congr 1
  refine List.filter_congr fun v _ => ?_
  cases p.op? v <;> rfl

/-- The holds of a plan dropped, with the snoop of the change (R119). -/
theorem dropHolders_spec (id : Nat) (x : Plan) (p : Part) : let q := dropHolders id x p
    q = { p with valves := q.valves, trace := q.trace, plans := q.plans, link := q.link } ∧
    (∀ v, q.valves.get? v = (p.valves.get? v).map fun valve => { valve with
      holders := if v ∈ x.closeList ++ x.holdList then valve.holders.filter (· != id) else valve.holders }) ∧
    Trace.Entered p.trace q.trace (x.closeList ++ x.holdList) ∧ q.plans.get? id = p.plans.get? id ∧
    (p.plans.wf 16 = true → ∀ k, k ≠ id →
      q.plans.get? k = (p.plans.get? k).map fun y => y.snooped (x.closeList ++ x.holdList) p.time) := by
  intro q
  have held : x.held = x.closeList ++ x.holdList := rfl
  generalize hd : x.held.foldl (fun p v => dropHolder id v p) p = d
  have d_frame : d = { p with valves := d.valves } := by
    rw [← hd]
    exact onValves_frame (fun _ valve => { valve with holders := valve.holders.filter (· != id) }) x.held p
  have valves := fun v => dropHolders_get? id x.held v p
  rw [hd, held] at valves
  have q_eq : q = snoop x.held (some id) d := by simp only [q, dropHolders, hd]
  have frame := snoop_frame x.held (some id) d
  rw [← q_eq] at frame
  refine ⟨?_, fun v => ?_, ?_, ?_, fun w k other => ?_⟩
  · have := frame
    rw [SnoopOnly, d_frame] at this
    rw [this]
  · rw [← valves v, frame]
  · rw [q_eq, ← held]
    have := snoop_entered x.held (some id) d
    rwa [show d.trace = p.trace by rw [d_frame]] at this
  · rw [q_eq, snoop_except, d_frame]
  · have plans : d.plans = p.plans := by rw [d_frame]
    have time : d.time = p.time := by rw [d_frame]; rfl
    rw [q_eq, snoop_get? (by rw [plans]; exact w), plans, time, held]
    refine congrArg (fun g => Option.map g _) (funext fun y => ?_)
    rw [if_neg (by simpa using fun same => other same.symm)]

theorem abortRule_act {b : List Byte} (id_eq : u8 b 0 = id) (hid : id < 16) (hx : p.plans.get? id = some x)
    (state : x.state = .executing ∨ x.state = .blocked ∨ x.state = .isolated) :
    abortRule.act b p = ⟨.ok, [], abortPlan id x p⟩ := by
  simp only [abortRule, onPlanNumbered, id_eq, hx]
  rw [if_neg (by omega), if_pos (by rcases state with h | h | h <;> simp [h])]
  rfl

end

/-- A test of what an event must end, as the model writes it. -/
theorem live_eq : Operation.live = fun o => decide (o.state = .pending ∨ o.state = .acting) :=
  funext fun o => by rw [Bool.eq_iff_iff, live_iff, decide_eq_true_eq]

/-- Settles O45: the plan's operations cancelled, its holds dropped and the plan freed, each by its rule. -/
theorem abortFreesThePlan : Obligations.AbortFreesThePlan := by
  unfold Obligations.AbortFreesThePlan
  refine ⟨fun tag id x s ready hid hx state => ?_, fun v valve o p h ho => cancelOp_cases h ho,
    fun v valve p h => ?_, fun id x p hx => ⟨fun unlinked => freePlan_unlinked hx unlinked, fun i inc hi hinc link =>
      freePlan_linked hx hi hinc link⟩⟩
  · intro p
    have act := abortRule_act (p := p) (b := [byte id]) (u8_of_byte (by omega)) hid hx state
    have run := request_ok (h := abortRule) rfl tag ready.1 rfl (decide_eq_true ready.2) act
    have hx : p.plans.get? id = some x := hx
    generalize hr : p.cancelled id x.closeList (fun o => decide (o.state = .pending ∨ o.state = .acting)) = r
    have works : Works p r := hr ▸ cancelled_works p id x.closeList _
    have ops := cancelled_op? p id x.closeList (f := fun o => decide (o.state = .pending ∨ o.state = .acting)) fun o test =>
      live_iff.mpr (of_decide_eq_true test)
    rw [hr] at ops
    have plans : r.plans = p.plans := by rw [works.frame]
    have trace : r.trace = p.trace := by rw [works.frame]
    obtain ⟨frame, valves, entered, this, others⟩ := dropHolders_spec id x r
    have plan_eq : abortPlan id x p = dispatchDecide (freePlan id (dropHolders id x r)) := by
      rw [abortPlan, cancelOps_eq, live_eq, hr]
    have here : (dropHolders id x r).plans.get? id = some x := by rw [this, plans]; exact hx
    obtain ⟨register, incidents⟩ := freePlan_incidents here
    have reg : (dropHolders id x r).register = p.register := by rw [frame, works.frame]
    rw [plan_eq] at run
    refine ⟨_, run, ?_, ?_, ?_, ?_, ?_, ?_, fun v valve hv => ?_, ?_, fun w k other => ?_, ?_, ?_,
      dropHolders id x r, rfl, here, frame⟩
    · rw [Laws.f_dispatchDecide_plans, freePlan_plans, if_pos rfl]
    · rw [Laws.f_dispatchDecide_clock, Laws.f_freePlan_clock, frame, works.frame]
    · rw [Laws.f_dispatchDecide_points, Laws.f_freePlan_points, frame, works.frame]
    · rw [Laws.f_dispatchDecide_segments, Laws.f_freePlan_segments, frame, works.frame]
    · rw [Laws.f_dispatchDecide_feeds, Laws.f_freePlan_feeds, frame, works.frame]
    · rw [Laws.f_dispatchDecide_outages, Laws.f_freePlan_outages, frame, works.frame]
    · rw [Laws.f_dispatchDecide_valves, Laws.f_freePlan_valves, valves]
      have bare := works.bare v
      have op := ops v
      rw [op?_of_get? hv] at op
      simp only [Part.bare, hv, Option.map_some] at bare
      obtain ⟨y, hy, same⟩ := Option.map_eq_some_iff.mp bare
      rw [op?_of_get? hy] at op
      have y_eq : y = { valve with operation := y.operation } :=
        congrArg (fun z : Valve => { z with operation := y.operation }) same
      rw [hy, Option.map_some, y_eq, op]
      simp only [decide_eq_true_eq, Operation.ended]
    · rw [Laws.f_dispatchDecide_register]
      rw [reg] at register incidents
      exact ⟨register, incidents⟩
    · rw [Laws.f_dispatchDecide_plans, freePlan_plans, if_neg other, others (by rw [plans]; exact w) k other, plans,
        works.time]
    · rw [Laws.f_dispatchDecide_trace, Laws.f_freePlan_trace, ← trace]
      exact entered
    · refine ⟨?_, ?_, fun v => ?_⟩
      · rw [Laws.f_dispatchDecide_lines, Laws.f_freePlan_lines, frame]
      · rw [Laws.f_dispatchDecide_outstations, Laws.f_freePlan_outstations, frame]
      · rw [Part.op?, Laws.f_dispatchDecide_valves, Laws.f_freePlan_valves, valves, Part.op?, Option.bind_map]
        rfl
  · obtain ⟨free, busy⟩ := withdrawCommand_cases h
    exact ⟨free, busy, by simp only [offerStop, h]⟩

end Sys2Proof.Proofs
end


section
/-!
RELEASE (R120): the operations cut short, the holds dropped and the valves reopened.
-/

namespace Sys2Proof.Proofs

open Sys2Proof Sys2Proof.Machine

section
variable {p : Part} {id : Nat} {x : Plan}

/-- The operations that a RELEASE ends before it reopens some valves (R120; notes/assumptions/11.md). -/
def endsBefore (id : Nat) (vs : List Nat) (v : Nat) (o : Operation) : Bool :=
  decide (o.origin = .plan id ∧ (o.state = .acting ∨ (o.state = .pending ∧ v ∈ vs)))

/-- The part with those operations cancelled. -/
def cutShort (id : Nat) (x : Plan) (vs : List Nat) (p : Part) : Part :=
  (x.closeList.filter fun v => (p.op? v).any (endsBefore id vs v)).foldl (fun r v => cancelOp v r) p

theorem cutShort_eq (id : Nat) (x : Plan) (vs : List Nat) (p : Part) :
    cancelOps id x (fun v o => o.endsAtRelease (vs.contains v)) p = cutShort id x vs p := by
  rw [cancelOps, cutShort, Part.opsOf]
  congr 1
  refine List.filter_congr fun v _ => ?_
  cases p.op? v with
  | none => rfl
  | some o =>
    rw [Bool.eq_iff_iff]
    simp only [endsBefore, Operation.endsAtRelease, Option.any_some, Bool.and_eq_true, Bool.or_eq_true,
      decide_eq_true_eq, List.contains_iff_mem, live_iff]
    tauto

theorem cutShort_op? (id : Nat) (x : Plan) (vs : List Nat) (p : Part) (u : Nat) : (cutShort id x vs p).op? u =
    (p.op? u).map fun o => if u ∈ x.closeList ∧ endsBefore id vs u o = true then
      Operation.ended o (.failed .cancelled) p.time else o := by
  rw [cutShort, cancelAll_op?]
  cases ho : p.op? u with
  | none => rfl
  | some o =>
    simp only [Option.map_some, List.mem_filter, ho, Option.any_some]
    by_cases cut : u ∈ x.closeList ∧ endsBefore id vs u o = true
    · have live : o.live = true := live_iff.mpr ((of_decide_eq_true cut.2).2.elim .inr fun h => .inl h.1)
      rw [if_pos cut, if_pos ⟨cut, live⟩]
    · rw [if_neg cut, if_neg fun both => cut both.1]

theorem releaseRule_act {b : List Byte} (id_eq : u8 b 0 = id) (hid : id < 16) (hx : p.plans.get? id = some x)
    (isolated : x.state = .isolated) (repaired : p.incidentRepaired x = true)
    (clear : ∀ v ∈ p.reopened id x, ∀ o, p.op? v = some o → o.live = true → o.origin ≠ .host) :
    releaseRule.act b p = ⟨.accepted, [], releasePlan id x p⟩ := by
  have none_ : ((p.reopened id x).find? fun v => (p.op? v).any fun o => o.live && o.origin = .host) = none := by
    rw [List.find?_eq_none]
    intro v mem test
    obtain ⟨o, ho, both⟩ := (Option.any_eq_true _ _).mp test
    rw [Bool.and_eq_true, decide_eq_true_eq] at both
    exact clear v mem o ho both.1 both.2
  simp only [releaseRule, onPlanNumbered, id_eq, hx]
  rw [if_neg (by omega), if_neg (by simp [isolated, repaired]), none_]

theorem reopened_subset : p.reopened id x ⊆ x.closeList := List.filter_subset_self _

theorem reopened_defined {v : Nat} (mem : v ∈ p.reopened id x) : ∃ valve, p.valves.get? v = some valve := by
  obtain ⟨valve, hv, -⟩ := (Option.any_eq_true _ _).mp (List.mem_filter.mp mem).2
  exact ⟨valve, hv⟩

/-- The part as a RELEASE orders its reopenings: the operations cut short, the holds dropped, the release list made. -/
def unheldFor (id : Nat) (x : Plan) (vs : List Nat) (p : Part) : Part :=
  (dropHolders id x (cutShort id x vs p)).onPlan id fun q => { q with releaseList := vs }

theorem unheldFor_spec (hx : p.plans.get? id = some x) (vs : List Nat) :
    let cut := cutShort id x vs p
    let h := unheldFor id x vs p
    h = { cut with valves := h.valves, trace := h.trace, plans := h.plans, link := h.link } ∧
    SameField cut h ∧ h.plans.get? id = some { x with releaseList := vs } ∧
    (∀ v, h.valves.get? v = (cut.valves.get? v).map fun valve => { valve with
      holders := if v ∈ x.closeList ++ x.holdList then valve.holders.filter (· != id) else valve.holders }) ∧
    Trace.Entered p.trace h.trace (x.closeList ++ x.holdList) ∧
    (p.plans.wf 16 = true → ∀ k, k ≠ id →
      h.plans.get? k = (p.plans.get? k).map fun y => y.snooped (x.closeList ++ x.holdList) p.time) := by
  intro cut h
  have works : Works p cut := works_cancelAll _ p
  have plans : cut.plans = p.plans := by rw [works.frame]
  obtain ⟨frame, valves, entered, this, others⟩ := dropHolders_spec id x cut
  have here : (dropHolders id x cut).plans.get? id = some x := by rw [this, plans]; exact hx
  have h_eq : h = { dropHolders id x cut with
      plans := (dropHolders id x cut).plans.set id { x with releaseList := vs } } := onPlan_of_get? here _
  have h_valves : h.valves = (dropHolders id x cut).valves := by rw [h_eq]
  have h_frame : h = { cut with valves := h.valves, trace := h.trace, plans := h.plans, link := h.link } := by
    have := frame
    rw [h_eq, this]
  refine ⟨h_frame, ⟨?_, ?_, ?_, fun v => ?_⟩, by rw [h_eq]; simp, fun v => by rw [h_valves, valves], ?_, fun w k other => ?_⟩
  · rw [h_frame]
  · rw [h_frame]
  · rw [h_frame]
  · rw [h_valves, valves, Option.map_map]
    rfl
  · have : cut.trace = p.trace := by rw [works.frame]
    rw [h_eq, ← this]
    exact entered
  · rw [h_eq]
    dsimp only
    rw [Laws.get?_set_other _ _ _ _ other, others (by rw [plans]; exact w) k other, plans, works.time]

theorem releasePlan_eq (id : Nat) (x : Plan) (p : Part) : releasePlan id x p =
    let vs := p.reopened id x
    let r := setPlanState id .releasing none ((unheldFor id x vs p).ordered id .toOpen vs)
    dispatchDecide (if vs = [] then freePlan id r else r) := by
  simp only [releasePlan, cutShort_eq, List.isEmpty_iff]
  rfl

end

/-- Settles O46: the operations cut short, the holds dropped and the reopenings ordered, each by its rule; the lines make
the same of the orders with the holds in place. -/
theorem releaseReopens : Obligations.ReleaseReopens := by
  unfold Obligations.ReleaseReopens
  intro tag id x s ready hid hx isolated repaired p vs clear
  have hx : p.plans.get? id = some x := hx
  have act := releaseRule_act (p := p) (b := [byte id]) (u8_of_byte (by omega)) hid hx isolated repaired clear
  have run := request_of_admitted (h := releaseRule) rfl tag ready.1 rfl (decide_eq_true ready.2) act
  rw [releasePlan_eq] at run
  replace run : exec (.release tag [byte id]) s = .next (s.answered (dispatchDecide (if vs = [] then
      freePlan id (setPlanState id .releasing none ((unheldFor id x vs p).ordered id .toOpen vs))
    else setPlanState id .releasing none ((unheldFor id x vs p).ordered id .toOpen vs))) .accepted []) := run
  obtain ⟨h_frame, alike, here, h_valves, entered, others⟩ := unheldFor_spec hx vs
  have cut_works : Works p (cutShort id x vs p) := works_cancelAll _ p
  generalize hh : unheldFor id x vs p = h at *
  generalize hcut : cutShort id x vs p = cut at *
  have works : Works h (h.ordered id .toOpen vs) := works_orderAll vs .toOpen (.plan id) h
  generalize ho : h.ordered id .toOpen vs = g at *
  generalize hr : setPlanState id .releasing none g = r at *
  have snooped : SnoopOnly g r := hr ▸ snoopOnly_setPlanState _ _ _ _
  have r_trace : r.trace = g.trace := by rw [← hr]; simp
  have r_plans : ∀ k, r.plans.get? k = (h.plans.get? k).map fun y => if k = id then { y with
      state := .releasing, stateTime := p.time } else y := fun k => by
    have time : g.time = p.time := by rw [works.time, alike.time, cut_works.time]
    have plans : g.plans = h.plans := by rw [works.frame]
    rw [← hr, setPlanState_get?, plans, time]
    rfl
  have r_here : r.plans.get? id = some { x with releaseList := vs, state := .releasing, stateTime := p.time } := by
    rw [r_plans, here]; simp
  have r_register : r.register = p.register := by rw [snooped, works.frame, h_frame, cut_works.frame]
  generalize ht : (if vs = [] then freePlan id r else r) = t at *
  have rest : t = { r with link := t.link, plans := t.plans, register := t.register, panel := t.panel } := by
    rw [← ht]
    split
    · unfold freePlan
      split
      · rfl
      · dsimp only
        split
        · split <;> rfl
        · rfl
    · rfl
  have t_plans : ∀ k, t.plans.get? k = if vs = [] ∧ k = id then none else r.plans.get? k := fun k => by
    rw [← ht]
    by_cases none_ : vs = []
    · rw [if_pos none_, freePlan_plans]; simp [none_]
    · simp [none_]
  have t_register : t.register = { p.register with incidents := t.register.incidents } ∧
      ∀ i, t.register.incidents.get? i = (p.register.incidents.get? i).map fun inc => { inc with
        planLink := if vs = [] ∧ x.incident = some i ∧ inc.planLink = some id then none else inc.planLink } := by
    rw [← ht]
    by_cases none_ : vs = []
    · obtain ⟨register, incidents⟩ := freePlan_incidents r_here
      rw [r_register] at register incidents
      rw [if_pos none_]
      exact ⟨register, fun i => by rw [incidents]; simp [none_]⟩
    · rw [if_neg none_, r_register]
      exact ⟨rfl, fun i => by simp [none_]⟩
  have t_valves : t.valves = g.valves := by rw [rest, snooped]
  have op? : ∀ v, (dispatchDecide t).op? v = g.op? v := fun v => by
    rw [Part.op?, Laws.f_dispatchDecide_valves, t_valves]; rfl
  have ordered := sameField_foldl (fun p v => orderOp v .toOpen (.plan id) p)
    (fun p q v same => sameField_orderOp same v .toOpen (.plan id)) vs alike
  have ordered : SameField (cut.ordered id .toOpen vs) g := by
    rw [← ho]; exact ordered
  have kept : ∀ v valve, p.valves.get? v = some valve → ∃ y, cut.valves.get? v = some y ∧
      { y with operation := none } = { valve with operation := none } := fun v valve hv => by
    have bare := cut_works.bare v
    simp only [Part.bare, hv, Option.map_some] at bare
    exact Option.map_eq_some_iff.mp bare
  refine ⟨_, run, ?_, ?_, ?_, ?_, ?_, fun none_ => ?_, fun some_ => ?_, fun v mem => ?_, fun v valve hv => ?_, ?_,
    fun w k other => ?_, ?_, fun v out => ?_, ⟨?_, ?_, fun v => ?_⟩, h, ?_, here, ?_⟩
  · rw [Laws.f_dispatchDecide_clock, rest, snooped, works.frame, h_frame, cut_works.frame]
  · rw [Laws.f_dispatchDecide_points, rest, snooped, works.frame, h_frame, cut_works.frame]
  · rw [Laws.f_dispatchDecide_segments, rest, snooped, works.frame, h_frame, cut_works.frame]
  · rw [Laws.f_dispatchDecide_feeds, rest, snooped, works.frame, h_frame, cut_works.frame]
  · rw [Laws.f_dispatchDecide_outages, rest, snooped, works.frame, h_frame, cut_works.frame]
  · rw [Laws.f_dispatchDecide_plans, t_plans, if_pos ⟨none_, rfl⟩]
  · refine ⟨_, by rw [Laws.f_dispatchDecide_plans, t_plans, if_neg fun both => some_ both.1, r_here], rfl, rfl, rfl⟩
  · obtain ⟨valve, hv⟩ := reopened_defined mem
    obtain ⟨y, hy, -⟩ := kept v valve hv
    obtain ⟨o, found, action, origin, at_, -⟩ := (orderAll_op? vs .toOpen (.plan id) v h).2 _ mem
      (by rw [h_valves, hy]; rfl)
    refine ⟨o, by rw [op?, ← ho]; exact found, action, origin, at_.trans ?_⟩
    rw [alike.time, cut_works.time]
  · obtain ⟨y, hy, same⟩ := kept v valve hv
    have bare : (dispatchDecide t).bare v = h.bare v :=
      (bare_of_valves (by rw [Laws.f_dispatchDecide_valves, t_valves]) v).trans (works.bare v)
    rw [bare, Part.bare, h_valves, hy]
    exact congrArg (fun z : Valve => some { z with
      holders := if v ∈ x.closeList ++ x.holdList then z.holders.filter (· != id) else z.holders }) same
  · rw [Laws.f_dispatchDecide_register]
    exact t_register
  · rw [Laws.f_dispatchDecide_plans, t_plans, if_neg fun both => other both.2, r_plans, others w k other, Option.map_map]
    exact congrArg (fun f => Option.map f _) (funext fun y => if_neg other)
  · rw [Laws.f_dispatchDecide_trace, rest, r_trace, works.frame]
    exact entered
  · rw [op?, ← ho, Part.ordered, (orderAll_op? vs .toOpen (.plan id) v h).1 out, alike.op?, ← hcut, cutShort_op?]
    refine congrArg (fun f => Option.map f _) (funext fun o => ?_)
    have same : endsBefore id vs v o = true ↔ o.origin = .plan id ∧ o.state = .acting := by
      simp [endsBefore, out]
    simp only [same]
    rfl
  · rw [Laws.f_dispatchDecide_lines, rest, snooped, ordered.lines, ← hcut]
    rfl
  · rw [Laws.f_dispatchDecide_outstations, rest, snooped, ordered.outstations, ← hcut]
    rfl
  · rw [op?, ordered.op?, ← hcut]
    rfl
  · rw [h_frame, ← hcut]
    rfl
  · rw [ho, hr]
    exact congrArg dispatchDecide ht.symm

end Sys2Proof.Proofs
end


section
/-!
EXECUTE (R109): the holds given, the release lists left, the closures ordered, and where the plan goes (R117).
-/

namespace Sys2Proof.Proofs

open Sys2Proof Sys2Proof.Machine

/-! ## A plan that goes ISOLATED -/

section
variable {p : Part} {id : Nat} {x : Plan}

/-- What entry to ISOLATED leaves: the lines, the outstations and the valves, and every other plan (R117). -/
theorem enterIsolated_spec (h : p.plans.get? id = some x) : let q := enterIsolated id p
    q.lines = p.lines ∧ q.outstations = p.outstations ∧ q.valves = p.valves ∧
    (∀ k, q.plans.get? k = (p.plans.get? k).map fun y => if k = id then { y with
      state := .isolated, stateTime := p.time } else y) ∧
    ∀ i inc, x.incident = some i → p.register.incidents.get? i = some inc → inc.exposed →
      q.register.incidents.get? i = some { inc with state := .madeSafe, stateTime := p.time, nextEscalation := none } := by
  intro q
  have gone : (setPlanState id .isolated none p).lines = p.lines ∧ (setPlanState id .isolated none p).outstations =
      p.outstations ∧ (setPlanState id .isolated none p).valves = p.valves ∧
      (∀ k, (setPlanState id .isolated none p).plans.get? k = (p.plans.get? k).map fun y =>
        if k = id then { y with state := .isolated, stateTime := p.time } else y) :=
    ⟨by simp, by simp, by simp, fun k => by rw [setPlanState_get?]; rfl⟩
  have q_eq : q = match x.incident.bind fun i => (p.incident? i).map fun inc => (i, inc) with
      | some (i, inc) => if inc.state = .opened || inc.state = .assigned || inc.state = .onSite then
          makeSafe i .plan (setPlanState id .isolated none p) else setPlanState id .isolated none p
      | none => setPlanState id .isolated none p := by
    simp only [q, enterIsolated, h, Part.incident?, Laws.f_setPlanState_register] <;> rfl
  cases named : x.incident.bind fun i => (p.incident? i).map fun inc => (i, inc) with
  | none =>
    rw [q_eq, named]
    refine ⟨gone.1, gone.2.1, gone.2.2.1, gone.2.2.2, fun i inc hi hinc _ => ?_⟩
    rw [hi, Option.bind_some, Part.incident?, hinc] at named
    cases named
  | some e =>
    obtain ⟨i, inc⟩ := e
    obtain ⟨i', hi', found⟩ := Option.bind_eq_some_iff.mp named
    obtain ⟨inc', hinc', same⟩ := Option.map_eq_some_iff.mp found
    obtain ⟨rfl, rfl⟩ := Prod.mk.inj same
    rw [q_eq, named]
    dsimp only
    by_cases exposed : inc'.exposed
    · rw [if_pos (by simpa [Incident.exposed, or_assoc] using exposed)]
      refine ⟨by simp, by simp, by simp, fun k => ?_, fun k inc hk hinc _ => ?_⟩
      · rw [Laws.f_makeSafe_plans]
        exact gone.2.2.2 k
      · cases hi'.symm.trans hk
        cases hinc'.symm.trans hinc
        have written : (setIncidentState i' .madeSafe .plan (setPlanState id .isolated none p)).register.incidents.get? i' =
            some { inc' with state := .madeSafe, stateTime := p.time, nextEscalation := none } := by
          rw [setIncidentState_of_get? (i := inc') (by simpa [Part.incident?] using hinc'), Laws.place_register, putIncident,
            Laws.refreshLamps_register]
          simp [IncidentState.endsEscalation]
        rw [makeSafe_of_get? (i := inc') (by simpa [Part.incident?] using hinc')]
        split
        · rw [Laws.f_endJob_register]; exact written
        · exact written
    · rw [if_neg (by simpa [Incident.exposed, or_assoc] using exposed)]
      refine ⟨gone.1, gone.2.1, gone.2.2.1, gone.2.2.2, fun k inc hk hinc safe => ?_⟩
      cases hi'.symm.trans hk
      cases hinc'.symm.trans hinc
      exact absurd safe exposed

/-- A plan whose close list is all last CLOSED goes on to ISOLATED after its orders, its PENDING closures cancelled
(R116, R117). -/
theorem afterCloses_shut {vs : List Nat} (h : p.plans.get? id = some x) (executing : x.state = .executing)
    (shut : p.shut x.closeList) (ordered : ∀ v ∈ vs, ∀ o, p.op? v = some o → o.origin = .plan id ∧ o.action = .toClose) :
    afterCloses id vs p = enterIsolated id (blockedBy id (Part.failedOf p vs).head?
      (p.cancelled id x.closeList fun o => decide o.closePending)) := by
  have isolates : p.isolates x = true := isolates_iff.mpr ⟨.inl executing, shut⟩
  generalize hc : p.cancelled id x.closeList (fun o => decide o.closePending) = c
  have works : Works p c := hc ▸ cancelled_works p id _ _
  have plan : c.plans.get? id = some x := by rw [works.frame]; exact h
  have op? := cancelled_op? p id x.closeList (f := fun o => decide o.closePending) fun o test =>
    live_iff.mpr (.inl (of_decide_eq_true test).2)
  rw [hc] at op?
  have blocks : ∀ v ∈ Part.failedOf p vs, ∃ o, c.op? v = some o ∧ Operation.blocks o id := fun v mem => by
    obtain ⟨mem, failed⟩ := List.mem_filter.mp mem
    obtain ⟨o, ho, state⟩ := (Option.any_eq_true _ _).mp failed
    have state := of_decide_eq_true state
    refine ⟨o, ?_, (ordered v mem o ho).1, (ordered v mem o ho).2, by rw [state]; simp⟩
    rw [op?, ho, Option.map_some, if_neg]
    intro ⟨_, _, test⟩
    have := (of_decide_eq_true test).2
    rw [state] at this
    cases this
  rw [afterCloses_eq, cancelPending_isolates h isolates, hc, failureTests_eq _ plan executing blocks]
  have frame := blockedBy_frame id (Part.failedOf p vs).head? c
  have now := blockedBy_get? id (Part.failedOf p vs).head? c id
  rw [plan, Option.map_some] at now
  refine isolationTest_isolates now (isolates_iff.mpr ⟨?_, ?_⟩)
  · split
    · exact .inr rfl
    · exact .inl executing
  · have lists : (if id = id ∧ (Part.failedOf p vs).head? ≠ none then { x with
      state := PlanState.blocked, stateTime := c.time, blocking := (Part.failedOf p vs).head? } else x).closeList =
        x.closeList := by split <;> rfl
    rw [lists]
    intro v mem
    rw [← shut v mem]
    refine (lastEnd?_of_bare (q := blockedBy id (Part.failedOf p vs).head? c) (p := c) ?_).trans
      (lastEnd?_of_bare (works.bare v))
    exact bare_of_valves (by rw [frame]) v

end

/-- Where a plan stands once the tests after its orders are made, its state being EXECUTING since now (R117). -/
theorem afterCloses_spec {p : Part} {id : Nat} {x : Plan} (h : p.plans.get? id = some x) (executing : x.state = .executing)
    (at_ : x.stateTime = p.time)
    (ordered : ∀ v ∈ x.closeList, ∀ o, p.op? v = some o → o.origin = .plan id ∧ o.action = .toClose) :
    let a := afterCloses id x.closeList p
    let failed := Part.failedOf p x.closeList
    a.operatesAs (if p.shut x.closeList then p.cancelled id x.closeList fun o => decide o.closePending else p) ∧
    (∀ v, a.bare v = p.bare v) ∧
    a.plans.get? id = some { x with
      state := if p.shut x.closeList then .isolated else if failed = [] then .executing else .blocked
      blocking := failed.head?.or x.blocking } ∧
    (∀ k, k ≠ id → a.plans.get? k = p.plans.get? k) ∧ (p.shut x.closeList → p.MadeSafe a x) ∧
    (¬p.shut x.closeList → a.register = p.register) ∧ a.clock = p.clock ∧ a.points = p.points ∧
    a.segments = p.segments ∧ a.feeds = p.feeds ∧ a.districts = p.districts ∧ a.outages = p.outages ∧
    a.trace = p.trace := by
  intro a failed
  by_cases shut : p.shut x.closeList
  · have works := cancelled_works p id x.closeList fun o => decide o.closePending
    have a_eq : a = _ := afterCloses_shut h executing shut ordered
    simp only [if_pos shut]
    generalize p.cancelled id x.closeList (fun o => decide o.closePending) = c at *
    have frame := blockedBy_frame id failed.head? c
    have trace := blockedBy_trace id failed.head? c
    have plans := blockedBy_get? id failed.head? c
    have c_plans : c.plans = p.plans := by rw [works.frame]
    have now := plans id
    rw [c_plans, h, Option.map_some] at now
    obtain ⟨lines, outstations, valves, states, safe⟩ := enterIsolated_spec now
    have time : (blockedBy id failed.head? c).time = p.time := by rw [frame]; exact works.time
    rw [time] at states safe
    refine ⟨⟨?_, ?_, fun v => ?_⟩, fun v => ?_, ?_, fun k other => ?_, fun _ i inc hi hinc exposed => ?_,
      fun open_ => absurd shut open_, ?_, ?_, ?_, ?_, ?_, ?_, ?_⟩
    · rw [a_eq, lines, frame]
    · rw [a_eq, outstations, frame]
    · rw [Part.op?, a_eq, valves, frame]; rfl
    · rw [← works.bare v]
      exact bare_of_valves (by rw [a_eq, valves, frame]) v
    · rw [a_eq, states, now, Option.map_some, if_pos rfl, at_]
      cases failed <;> simp
    · rw [a_eq, states, plans, c_plans]
      simp [other]
    · refine ⟨inc.planLink, ?_⟩
      have reg : (blockedBy id failed.head? c).register = p.register := by rw [frame, works.frame]
      rw [a_eq, safe i inc ?_ (by rw [reg]; exact hinc) exposed]
      rw [← hi]
      split <;> rfl
    · rw [a_eq, Laws.f_enterIsolated_clock, frame, works.frame]
    · rw [a_eq, Laws.f_enterIsolated_points, frame, works.frame]
    · rw [a_eq, Laws.f_enterIsolated_segments, frame, works.frame]
    · rw [a_eq, Laws.f_enterIsolated_feeds, frame, works.frame]
    · rw [a_eq, Laws.f_enterIsolated_districts, frame, works.frame]
    · rw [a_eq, Laws.f_enterIsolated_outages, frame, works.frame]
    · rw [a_eq, Laws.f_enterIsolated_trace, trace, works.frame]
  · have a_eq : a = blockedBy id failed.head? p := afterCloses_open h executing shut ordered
    have frame := blockedBy_frame id failed.head? p
    have plans := blockedBy_get? id failed.head? p
    rw [← a_eq] at frame plans
    simp only [if_neg shut]
    refine ⟨⟨?_, ?_, fun v => ?_⟩, fun v => ?_, ?_, fun k other => ?_, fun shut' => absurd shut' shut, fun _ => ?_,
      ?_, ?_, ?_, ?_, ?_, ?_, ?_⟩
    · rw [frame]
    · rw [frame]
    · rw [frame]; rfl
    · exact bare_of_valves (by rw [frame]) v
    · rw [plans, h, Option.map_some]
      cases failed with
      | nil =>
        simp
        rw [← executing]
      | cons v rest => simp [at_]
    · rw [plans]
      simp [other]
    · rw [frame]
    · rw [frame]
    · rw [frame]
    · rw [frame]
    · rw [frame]
    · rw [frame]
    · rw [frame]
    · rw [a_eq, blockedBy_trace]

/-! ## The holds given -/

section
variable {p : Part} {id : Nat} {x : Plan}

/-- Leaving release lists writes plans, incidents, lamps and the link. -/
theorem leaveAll_frame (id : Nat) (vs : List Nat) (p : Part) : let q := vs.foldl (fun p v => leaveReleases v (some id) p) p
    q = { p with plans := q.plans, register := q.register, panel := q.panel, link := q.link } := by
  induction vs generalizing p with
  | nil => rfl
  | cons v rest ih =>
    have := ih (leaveReleases v (some id) p)
    intro q
    have q_eq : q = rest.foldl (fun p v => leaveReleases v (some id) p) (leaveReleases v (some id) p) := rfl
    rw [q_eq, this]
    simp

/-- The holds of a plan given, the change snooped, and the release lists of other plans left (R109). -/
theorem addHolders_spec (hx : p.plans.get? id = some x) (once : (x.closeList ++ x.holdList).Nodup) :
    let held := x.closeList ++ x.holdList
    let after := fun (y : Plan) => (y.snooped held p.time).without held
    let h := addHolders id x p
    h = { p with valves := h.valves, trace := h.trace, plans := h.plans, register := h.register, panel := h.panel
                 link := h.link } ∧
    (∀ v, h.valves.get? v = (p.valves.get? v).map fun valve => { valve with
      holders := if v ∈ held then valve.holders ++ [id] else valve.holders }) ∧
    Trace.Entered p.trace h.trace held ∧ h.plans.get? id = some x ∧
    (p.plans.wf 16 = true → ∀ k, k ≠ id → h.plans.get? k = (p.plans.get? k).bind after) ∧
    (p.plans.wf 16 = true → h.register = { p.register with incidents := h.register.incidents } ∧
      ∀ i, h.register.incidents.get? i = (p.register.incidents.get? i).map fun inc => { inc with
        planLink := inc.planLink.bind fun k =>
          if k ≠ id ∧ ((p.plans.get? k).any fun y => decide (y.incident = some i ∧ after y = none)) = true then none
          else some k }) := by
  intro held after h
  have held_eq : x.held = held := rfl
  generalize hd : held.foldl (fun p v => addHolder id v p) p = d
  have d_frame : d = { p with valves := d.valves } := by
    rw [← hd]
    exact onValves_frame (fun _ valve => { valve with holders := valve.holders ++ [id] }) held p
  have valves := fun v => addHolders_get? id v p once
  rw [hd] at valves
  have h_eq : h = held.foldl (fun p v => leaveReleases v (some id) p) (snoop held (some id) d) := by
    simp only [h, addHolders, held_eq, hd]
  have snooped := snoop_frame held (some id) d
  have frame := leaveAll_frame id held (snoop held (some id) d)
  rw [← h_eq] at frame
  have plans : d.plans = p.plans := by rw [d_frame]
  have time : d.time = p.time := by rw [d_frame]; rfl
  have here : h.plans.get? id = some x := by
    rw [h_eq, leaveAll_get?, snoop_except, plans, hx]
    simp
  have others : p.plans.wf 16 = true → ∀ k, k ≠ id → h.plans.get? k = (p.plans.get? k).bind after := fun w k other => by
    rw [h_eq, leaveAll_get?, snoop_get? (by rw [plans]; exact w), plans, time]
    cases p.plans.get? k with
    | none => rfl
    | some y =>
      rw [Option.map_some, Option.bind_some, Option.bind_some, if_neg other, if_neg (by simpa using Ne.symm other)]
  refine ⟨?_, fun v => ?_, ?_, here, others, fun w => ?_⟩
  · rw [frame, snooped, d_frame]
  · rw [frame, snooped, valves]
  · rw [frame, ← show d.trace = p.trace by rw [d_frame]]
    exact snoop_entered held (some id) d
  · have frees : Frees p h := by
      rw [h_eq]
      refine Frees.trans (frees_of_kept ?_ fun k => ?_) ((frees_snoop held (some id) d).trans
        (frees_foldl _ (fun _ _ => frees_leaveReleases _ _ _) held _))
      · rw [d_frame]
      · rw [plans]
    refine ⟨frees.register, fun i => ?_⟩
    rw [frees.links]
    refine congrArg (fun f => Option.map f _) (funext fun inc => ?_)
    have same : ∀ k, (((p.plans.get? k).any fun x => decide (x.incident = some i)) = true ∧ h.plans.get? k = none) ↔
        (k ≠ id ∧ ((p.plans.get? k).any fun y => decide (y.incident = some i ∧ after y = none)) = true) := fun k => by
      by_cases own : k = id
      · subst own
        simp [here]
      · rw [others w k own]
        cases p.plans.get? k with
        | none => simp
        | some y => simp [own]
    simp only [same]

theorem executeRule_act {b : List Byte} (id_eq : u8 b 0 = id) (hid : id < 16) (hx : p.plans.get? id = some x)
    (state : x.state = .ready) (fed : p.liveFeedIn x.area = none) (busy : p.busyValve x = none)
    (full : p.fullValve x = none) : executeRule.act b p = ⟨.accepted, [], executePlan id x p⟩ := by
  simp only [executeRule, onPlanNumbered, id_eq, hx, fed, busy, full]
  rw [if_neg (by omega), if_neg (by simp [state])]

end

theorem sameField_cancelled {p q : Part} (h : SameField p q) (id : Nat) (vs : List Nat) (f : Operation → Bool) :
    SameField (p.cancelled id vs f) (q.cancelled id vs f) := by
  have same : (vs.filter fun v => (q.op? v).any fun o => decide (o.origin = .plan id) && f o) =
      vs.filter fun v => (p.op? v).any fun o => decide (o.origin = .plan id) && f o :=
    List.filter_congr fun v _ => by rw [h.op?]
  rw [Part.cancelled, Part.cancelled, same]
  exact sameField_foldl _ (fun p q v same => sameField_cancelOp same v) _ h

/-- Settles O43: the holds and the orders by their rules, and the tests that follow them in the two cases. -/
theorem executeHoldsAndCloses : Obligations.ExecuteHoldsAndCloses := by
  unfold Obligations.ExecuteHoldsAndCloses
  refine ⟨fun tag id x s ready hid hx state once fed busy full => ?_, fun id vs p => rfl⟩
  intro p
  have hx : p.plans.get? id = some x := hx
  have act := executeRule_act (p := p) (b := [byte id]) (u8_of_byte (by omega)) hid hx state fed busy full
  have run := request_of_admitted (h := executeRule) rfl tag ready.1 rfl (decide_eq_true ready.2) act
  obtain ⟨h_frame, h_valves, entered, here, others, links⟩ := addHolders_spec hx once
  have run : exec (.execute tag [byte id]) s = .next (s.answered (dispatchDecide (afterCloses id x.closeList
    (setPlanState id .executing none ((addHolders id x p).ordered id .toClose x.closeList)))) .accepted []) := run
  generalize hh : addHolders id x p = h at *
  have works : Works h (h.ordered id .toClose x.closeList) := works_orderAll x.closeList .toClose (.plan id) h
  have orders := orderAll_op? x.closeList .toClose (.plan id)
  have ordered_eq : h.ordered id .toClose x.closeList =
    x.closeList.foldl (fun p v => orderOp v .toClose (.plan id) p) h := rfl
  generalize hr : h.ordered id .toClose x.closeList = r at *
  generalize hg : setPlanState id .executing none r = g at *
  have field : SameField r g := by
    rw [← hg]
    exact ⟨by simp, by simp, by simp, fun v => by simp⟩
  have snooped : SnoopOnly r g := hg ▸ snoopOnly_setPlanState _ _ _ _
  have g_valves : g.valves = r.valves := by rw [snooped]
  have time : r.time = p.time := by rw [works.time, h_frame]; rfl
  have g_plans : ∀ k, g.plans.get? k = (h.plans.get? k).map fun y => if k = id then { y with
      state := .executing, stateTime := p.time } else y := fun k => by
    have plans : r.plans = h.plans := by rw [works.frame]
    rw [← hg, setPlanState_get?, plans, time]
    rfl
  have now : g.plans.get? id = some { x with state := .executing, stateTime := p.time } := by
    rw [g_plans, here]; simp
  have bare : ∀ v valve, p.valves.get? v = some valve → r.bare v = some { valve with
      operation := none
      holders := if v ∈ x.closeList ++ x.holdList then valve.holders ++ [id] else valve.holders } := fun v valve hv => by
    rw [works.bare, Part.bare, h_valves, hv]
    rfl
  have undefined : ∀ v, p.valves.get? v = none → r.valves.get? v = none := fun v hv => by
    have := works.bare v
    rw [Part.bare, Part.bare, h_valves, hv] at this
    exact Option.map_eq_none_iff.mp this
  have lastEnd : ∀ v, g.lastEnd? v = p.lastEnd? v := fun v => by
    rw [Part.lastEnd?, g_valves]
    cases hv : p.valves.get? v with
    | none => rw [undefined v hv, Part.lastEnd?, hv]
    | some valve =>
      obtain ⟨y, hy, same⟩ := Option.map_eq_some_iff.mp (bare v valve hv)
      rw [hy, Part.lastEnd?, hv]
      exact (congrArg (fun z : Valve => some z.lastEnd) same :)
  have shut_iff : g.shut x.closeList ↔ p.shut x.closeList := by simp only [Part.shut, lastEnd]
  have op? : ∀ v valve, p.valves.get? v = some valve → (v ∉ x.closeList → r.op? v = valve.operation) ∧
      (v ∈ x.closeList → ∃ o, r.op? v = some o ∧ o.action = .toClose ∧ o.origin = .plan id ∧ o.ordered = p.time ∧
        o.mode = p.modeFor valve) := fun v valve hv => by
    have hy : h.valves.get? v = some { valve with
      holders := if v ∈ x.closeList ++ x.holdList then valve.holders ++ [id] else valve.holders } := by
      rw [h_valves, hv]; rfl
    obtain ⟨away, on⟩ := orders v h
    refine ⟨fun out => ?_, fun mem => ?_⟩
    · rw [ordered_eq, away out, op?_of_get? hy]
    · obtain ⟨o, ho, action, origin, at_, mode, -⟩ := on _ mem hy
      refine ⟨o, by rw [ordered_eq]; exact ho, action, origin, ?_, ?_⟩
      · rw [at_, h_frame]; rfl
      · rw [mode, Part.modeFor, Part.modeFor, Part.answers, h_frame]
        rfl
  have ordered : ∀ v ∈ x.closeList, ∀ o, g.op? v = some o → o.origin = .plan id ∧ o.action = .toClose := fun v mem o ho => by
    rw [field.op?] at ho
    cases hv : p.valves.get? v with
    | none =>
      rw [Part.op?, undefined v hv] at ho
      cases ho
    | some valve =>
      obtain ⟨o', ho', action, origin, -⟩ := (op? v valve hv).2 mem
      cases ho.symm.trans ho'
      exact ⟨origin, action⟩
  have failed : Part.failedOf g x.closeList =
      x.closeList.filter fun v => (r.op? v).any fun o => decide (o.state = .failed .comms) :=
    List.filter_congr fun v _ => by rw [field.op?]
  have spec := afterCloses_spec now rfl (by rw [← field.time] at time; exact time.symm) ordered
  dsimp only at spec
  simp only [shut_iff, failed] at spec
  generalize ha : afterCloses id x.closeList g = a at *
  obtain ⟨operates, a_bare, a_plan, a_others, safe, reg, clock, points, segments, feeds, districts, outages, trace⟩ := spec
  have a_op? : ∀ v, a.op? v = (r.op? v).map fun o =>
      if p.shut x.closeList ∧ v ∈ x.closeList ∧ o.origin = .plan id ∧ o.closePending then
        Operation.ended o (.failed .cancelled) p.time
      else o := fun v => by
    rw [operates.2.2 v]
    by_cases shut : p.shut x.closeList
    · rw [if_pos shut, cancelled_op? g id x.closeList fun o test => live_iff.mpr (.inl (of_decide_eq_true test).2),
        field.op?, field.time, time]
      refine congrArg (fun f => Option.map f _) (funext fun o => if_congr ?_ rfl rfl)
      rw [decide_eq_true_eq]
      exact ⟨fun cut => ⟨shut, cut⟩, fun cut => cut.2⟩
    · rw [if_neg shut, field.op?]
      cases r.op? v with
      | none => rfl
      | some o => rw [Option.map_some, if_neg fun cut => shut cut.1]
  refine ⟨_, run, ?_, ?_, ?_, ?_, ?_, ?_, ?_, h, h_frame, h_valves, entered, ?_, here,
    fun w k other => ⟨others w k other, ?_⟩, links, ?_⟩
  · rw [Laws.f_dispatchDecide_clock, clock, snooped, works.frame, h_frame]
  · rw [Laws.f_dispatchDecide_points, points, snooped, works.frame, h_frame]
  · rw [Laws.f_dispatchDecide_segments, segments, snooped, works.frame, h_frame]
  · rw [Laws.f_dispatchDecide_feeds, feeds, snooped, works.frame, h_frame]
  · rw [Laws.f_dispatchDecide_districts, districts, snooped, works.frame, h_frame]
  · rw [Laws.f_dispatchDecide_outages, outages, snooped, works.frame, h_frame]
  · intro v valve hv
    have a_valve : ∀ o, a.op? v = o → a.valves.get? v = some { valve with
        operation := o
        holders := if v ∈ x.closeList ++ x.holdList then valve.holders ++ [id] else valve.holders } := fun o ho => by
      refine valve_ext ?_ ?_
      · have := a_bare v
        rw [bare_of_valves g_valves, bare v valve hv] at this
        exact this
      · exact ho
    rw [Laws.f_dispatchDecide_valves]
    obtain ⟨away, on⟩ := op? v valve hv
    have kept : v ∉ x.closeList → a.op? v = valve.operation := fun out => by
      rw [a_op?, away out]
      cases valve.operation <;> simp [out]
    refine ⟨fun mem => ?_, fun mem => ?_, fun out out' => ?_⟩
    · obtain ⟨o, ho, action, origin, at_, mode⟩ := on mem
      have last := a_op? v
      rw [ho, Option.map_some] at last
      refine ⟨_, _, a_valve _ last, rfl, ?_, ?_, ?_, ?_, ?_⟩
      · split <;> exact action
      · split <;> exact origin
      · split <;> exact at_
      · split <;> exact mode
      · rw [if_pos (List.mem_append_left _ mem)]
    · have out : v ∉ x.closeList := fun listed => (List.nodup_append.mp once).2.2 v listed v mem rfl
      rw [a_valve _ (kept out), if_pos (List.mem_append_right _ mem)]
    · rw [a_valve _ (kept out), if_neg (by simp [out, out'])]
  · rw [Laws.f_dispatchDecide_trace, trace, ← hg, Laws.f_setPlanState_trace, works.frame]
  · rw [Laws.f_dispatchDecide_plans, a_others k other, g_plans]
    simp [other]
  · intro r' failed' shut'
    have r_eq : r' = r := hr
    have failed_eq : failed' = x.closeList.filter fun v => (r.op? v).any fun o => decide (o.state = .failed .comms) := by
      simp only [failed', r_eq]
    have h_time : h.time = p.time := by rw [h_frame]; rfl
    refine ⟨by rw [r_eq, hg, ha], ?_, fun shut i inc hi hinc exposed => ?_, fun open_ => ?_, ?_, ?_, fun v => ?_⟩
    · rw [Laws.f_dispatchDecide_plans, a_plan, failed_eq]
    · obtain ⟨link, found⟩ := safe shut i inc hi (by rw [snooped, works.frame]; exact hinc) exposed
      rw [Laws.f_dispatchDecide_register, found, field.time, time, h_time]
      exact ⟨link, rfl⟩
    · rw [Laws.f_dispatchDecide_register, reg open_, snooped, works.frame]
    · rw [Laws.f_dispatchDecide_lines, operates.1, r_eq]
      split
      · exact (sameField_cancelled field id _ _).lines
      · exact field.lines
    · rw [Laws.f_dispatchDecide_outstations, operates.2.1, r_eq]
      split
      · exact (sameField_cancelled field id _ _).outstations
      · exact field.outstations
    · rw [Part.op?, Laws.f_dispatchDecide_valves, ← Part.op?, operates.2.2, r_eq]
      split
      · exact (sameField_cancelled field id _ _).op? v
      · exact field.op? v

end Sys2Proof.Proofs
end


section
/-!
The tests after an event's operations (R117, R121): what they may change, and where each plan goes.
-/

namespace Sys2Proof.Proofs

open Sys2Proof Sys2Proof.Machine

/-! ## What the tests of plans may change -/

/-- An operation as it was, or, a PENDING CLOSE of a plan's, cancelled. -/
def Recast (now : Nat) (o o' : Operation) : Prop :=
  o' = o ∨ ((∃ k, o.origin = .plan k) ∧ o.closePending ∧ o' = Operation.ended o (.failed .cancelled) now)

/-- An incident as it was, or made safe; its link to a plan may have gone. -/
def MadeSafeOf (now : Nat) (i j : Incident) : Prop :=
  ∃ link, j = { i with planLink := link } ∨
    (i.exposed ∧ j = { i with state := .madeSafe, stateTime := now, nextEscalation := none, planLink := link })

/-- What the tests of plans may change: lines, sequence bits, operations by cancellation, plans, incidents by being made
safe, crews, lamps and the link. -/
structure Courses (p q : Part) : Prop where
  frame : q = { p with
    link := q.link, lines := q.lines, outstations := q.outstations, valves := q.valves, plans := q.plans
    register := q.register, dispatch := q.dispatch, panel := q.panel }
  bare : ∀ v, q.bare v = p.bare v
  comm : ∀ i, (q.outstations.get? i).map (·.comm) = (p.outstations.get? i).map (·.comm)
  op? : ∀ v, (p.op? v = none → q.op? v = none) ∧ ∀ o, p.op? v = some o → ∃ o', q.op? v = some o' ∧ Recast p.time o o'
  incident : ∀ i, (p.register.incidents.get? i = none → q.register.incidents.get? i = none) ∧
    ∀ j, p.register.incidents.get? i = some j → ∃ j', q.register.incidents.get? i = some j' ∧ MadeSafeOf p.time j j'

section
variable {p q r : Part}

theorem recast_refl (now : Nat) (o : Operation) : Recast now o o := .inl rfl

theorem Recast.trans {now : Nat} {a b c : Operation} (h : Recast now a b) (k : Recast now b c) : Recast now a c := by
  rcases h with rfl | ⟨origin, closing, rfl⟩
  · exact k
  · rcases k with rfl | ⟨-, closing', -⟩
    · exact .inr ⟨origin, closing, rfl⟩
    · cases closing'.2

theorem madeSafeOf_refl (now : Nat) (i : Incident) : MadeSafeOf now i i := ⟨i.planLink, .inl rfl⟩

theorem MadeSafeOf.trans {now : Nat} {a b c : Incident} (h : MadeSafeOf now a b) (k : MadeSafeOf now b c) : MadeSafeOf now a c := by
  obtain ⟨link', k⟩ := k
  obtain ⟨link, rfl | ⟨exposed, rfl⟩⟩ := h
  · rcases k with rfl | ⟨exposed, rfl⟩
    · exact ⟨link', .inl rfl⟩
    · exact ⟨link', .inr ⟨exposed, rfl⟩⟩
  · rcases k with rfl | ⟨exposed', rfl⟩
    · exact ⟨link', .inr ⟨exposed, rfl⟩⟩
    · exact ⟨link', .inr ⟨exposed, rfl⟩⟩

theorem Courses.time (h : Courses p q) : q.time = p.time := by rw [h.frame]; rfl

theorem Courses.trans (h : Courses p q) (k : Courses q r) : Courses p r := by
  refine ⟨?_, fun v => (k.bare v).trans (h.bare v), fun i => (k.comm i).trans (h.comm i), fun v => ⟨fun none_ =>
    (k.op? v).1 ((h.op? v).1 none_), fun o ho => ?_⟩, fun i => ⟨fun none_ =>
    (k.incident i).1 ((h.incident i).1 none_), fun j hj => ?_⟩⟩
  · have := k.frame
    rw [h.frame] at this
    exact this
  · obtain ⟨o', ho', first⟩ := (h.op? v).2 o ho
    obtain ⟨o'', ho'', second⟩ := (k.op? v).2 o' ho'
    rw [h.time] at second
    exact ⟨o'', ho'', first.trans second⟩
  · obtain ⟨j', hj', first⟩ := (h.incident i).2 j hj
    obtain ⟨j'', hj'', second⟩ := (k.incident i).2 j' hj'
    rw [h.time] at second
    exact ⟨j'', hj'', first.trans second⟩

/-- Steps that leave the operations and the incidents. -/
theorem courses_of_eq (frame : q = { p with
      link := q.link, lines := q.lines, outstations := q.outstations, valves := q.valves, plans := q.plans
      register := q.register, dispatch := q.dispatch, panel := q.panel })
    (valves : q.valves = p.valves) (comm : q.outstations = p.outstations)
    (register : q.register.incidents = p.register.incidents) : Courses p q :=
  ⟨frame, bare_of_valves valves, fun i => by rw [comm], fun v => by
    have same : q.op? v = p.op? v := by rw [Part.op?, Part.op?, valves]
    exact ⟨fun none_ => same.trans none_, fun o ho => ⟨o, same.trans ho, recast_refl _ o⟩⟩, fun i => by
    rw [register]
    exact ⟨fun h => h, fun j hj => ⟨j, hj, madeSafeOf_refl _ j⟩⟩⟩

theorem Courses.refl (p : Part) : Courses p p := courses_of_eq rfl rfl rfl rfl

theorem courses_foldl {α : Type} (f : Part → α → Part) (hf : ∀ q a, Courses q (f q a)) (as : List α) (p : Part) :
    Courses p (as.foldl f p) := by
  induction as generalizing p with
  | nil => exact .refl p
  | cons a as ih => exact (hf p a).trans (ih _)

theorem courses_setPlanState (id : Nat) (new : PlanState) (valve : Option Nat) (p : Part) :
    Courses p (setPlanState id new valve p) :=
  courses_of_eq (by unfold setPlanState; split <;> rfl) (by simp) (by simp) (by simp)

theorem courses_breakTest (id v : Nat) (p : Part) : Courses p (breakTest id v p) := by
  unfold breakTest
  split
  · exact .refl p
  · split
    · exact courses_setPlanState _ _ _ p
    · exact .refl p

theorem courses_failureTest (id : Nat) (t : Touched) (p : Part) : Courses p (failureTest id t p) := by
  unfold failureTest
  split
  · split
    · exact courses_setPlanState _ _ _ p
    · exact .refl p
  · exact .refl p

theorem courses_cancelPending (id : Nat) (p : Part) : Courses p (cancelPending id p) := by
  cases h : p.plans.get? id with
  | none =>
    have same : cancelPending id p = p := by simp only [cancelPending, h]
    rw [same]; exact .refl p
  | some x =>
    by_cases isolates : p.isolates x = true
    · rw [cancelPending_isolates h isolates]
      have works := cancelled_works p id x.closeList fun o => decide o.closePending
      have op? := cancelled_op? p id x.closeList (f := fun o => decide o.closePending) fun o test =>
        live_iff.mpr (.inl (of_decide_eq_true test).2)
      generalize p.cancelled id x.closeList (fun o => decide o.closePending) = c at *
      refine ⟨?_, works.bare, works.comm, fun v => ⟨fun none_ => by rw [op?, none_]; rfl, fun o ho => ?_⟩, fun i => ?_⟩
      · have := works.frame
        rw [this]
      · rw [op?, ho, Option.map_some]
        refine ⟨_, rfl, ?_⟩
        split
        next cut => exact .inr ⟨⟨id, cut.2.1⟩, of_decide_eq_true cut.2.2, rfl⟩
        · exact .inl rfl
      · rw [show c.register = p.register by rw [works.frame]]
        exact ⟨fun h => h, fun j hj => ⟨j, hj, madeSafeOf_refl _ j⟩⟩
    · rw [cancelPending_stays h isolates]
      exact .refl p

theorem makeSafe_incidents {i : Nat} {inc : Incident} (h : p.register.incidents.get? i = some inc) (cause : IncidentCause)
    (k : Nat) : (makeSafe i cause p).register.incidents.get? k =
      if k = i then some { inc with state := .madeSafe, stateTime := p.time, nextEscalation := none }
      else p.register.incidents.get? k := by
  have written : (setIncidentState i .madeSafe cause p).register.incidents =
      p.register.incidents.set i { inc with state := .madeSafe, stateTime := p.time, nextEscalation := none } := by
    rw [setIncidentState_of_get? h, Laws.place_register, putIncident, Laws.refreshLamps_register]
    rfl
  have same : (makeSafe i cause p).register.incidents =
      p.register.incidents.set i { inc with state := .madeSafe, stateTime := p.time, nextEscalation := none } := by
    rw [makeSafe_of_get? h]
    split
    · rw [Laws.f_endJob_register, written]
    · exact written
  rw [same, get?_set]

theorem makeSafe_frame (i : Nat) (cause : IncidentCause) (p : Part) : makeSafe i cause p = { p with
    link := (makeSafe i cause p).link, register := (makeSafe i cause p).register
    dispatch := (makeSafe i cause p).dispatch, panel := (makeSafe i cause p).panel } := by
  have state : setIncidentState i .madeSafe cause p = { p with
      link := (setIncidentState i .madeSafe cause p).link, register := (setIncidentState i .madeSafe cause p).register
      dispatch := (setIncidentState i .madeSafe cause p).dispatch, panel := (setIncidentState i .madeSafe cause p).panel } := by
    unfold setIncidentState
    split <;> rfl
  unfold makeSafe
  split
  · rfl
  · dsimp only
    split
    · rw [endJob_frame, state]
    · exact state

theorem courses_enterIsolated (id : Nat) (p : Part) : Courses p (enterIsolated id p) := by
  unfold enterIsolated
  split
  · exact .refl p
  · dsimp only
    have gone := courses_setPlanState id .isolated none p
    split
    next i inc named =>
      split
      next exposed =>
        refine gone.trans ?_
        obtain ⟨i', -, found⟩ := Option.bind_eq_some_iff.mp named
        obtain ⟨inc', hinc', same⟩ := Option.map_eq_some_iff.mp found
        obtain ⟨rfl, rfl⟩ := Prod.mk.inj same
        have safe := makeSafe_incidents hinc' .plan
        have open_ : inc'.exposed := by simpa [Incident.exposed, or_assoc] using exposed
        have frame := makeSafe_frame i' .plan (setPlanState id .isolated none p)
        refine ⟨?_, bare_of_valves (by simp), fun i => by simp, fun v => ?_, fun k => ?_⟩
        · rw [frame]
        · have same : (makeSafe i' .plan (setPlanState id .isolated none p)).op? v =
              (setPlanState id .isolated none p).op? v := by rw [Part.op?, Part.op?, Laws.f_makeSafe_valves]
          exact ⟨fun none_ => same.trans none_, fun o ho => ⟨o, same.trans ho, recast_refl _ o⟩⟩
        · rw [safe]
          refine ⟨fun none_ => ?_, fun j hj => ?_⟩
          · rw [if_neg fun here => ?_]
            · exact none_
            · subst here
              cases hinc'.symm.trans none_
          · by_cases here : k = i'
            · subst here
              cases hinc'.symm.trans hj
              exact ⟨_, if_pos rfl, _, .inr ⟨open_, rfl⟩⟩
            · exact ⟨j, (if_neg here).trans hj, madeSafeOf_refl _ j⟩
      · exact gone
    · exact gone

theorem courses_isolationTest (id : Nat) (p : Part) : Courses p (isolationTest id p) := by
  unfold isolationTest
  split
  · exact .refl p
  · split
    · exact courses_enterIsolated id p
    · exact .refl p

theorem courses_testPlan (id : Nat) (t : Touched) (p : Part) : Courses p (testPlan id t p) :=
  (((courses_breakTest id t.valve p).trans (courses_cancelPending id _)).trans (courses_failureTest id t _)).trans
    (courses_isolationTest id _)

theorem courses_leaveReleaseOf (id v : Nat) (p : Part) : Courses p (leaveReleaseOf id v p) := by
  have frees := frees_leaveReleaseOf id v p
  have frame : leaveReleaseOf id v p = { p with
      link := (leaveReleaseOf id v p).link, plans := (leaveReleaseOf id v p).plans
      register := (leaveReleaseOf id v p).register, panel := (leaveReleaseOf id v p).panel } := by
    have freed : ∀ q : Part, freePlan id q = { q with
        link := (freePlan id q).link, plans := (freePlan id q).plans, register := (freePlan id q).register
        panel := (freePlan id q).panel } := fun q => by
      unfold freePlan
      split
      · rfl
      · dsimp only
        split
        · split <;> rfl
        · rfl
    unfold leaveReleaseOf
    split
    · rfl
    · split
      · dsimp only
        split
        · exact freed _
        · rfl
      · rfl
  refine ⟨by rw [frame], bare_of_valves (by rw [frame]), fun i => by rw [frame], fun v => ?_, fun i => ?_⟩
  · rw [frame]
    exact ⟨fun none_ => none_, fun o ho => ⟨o, ho, recast_refl _ o⟩⟩
  · rw [frees.links]
    exact ⟨fun none_ => by rw [none_]; rfl, fun j hj => ⟨_, by rw [hj]; rfl, _, .inl rfl⟩⟩

theorem courses_courseOf (t : Touched) (p : Part) : Courses p (courseOf t p) := by
  unfold courseOf
  dsimp only
  refine Courses.trans ?_ (courses_foldl _ (fun _ _ => courses_testPlan _ _ _) _ _)
  split
  · split
    · exact courses_leaveReleaseOf _ _ p
    · exact .refl p
  · exact .refl p

theorem courses_planCourse (ts : List Touched) (p : Part) : Courses p (planCourse ts p) :=
  courses_foldl _ (fun _ _ => courses_courseOf _ _) ts p

end

end Sys2Proof.Proofs
end


section
/-!
Where the tests after one valve take each plan, and which operations they cancel (R117, R121).
-/

namespace Sys2Proof.Proofs

open Sys2Proof Sys2Proof.Machine

/-! ## One plan's tests -/

/-- The failure test of R117 finds for a plan. -/
def failsPlan (p : Part) (t : Touched) (id : Nat) (x : Plan) : Bool :=
  t.failed && x.state = .executing && (p.op? t.valve).any fun o =>
    decide (o.origin = .plan id ∧ o.action = .toClose ∧ o.state ≠ .failed .cancelled)

/-- A plan after its tests, one of its close-list valves having been touched (R117). -/
def testedPlan (p : Part) (t : Touched) (id : Nat) (x : Plan) : Plan :=
  if x.state = .isolated ∧ p.lastEnd? t.valve = some .opened then
    { x with state := .blocked, stateTime := p.time, blocking := some t.valve }
  else if (x.state = .executing ∨ x.state = .blocked) ∧ p.shut x.closeList then
    { x with state := .isolated, stateTime := p.time, blocking := if failsPlan p t id x then some t.valve else x.blocking }
  else if failsPlan p t id x then { x with state := .blocked, stateTime := p.time, blocking := some t.valve }
  else x

section
variable {p q : Part} {id k v : Nat} {t : Touched} {x : Plan}

theorem breakTest_breaks (h : p.plans.get? id = some x) (isolated : x.state = .isolated)
    (opened : p.lastEnd? v = some .opened) : breakTest id v p = setPlanState id .blocked (some v) p := by
  simp only [breakTest, h]
  exact if_pos (by simp [isolated, opened])

theorem breakTest_stays (h : p.plans.get? id = some x)
    (stays : ¬(x.state = .isolated ∧ p.lastEnd? v = some .opened)) : breakTest id v p = p := by
  simp only [breakTest, h]
  exact if_neg (by simpa using stays)

theorem failureTest_eq (h : p.plans.get? id = some x) : failureTest id t p =
    if failsPlan p t id x then setPlanState id .blocked (some t.valve) p else p := by
  obtain ⟨v, failed⟩ := t
  cases failed with
  | false => rw [failureTest_unfailed]; rfl
  | true =>
    by_cases fails : x.state = .executing ∧ ∃ o, p.op? v = some o ∧ Operation.blocks o id
    · obtain ⟨executing, o, ho, blocks⟩ := fails
      rw [failureTest_blocks h executing ho blocks, if_pos]
      simp only [failsPlan, ho, Option.any_some, executing]
      simpa [Operation.blocks] using blocks
    · rw [failureTest_stays h fails, if_neg]
      intro test
      simp only [failsPlan, Bool.and_eq_true, decide_eq_true_eq, Bool.true_and] at test
      obtain ⟨o, ho, blocks⟩ := (Option.any_eq_true _ _).mp test.2
      have blocks : o.origin = .plan id ∧ o.action = .toClose ∧ o.state ≠ .failed .cancelled := of_decide_eq_true blocks
      exact fails ⟨test.1, o, ho, blocks⟩

theorem cancelPending_plans (id : Nat) (p : Part) : (cancelPending id p).plans = p.plans := by
  cases h : p.plans.get? id with
  | none => simp only [cancelPending, h]
  | some x =>
    by_cases isolates : p.isolates x = true
    · rw [cancelPending_isolates h isolates, (cancelled_works p id _ _).frame]
    · rw [cancelPending_stays h isolates]

theorem setPlanState_other (other : k ≠ id) (new : PlanState) (valve : Option Nat) (p : Part) :
    (setPlanState id new valve p).plans.get? k = p.plans.get? k := by
  rw [setPlanState_get?]
  simp [other]

theorem testPlan_other (other : k ≠ id) (t : Touched) (p : Part) : (testPlan id t p).plans.get? k = p.plans.get? k := by
  have first : ∀ r : Part, (isolationTest id r).plans.get? k = r.plans.get? k := fun r => by
    cases h : r.plans.get? id with
    | none =>
      have same : isolationTest id r = r := by simp only [isolationTest, h]
      rw [same]
    | some x =>
      by_cases isolates : r.isolates x = true
      · rw [isolationTest_isolates h isolates, (enterIsolated_spec h).2.2.2.1]
        simp [other]
      · rw [isolationTest_stays h isolates]
  have second : ∀ r : Part, (failureTest id t r).plans.get? k = r.plans.get? k := fun r => by
    unfold failureTest
    split
    · split
      · exact setPlanState_other other _ _ r
      · rfl
    · rfl
  have third : (breakTest id t.valve p).plans.get? k = p.plans.get? k := by
    unfold breakTest
    split
    · rfl
    · split
      · exact setPlanState_other other _ _ p
      · rfl
  rw [testPlan, first, second, cancelPending_plans, third]

theorem shut_of_bare {vs : List Nat} (h : ∀ v, q.bare v = p.bare v) : q.shut vs ↔ p.shut vs := by
  simp only [Part.shut, fun v => lastEnd?_of_bare (h v)]

/-- An event's failed operation has failed by the time of the tests: none is still PENDING. -/
def settledTouch (t : Touched) (p : Part) : Prop := t.failed = true → ∀ o, p.op? t.valve = some o → o.state ≠ .pending

theorem settledTouch_of_courses (h : Courses p q) (settled : settledTouch t p) : settledTouch t q := by
  intro failed o' ho'
  cases ho : p.op? t.valve with
  | none => rw [(h.op? _).1 ho] at ho'; cases ho'
  | some o =>
    obtain ⟨o'', ho'', recast⟩ := (h.op? _).2 o ho
    cases ho'.symm.trans ho''
    rcases recast with rfl | ⟨-, closing, -⟩
    · exact settled failed _ ho
    · exact absurd closing.2 (settled failed o ho)

theorem failsPlan_of_courses (h : Courses p q) (settled : settledTouch t p) (id : Nat) (x : Plan) :
    failsPlan q t id x = failsPlan p t id x := by
  unfold failsPlan
  cases failed : t.failed with
  | false => rfl
  | true =>
    cases ho : p.op? t.valve with
    | none => rw [(h.op? _).1 ho]
    | some o =>
      obtain ⟨o', ho', recast⟩ := (h.op? _).2 o ho
      rcases recast with rfl | ⟨-, closing, -⟩
      · rw [ho']
      · exact absurd closing.2 (settled failed o ho)

/-- Where its tests take a plan with the touched valve on its close list (R117). -/
theorem testPlan_plan (h : p.plans.get? id = some x) (mem : t.valve ∈ x.closeList) (settled : settledTouch t p) :
    (testPlan id t p).plans.get? id = some (testedPlan p t id x) := by
  unfold testPlan testedPlan
  by_cases breaks : x.state = .isolated ∧ p.lastEnd? t.valve = some .opened
  · have now : (setPlanState id .blocked (some t.valve) p).plans.get? id =
        some { x with state := .blocked, stateTime := p.time, blocking := some t.valve } := by
      rw [setPlanState_get?, h]; simp
    have apart : ¬(setPlanState id .blocked (some t.valve) p).isolates
        { x with state := .blocked, stateTime := p.time, blocking := some t.valve } = true := fun isolates => by
      have closed := (isolates_iff.mp isolates).2 t.valve mem
      rw [lastEnd?_of_bare (p := p) (bare_of_valves (by simp) t.valve), breaks.2] at closed
      cases closed
    rw [breakTest_breaks h breaks.1 breaks.2, cancelPending_stays now apart, failureTest_eq now, if_neg (by
      simp [failsPlan]), isolationTest_stays now apart, now, if_pos breaks]
  · rw [breakTest_stays h breaks, if_neg breaks]
    by_cases isolates : p.isolates x = true
    · have course := courses_cancelPending id p
      have plan : (cancelPending id p).plans.get? id = some x := by rw [cancelPending_plans]; exact h
      rw [failureTest_eq plan, failsPlan_of_courses course settled, if_pos (isolates_iff.mp isolates)]
      have shut := (isolates_iff.mp isolates).2
      have shut' := (shut_of_bare course.bare).mpr shut
      by_cases fails : failsPlan p t id x = true
      · have now : (setPlanState id .blocked (some t.valve) (cancelPending id p)).plans.get? id =
            some { x with state := .blocked, stateTime := p.time, blocking := some t.valve } := by
          rw [setPlanState_get?, plan, course.time]; simp
        have again : (setPlanState id .blocked (some t.valve) (cancelPending id p)).isolates
            { x with state := .blocked, stateTime := p.time, blocking := some t.valve } = true :=
          isolates_iff.mpr ⟨.inr rfl, (shut_of_bare (bare_of_valves (by simp))).mpr shut'⟩
        rw [if_pos fails, isolationTest_isolates now again, (enterIsolated_spec now).2.2.2.1, now, if_pos fails,
          setPlanState_time, course.time]
        simp
      · have again : (cancelPending id p).isolates x = true := isolates_iff.mpr ⟨(isolates_iff.mp isolates).1, shut'⟩
        rw [if_neg fails, isolationTest_isolates plan again, (enterIsolated_spec plan).2.2.2.1, plan, if_neg fails,
          course.time]
        simp
    · rw [cancelPending_stays h isolates, failureTest_eq h, if_neg fun both => isolates (isolates_iff.mpr both)]
      by_cases fails : failsPlan p t id x = true
      · have executing : x.state = .executing := by
          simp only [failsPlan, Bool.and_eq_true, decide_eq_true_eq] at fails
          exact fails.1.2
        have now : (setPlanState id .blocked (some t.valve) p).plans.get? id =
            some { x with state := .blocked, stateTime := p.time, blocking := some t.valve } := by
          rw [setPlanState_get?, h]; simp
        rw [if_pos fails, if_pos fails, isolationTest_stays now, now]
        intro again
        exact isolates (isolates_iff.mpr ⟨.inl executing,
          (shut_of_bare (bare_of_valves (by simp))).mp (isolates_iff.mp again).2⟩)
      · rw [if_neg fails, if_neg fails, isolationTest_stays h isolates, h]

theorem testedPlan_closeList (p : Part) (t : Touched) (id : Nat) (x : Plan) :
    (testedPlan p t id x).closeList = x.closeList ∧ (testedPlan p t id x).incident = x.incident := by
  unfold testedPlan
  split
  · exact ⟨rfl, rfl⟩
  · split
    · exact ⟨rfl, rfl⟩
    · split <;> exact ⟨rfl, rfl⟩

theorem testedPlan_congr (h : Courses p q) (settled : settledTouch t p) (id : Nat) (x : Plan) :
    testedPlan q t id x = testedPlan p t id x := by
  simp only [testedPlan, lastEnd?_of_bare (h.bare _), shut_of_bare h.bare, failsPlan_of_courses h settled, h.time]

/-- A plan that has been tested stays as it is at another test. -/
theorem testedPlan_twice (mem : t.valve ∈ x.closeList) : testedPlan p t id (testedPlan p t id x) = testedPlan p t id x := by
  have apart : p.lastEnd? t.valve = some .opened → ¬p.shut x.closeList := fun opened shut => by
    have := shut _ mem
    rw [opened] at this
    cases this
  have blocked : ∀ y : Plan, y.state = .blocked → y.closeList = x.closeList → ¬p.shut x.closeList →
      testedPlan p t id y = y := fun y state list open_ => by
    rw [testedPlan, if_neg (by simp [state]), if_neg (by rw [list]; exact fun both => open_ both.2),
      if_neg (by simp [failsPlan, state])]
  by_cases breaks : x.state = .isolated ∧ p.lastEnd? t.valve = some .opened
  · rw [testedPlan.eq_1 p t id x, if_pos breaks]
    exact blocked _ rfl rfl (apart breaks.2)
  · by_cases isolates : (x.state = .executing ∨ x.state = .blocked) ∧ p.shut x.closeList
    · rw [testedPlan.eq_1 p t id x, if_neg breaks, if_pos isolates, testedPlan, if_neg, if_neg, if_neg]
      · simp [failsPlan]
      · simp
      · exact fun both => apart both.2 isolates.2
    · by_cases fails : failsPlan p t id x = true
      · have executing : x.state = .executing := by
          simp only [failsPlan, Bool.and_eq_true, decide_eq_true_eq] at fails
          exact fails.1.2
        rw [testedPlan.eq_1 p t id x, if_neg breaks, if_neg isolates, if_pos fails]
        exact blocked _ rfl rfl fun shut => isolates ⟨.inl executing, shut⟩
      · have same : testedPlan p t id x = x := by
          rw [testedPlan, if_neg breaks, if_neg isolates, if_neg fails]
        rw [same, same]

/-- Where the tests of some plans take one with the touched valve on its close list. -/
theorem testPlans_plan (ids : List Nat) (h : p.plans.get? k = some x) (mem : t.valve ∈ x.closeList)
    (settled : settledTouch t p) : (ids.foldl (fun p id => testPlan id t p) p).plans.get? k =
      some (if k ∈ ids then testedPlan p t k x else x) := by
  induction ids generalizing p x with
  | nil => simpa using h
  | cons id rest ih =>
    have course := courses_testPlan id t p
    rw [List.foldl_cons]
    by_cases here : k = id
    · subst here
      have now := testPlan_plan h mem settled
      have list := (testedPlan_closeList p t k x).1
      rw [ih now (list ▸ mem) (settledTouch_of_courses course settled), if_pos List.mem_cons_self]
      split
      · rw [testedPlan_congr course settled, testedPlan_twice mem]
      · rfl
    · have now := (testPlan_other here t p).trans h
      rw [ih now mem (settledTouch_of_courses course settled), testedPlan_congr course settled]
      simp [here]

theorem testPlans_other {ids : List Nat} (out : k ∉ ids) (t : Touched) (p : Part) :
    (ids.foldl (fun p id => testPlan id t p) p).plans.get? k = p.plans.get? k := by
  induction ids generalizing p with
  | nil => rfl
  | cons id rest ih =>
    obtain ⟨other, out⟩ := not_or.mp fun h => out (List.mem_cons.mpr h)
    rw [List.foldl_cons, ih out, testPlan_other other]

end

end Sys2Proof.Proofs
end


section
/-!
The operations that the tests after one valve cancel, and the incidents that they make safe (R117, R121).
-/

namespace Sys2Proof.Proofs

open Sys2Proof Sys2Proof.Machine

section
variable {p q : Part} {id k u v : Nat} {t : Touched} {x : Plan} {o : Operation}

theorem isolationTest_valves (id : Nat) (p : Part) : (isolationTest id p).valves = p.valves := by
  cases h : p.plans.get? id with
  | none => simp only [isolationTest, h]
  | some x =>
    by_cases isolates : p.isolates x = true
    · rw [isolationTest_isolates h isolates, (enterIsolated_spec h).2.2.1]
    · rw [isolationTest_stays h isolates]

theorem failureTest_valves (id : Nat) (t : Touched) (p : Part) : (failureTest id t p).valves = p.valves := by
  unfold failureTest
  split
  · split
    · simp
    · rfl
  · rfl

theorem breakTest_valves (id v : Nat) (p : Part) : (breakTest id v p).valves = p.valves := by
  unfold breakTest
  split
  · rfl
  · split
    · simp
    · rfl

theorem op?_of_valves (h : q.valves = p.valves) (u : Nat) : q.op? u = p.op? u := by rw [Part.op?, Part.op?, h]

/-- An operation that its plan's isolation cancels (R117). -/
def cutBy (p : Part) (id : Nat) (x : Plan) (u : Nat) (o : Operation) : Prop :=
  p.isolates x = true ∧ u ∈ x.closeList ∧ o.origin = .plan id ∧ o.closePending

theorem cancelPending_op? (h : p.plans.get? id = some x) (ho : p.op? u = some o) :
    (cutBy p id x u o → (cancelPending id p).op? u = some (Operation.ended o (.failed .cancelled) p.time)) ∧
    (¬cutBy p id x u o → (cancelPending id p).op? u = some o) := by
  have spec := cancelled_op? p id x.closeList (f := fun o => decide o.closePending) (fun o test =>
    live_iff.mpr (.inl (of_decide_eq_true test).2)) u
  rw [ho, Option.map_some] at spec
  refine ⟨fun ⟨isolates, mem, origin, closing⟩ => ?_, fun stays => ?_⟩
  · rw [cancelPending_isolates h isolates, spec, if_pos ⟨mem, origin, decide_eq_true closing⟩]
  · by_cases isolates : p.isolates x = true
    · rw [cancelPending_isolates h isolates, spec, if_neg]
      exact fun ⟨mem, origin, closing⟩ => stays ⟨isolates, mem, origin, of_decide_eq_true closing⟩
    · rw [cancelPending_stays h isolates, ho]

/-- What a plan's tests make of an operation. -/
theorem testPlan_op? (h : p.plans.get? id = some x) (mem : t.valve ∈ x.closeList) (ho : p.op? u = some o) :
    (cutBy p id x u o → (testPlan id t p).op? u = some (Operation.ended o (.failed .cancelled) p.time)) ∧
    (¬cutBy p id x u o → (testPlan id t p).op? u = some o) := by
  have same : (testPlan id t p).op? u = (cancelPending id (breakTest id t.valve p)).op? u :=
    op?_of_valves (by rw [testPlan, isolationTest_valves, failureTest_valves]) u
  rw [same]
  by_cases breaks : x.state = .isolated ∧ p.lastEnd? t.valve = some .opened
  · have now : (setPlanState id .blocked (some t.valve) p).plans.get? id =
        some { x with state := .blocked, stateTime := p.time, blocking := some t.valve } := by
      rw [setPlanState_get?, h]; simp
    have apart : ¬(setPlanState id .blocked (some t.valve) p).isolates
        { x with state := .blocked, stateTime := p.time, blocking := some t.valve } = true := fun isolates => by
      have closed := (isolates_iff.mp isolates).2 t.valve mem
      rw [lastEnd?_of_bare (p := p) (bare_of_valves (by simp) t.valve), breaks.2] at closed
      cases closed
    rw [breakTest_breaks h breaks.1 breaks.2, cancelPending_stays now apart]
    have keeps : (setPlanState id .blocked (some t.valve) p).op? u = some o := (op?_of_valves (by simp) u).trans ho
    refine ⟨fun cut => ?_, fun _ => keeps⟩
    have := (isolates_iff.mp cut.1).1
    rw [breaks.1] at this
    simp at this
  · rw [breakTest_stays h breaks]
    exact cancelPending_op? h ho

theorem cutBy_congr (course : Courses p q) : cutBy q id x u o ↔ cutBy p id x u o := by
  unfold cutBy
  rw [isolates_iff, isolates_iff, shut_of_bare course.bare]

/-- What the tests of some plans, each with the touched valve on its close list, make of an operation. -/
theorem testPlans_op? {ids : List Nat} (once : ids.Nodup)
    (listed : ∀ id ∈ ids, ∃ x, p.plans.get? id = some x ∧ t.valve ∈ x.closeList) (ho : p.op? u = some o) :
    (∀ id x, id ∈ ids → p.plans.get? id = some x → cutBy p id x u o →
      (ids.foldl (fun p id => testPlan id t p) p).op? u = some (Operation.ended o (.failed .cancelled) p.time)) ∧
    ((∀ id x, id ∈ ids → p.plans.get? id = some x → ¬cutBy p id x u o) →
      (ids.foldl (fun p id => testPlan id t p) p).op? u = some o) := by
  induction ids generalizing p o with
  | nil => exact ⟨fun id x mem => absurd mem List.not_mem_nil, fun _ => ho⟩
  | cons id rest ih =>
    obtain ⟨fresh, once⟩ := List.nodup_cons.mp once
    obtain ⟨x, hx, mem⟩ := listed id List.mem_cons_self
    obtain ⟨cut, stays⟩ := testPlan_op? hx mem ho
    have course := courses_testPlan id t p
    have apart : ∀ k ∈ rest, (testPlan id t p).plans.get? k = p.plans.get? k := fun k hk =>
      testPlan_other (fun same : k = id => fresh (same ▸ hk)) t p
    have listed' : ∀ k ∈ rest, ∃ y, (testPlan id t p).plans.get? k = some y ∧ t.valve ∈ y.closeList := fun k hk => by
      rw [apart k hk]
      exact listed k (List.mem_cons_of_mem _ hk)
    rw [List.foldl_cons]
    by_cases first : cutBy p id x u o
    · obtain ⟨-, kept⟩ := ih once listed' (cut first)
      have last := kept fun k y _ _ both => by
        have := both.2.2.2.2
        cases this
      exact ⟨fun _ _ _ _ _ => last, fun none_ => absurd first (none_ id x List.mem_cons_self hx)⟩
    · obtain ⟨later, kept⟩ := ih once listed' (stays first)
      rw [course.time] at later
      refine ⟨fun k y hk hy both => ?_, fun none_ => kept fun k y hk hy both => ?_⟩
      · rcases List.mem_cons.mp hk with rfl | hk
        · cases hx.symm.trans hy
          exact absurd both first
        · exact later k y hk ((apart k hk).trans hy) ((cutBy_congr course).mpr both)
      · exact none_ k y (List.mem_cons_of_mem _ hk) ((apart k hk).symm.trans hy) ((cutBy_congr course).mp both)

/-! ## Incidents made safe -/

/-- An incident made safe at some time, whatever its link to a plan. -/
def SafeFrom (now : Nat) (inc j : Incident) : Prop :=
  ∃ link, j = { inc with state := .madeSafe, stateTime := now, nextEscalation := none, planLink := link }

theorem SafeFrom.later {now : Nat} {a b c : Incident} (h : SafeFrom now a b) (k : MadeSafeOf now b c) : SafeFrom now a c := by
  obtain ⟨_, rfl⟩ := h
  obtain ⟨link, rfl | ⟨exposed, rfl⟩⟩ := k
  · exact ⟨link, rfl⟩
  · simp [Incident.exposed] at exposed

theorem SafeFrom.earlier {now : Nat} {a b c : Incident} (h : MadeSafeOf now a b) (k : SafeFrom now b c) : SafeFrom now a c := by
  obtain ⟨link', rfl⟩ := k
  obtain ⟨link, rfl | ⟨exposed, rfl⟩⟩ := h <;> exact ⟨link', rfl⟩

theorem exposed_of_madeSafeOf {now : Nat} {a b : Incident} (h : MadeSafeOf now a b) (exposed : a.exposed) :
    b.exposed ∨ SafeFrom now a b := by
  obtain ⟨link, rfl | ⟨-, rfl⟩⟩ := h
  · exact .inl exposed
  · exact .inr ⟨link, rfl⟩

/-- A plan that its tests take to ISOLATED makes its incident safe (R117). -/
theorem testPlan_safe {i : Nat} {inc : Incident} (h : p.plans.get? id = some x) (isolates : p.isolates x = true)
    (hi : x.incident = some i) (hinc : p.register.incidents.get? i = some inc) (exposed : inc.exposed) :
    ∃ j, (testPlan id t p).register.incidents.get? i = some j ∧ SafeFrom p.time inc j := by
  have stays : ¬(x.state = .isolated ∧ p.lastEnd? t.valve = some .opened) := fun breaks => by
    have := (isolates_iff.mp isolates).1
    rw [breaks.1] at this
    simp at this
  rw [testPlan, breakTest_stays h stays]
  have before := (courses_cancelPending id p).trans (courses_failureTest id t _)
  have plan : (cancelPending id p).plans.get? id = some x := by rw [cancelPending_plans]; exact h
  obtain ⟨y, hy, state, list, incident⟩ : ∃ y, (failureTest id t (cancelPending id p)).plans.get? id = some y ∧
      (y.state = .executing ∨ y.state = .blocked) ∧ y.closeList = x.closeList ∧ y.incident = x.incident := by
    rw [failureTest_eq plan]
    split
    · exact ⟨_, by rw [setPlanState_get?, plan]; rfl, by simp, by simp, by simp⟩
    · exact ⟨x, plan, (isolates_iff.mp isolates).1, rfl, rfl⟩
  have again : (failureTest id t (cancelPending id p)).isolates y = true :=
    isolates_iff.mpr ⟨state, by rw [list]; exact (shut_of_bare before.bare).mpr (isolates_iff.mp isolates).2⟩
  have same : (failureTest id t (cancelPending id p)).register = p.register := by
    rw [failureTest_eq plan]
    have reg : (cancelPending id p).register = p.register := by
      rw [cancelPending_isolates h isolates, (cancelled_works p id _ _).frame]
    split
    · rw [Laws.f_setPlanState_register, reg]
    · exact reg
  rw [isolationTest_isolates hy again]
  have safe := (enterIsolated_spec hy).2.2.2.2 i inc (incident.trans hi) (by rw [same]; exact hinc) exposed
  rw [before.time] at safe
  exact ⟨_, safe, inc.planLink, rfl⟩

/-- One of some tested plans goes ISOLATED: its incident has been made safe after all of them. -/
theorem testPlans_safe {ids : List Nat} {i : Nat} {inc : Incident} (mem : id ∈ ids) (h : p.plans.get? id = some x)
    (isolates : p.isolates x = true) (hi : x.incident = some i) (hinc : p.register.incidents.get? i = some inc)
    (exposed : inc.exposed) :
    ∃ j, (ids.foldl (fun p id => testPlan id t p) p).register.incidents.get? i = some j ∧ SafeFrom p.time inc j := by
  induction ids generalizing p inc with
  | nil => cases mem
  | cons n rest ih =>
    have course := courses_testPlan n t p
    have after := courses_foldl _ (fun q id => courses_testPlan id t q) rest (testPlan n t p)
    rw [List.foldl_cons]
    by_cases here : id = n
    · subst here
      obtain ⟨j, hj, safe⟩ := testPlan_safe (t := t) h isolates hi hinc exposed
      obtain ⟨j', hj', later⟩ := (after.incident i).2 j hj
      rw [course.time] at later
      exact ⟨j', hj', safe.later later⟩
    · obtain ⟨j, hj, made⟩ := (course.incident i).2 inc hinc
      rcases exposed_of_madeSafeOf made exposed with open_ | safe
      · obtain ⟨j', hj', safe⟩ := ih ((List.mem_cons.mp mem).resolve_left here) ((testPlan_other here t p).trans h)
          (isolates_iff.mpr ⟨(isolates_iff.mp isolates).1, (shut_of_bare course.bare).mpr (isolates_iff.mp isolates).2⟩)
          hj open_
        rw [course.time] at safe
        exact ⟨j', hj', .earlier made safe⟩
      · obtain ⟨j', hj', later⟩ := (after.incident i).2 j hj
        rw [course.time] at later
        exact ⟨j', hj', safe.later later⟩

end

end Sys2Proof.Proofs
end


section
/-!
The course of one touched valve, with the release list that a DONE reopening leaves (R117, R121).
-/

namespace Sys2Proof.Proofs

open Sys2Proof Sys2Proof.Machine

section
variable {p q : Part} {id k u v : Nat} {t : Touched} {x : Plan} {o : Operation}

/-- A valve's operation is a DONE reopening of a plan's (R121). -/
def reopens (p : Part) (v id : Nat) : Bool :=
  (p.op? v).any fun o => decide (o.origin = .plan id ∧ o.action = .toOpen ∧ o.state = .done)

/-- The part once a DONE reopening has left its plan's release list. -/
def reopenedPart (v : Nat) (p : Part) : Part :=
  match p.op? v with
  | some o => match o.origin, o.action, o.state with
    | .plan id, .toOpen, .done => leaveReleaseOf id v p
    | _, _, _ => p
  | none => p

theorem courseOf_eq (t : Touched) (p : Part) : courseOf t p =
    ((reopenedPart t.valve p).plans.idsWhere fun _ q => q.closeList.contains t.valve).foldl
      (fun p id => testPlan id t p) (reopenedPart t.valve p) := by
  simp only [courseOf, reopenedPart] <;> rfl

theorem reopenedPart_reopens (h : reopens p v id = true) : reopenedPart v p = leaveReleaseOf id v p := by
  obtain ⟨o, ho, test⟩ := (Option.any_eq_true _ _).mp h
  obtain ⟨origin, action, state⟩ := of_decide_eq_true test
  simp only [reopenedPart, ho, origin, action, state]

theorem reopenedPart_stays (h : ∀ id, reopens p v id = false) : reopenedPart v p = p := by
  unfold reopenedPart
  split
  next o ho =>
    split
    next id origin action state =>
      have := h id
      simp [reopens, ho, origin, action, state] at this
    · rfl
  · rfl

/-- Either one plan's reopening is DONE, or none's. -/
theorem reopens_cases (p : Part) (v : Nat) : (∃ id, reopens p v id = true ∧ ∀ k, reopens p v k = true → k = id) ∨
    ∀ id, reopens p v id = false := by
  by_cases some_ : ∃ id, reopens p v id = true
  · obtain ⟨id, h⟩ := some_
    refine .inl ⟨id, h, fun k hk => ?_⟩
    obtain ⟨o, ho, test⟩ := (Option.any_eq_true _ _).mp h
    obtain ⟨o', ho', test'⟩ := (Option.any_eq_true _ _).mp hk
    cases ho.symm.trans ho'
    have origin := (of_decide_eq_true test).1
    have origin' := (of_decide_eq_true test').1
    exact Origin.plan.inj (origin'.symm.trans origin)
  · exact .inr fun id => by simpa using fun h => some_ ⟨id, h⟩

theorem courses_reopenedPart (v : Nat) (p : Part) : Courses p (reopenedPart v p) := by
  unfold reopenedPart
  split
  · split
    · exact courses_leaveReleaseOf _ _ p
    · exact .refl p
  · exact .refl p

theorem reopenedPart_get? (v : Nat) (p : Part) (id : Nat) : (reopenedPart v p).plans.get? id =
    (p.plans.get? id).bind fun x => if reopens p v id = true then x.without [v] else some x := by
  rcases reopens_cases p v with ⟨k, h, only⟩ | none_
  · rw [reopenedPart_reopens h, leaveReleaseOf_get?]
    refine congrArg (Option.bind _) (funext fun x => if_congr ⟨fun same => same ▸ h, only id⟩ rfl rfl)
  · rw [reopenedPart_stays none_]
    simp [none_]

theorem reopenedPart_valves (v : Nat) (p : Part) : (reopenedPart v p).valves = p.valves := by
  unfold reopenedPart
  split
  · split
    · simp
    · rfl
  · rfl

theorem reopenedPart_wf (v : Nat) (w : p.plans.wf 16 = true) : (reopenedPart v p).plans.wf 16 = true := by
  have left : ∀ id, (leaveReleaseOf id v p).plans.wf 16 = true := fun id => by
    cases h : p.plans.get? id with
    | none => simpa only [leaveReleaseOf, h] using w
    | some x =>
      by_cases leaves : x.state = .releasing ∧ v ∈ x.releaseList
      · rw [leaveReleaseOf_left h leaves.1 leaves.2]
        have set_ := Laws.wf_set_used p.plans 16 id { x with releaseList := x.releaseList.filter (· != v) } _ w h
        split
        · unfold freePlan
          split
          · exact set_
          · dsimp only
            split
            · split
              · simpa using Laws.wf_erase _ _ _ set_
              · exact Laws.wf_erase _ _ _ set_
            · exact Laws.wf_erase _ _ _ set_
        · exact set_
      · rw [leaveReleaseOf_stays h leaves]
        exact w
  unfold reopenedPart
  split
  · split
    · exact left _
    · exact w
  · exact w

/-- A valve's plans, as its course tests them. -/
theorem mem_coursed (w : p.plans.wf 16 = true) : id ∈ (p.plans.idsWhere fun _ q => q.closeList.contains v) ↔
    ∃ x, p.plans.get? id = some x ∧ v ∈ x.closeList := by
  rw [mem_idsWhere w]
  simp

/-- A plan's record after a course, one of the plan's valves perhaps having been touched. -/
def coursedPlan (p : Part) (t : Touched) (id : Nat) (x : Plan) : Plan :=
  if t.valve ∈ x.closeList then testedPlan p t id x else x

/-- Where a valve's course takes a plan (R117, R121). -/
theorem courseOf_get? (w : p.plans.wf 16 = true) (settled : settledTouch t p) (id : Nat) :
    (courseOf t p).plans.get? id = (p.plans.get? id).bind fun x =>
      (if reopens p t.valve id = true then x.without [t.valve] else some x).map (coursedPlan p t id) := by
  have course := courses_reopenedPart t.valve p
  have settled' := settledTouch_of_courses course settled
  have now : ((reopenedPart t.valve p).plans.get? id).map (coursedPlan p t id) = (p.plans.get? id).bind fun x =>
      (if reopens p t.valve id = true then x.without [t.valve] else some x).map (coursedPlan p t id) := by
    rw [reopenedPart_get?, Option.map_bind]
    rfl
  rw [← now, courseOf_eq]
  cases h : (reopenedPart t.valve p).plans.get? id with
  | none =>
    rw [testPlans_other, h]
    · rfl
    · rw [mem_coursed (reopenedPart_wf _ w), h]
      simp
  | some x =>
    by_cases mem : t.valve ∈ x.closeList
    · rw [testPlans_plan _ h mem settled', if_pos ((mem_coursed (reopenedPart_wf _ w)).mpr ⟨x, h, mem⟩),
        testedPlan_congr course settled, Option.map_some, coursedPlan, if_pos mem]
    · rw [testPlans_other, h, Option.map_some, coursedPlan, if_neg mem]
      rw [mem_coursed (reopenedPart_wf _ w), h]
      rintro ⟨y, same, hy⟩
      cases same
      exact mem hy

/-- A plan that may be isolated is left by a DONE reopening. -/
theorem reopenedPart_isolating (state : x.state = .executing ∨ x.state = .blocked) :
    (reopenedPart v p).plans.get? id = some x ↔ p.plans.get? id = some x := by
  rw [reopenedPart_get?]
  have stays : ∀ y : Plan, y.without [v] = some x ↔ y = x := fun y => by
    rw [without_one]
    by_cases leaves : y.state = .releasing ∧ v ∈ y.releaseList
    · rw [if_pos leaves]
      have apart : ∀ l : List Nat, ({ y with releaseList := l } : Plan) ≠ x := fun l same => by
        rw [← same] at state
        simp [leaves.1] at state
      constructor
      · split
        · intro h; cases h
        · intro h; exact absurd (Option.some.inj h) (apart _)
      · intro same
        exact absurd same (apart y.releaseList)
    · rw [if_neg leaves]
      exact ⟨Option.some.inj, congrArg some⟩
  cases p.plans.get? id with
  | none => simp
  | some y =>
    rw [Option.bind_some]
    split
    · rw [stays]
      exact ⟨congrArg some, Option.some.inj⟩
    · rfl

/-- What a valve's course makes of an operation (R117). -/
theorem courseOf_op? (w : p.plans.wf 16 = true) (ho : p.op? u = some o) :
    (∀ id x, p.plans.get? id = some x → t.valve ∈ x.closeList → cutBy p id x u o →
      (courseOf t p).op? u = some (Operation.ended o (.failed .cancelled) p.time)) ∧
    ((∀ id x, p.plans.get? id = some x → t.valve ∈ x.closeList → ¬cutBy p id x u o) →
      (courseOf t p).op? u = some o) := by
  have course := courses_reopenedPart t.valve p
  have w' := reopenedPart_wf t.valve w
  have ho' : (reopenedPart t.valve p).op? u = some o := (op?_of_valves (reopenedPart_valves _ p) u).trans ho
  have once : ((reopenedPart t.valve p).plans.idsWhere fun _ q => q.closeList.contains t.valve).Nodup :=
    idsWhere_nodup w' _
  obtain ⟨cut, stays⟩ := testPlans_op? (t := t) once (fun id mem => (mem_coursed w').mp mem) ho'
  rw [course.time] at cut
  rw [courseOf_eq]
  refine ⟨fun id x hx mem both => ?_, fun none_ => stays fun id x listed hx both => ?_⟩
  · have hx' := (reopenedPart_isolating (v := t.valve) (isolates_iff.mp both.1).1).mpr hx
    exact cut id x ((mem_coursed w').mpr ⟨x, hx', mem⟩) hx' ((cutBy_congr course).mpr both)
  · obtain ⟨y, hy, mem⟩ := (mem_coursed w').mp listed
    cases hx.symm.trans hy
    have both := (cutBy_congr course).mp both
    exact none_ id x ((reopenedPart_isolating (isolates_iff.mp both.1).1).mp hx) mem both

/-- A plan that a valve's course takes to ISOLATED: its incident is made safe (R117). -/
theorem courseOf_safe {i : Nat} {inc : Incident} (h : p.plans.get? id = some x) (mem : t.valve ∈ x.closeList)
    (isolates : p.isolates x = true) (hi : x.incident = some i) (hinc : p.register.incidents.get? i = some inc)
    (exposed : inc.exposed) :
    ∃ j, (courseOf t p).register.incidents.get? i = some j ∧ SafeFrom p.time inc j := by
  have course := courses_reopenedPart t.valve p
  have h' := (reopenedPart_isolating (v := t.valve) (isolates_iff.mp isolates).1).mpr h
  have listed : id ∈ (reopenedPart t.valve p).plans.idsWhere fun _ q => q.closeList.contains t.valve :=
    List.mem_map.mpr ⟨(id, x), List.mem_filter.mpr ⟨Laws.mem_of_get? _ _ _ h', by simpa using mem⟩, rfl⟩
  have isolates' : (reopenedPart t.valve p).isolates x = true :=
    isolates_iff.mpr ⟨(isolates_iff.mp isolates).1, (shut_of_bare course.bare).mpr (isolates_iff.mp isolates).2⟩
  rw [courseOf_eq]
  obtain ⟨j, hj, made⟩ := (course.incident i).2 inc hinc
  have after := courses_foldl _ (fun q id => courses_testPlan id t q)
    ((reopenedPart t.valve p).plans.idsWhere fun _ q => q.closeList.contains t.valve) (reopenedPart t.valve p)
  rcases exposed_of_madeSafeOf made exposed with open_ | safe
  · obtain ⟨j', hj', safe⟩ := testPlans_safe (t := t) listed h' isolates' hi hj open_
    rw [course.time] at safe
    exact ⟨j', hj', .earlier made safe⟩
  · obtain ⟨j', hj', later⟩ := (after.incident i).2 j hj
    rw [course.time] at later
    exact ⟨j', hj', safe.later later⟩

end

end Sys2Proof.Proofs
end


section
/-!
VALVE_REPORT (R73, R74, R115): the position or the flag written, the operation brought up to date, and the course of the
plans.
-/

namespace Sys2Proof.Proofs

open Sys2Proof Sys2Proof.Machine

section
variable {p q : Part} {id u v : Nat} {e : End} {o : Operation} {valve : Valve}

/-! ## Reports taken by an operation -/

/-- A CREW operation that is under way (R115). -/
def crewLive (o : Operation) : Prop := o.mode = .crew ∧ (o.state = .pending ∨ o.state = .acting)

theorem opEndReport_ends (ho : p.op? v = some o) (crew : crewLive o) (toward : o.action.target = e) :
    opEndReport v e p = finishOp v p := by
  simp only [opEndReport, ho]
  exact if_pos (by simp [crew.1, live_iff.mpr crew.2, toward])

theorem opEndReport_stays (h : ∀ o, p.op? v = some o → ¬(crewLive o ∧ o.action.target = e)) : opEndReport v e p = p := by
  unfold opEndReport
  split
  · rfl
  next o ho =>
    refine if_neg fun test => h o ho ?_
    simp only [Bool.and_eq_true, decide_eq_true_eq, live_iff] at test
    exact ⟨⟨test.1.1, test.1.2⟩, test.2⟩

theorem works_opEndReport (v : Nat) (e : End) (p : Part) : Works p (opEndReport v e p) := by
  unfold opEndReport
  split
  · exact .refl p
  · split
    · exact works_finishOp v p
    · exact .refl p

theorem opEndReport_other (other : u ≠ v) (e : End) (p : Part) : (opEndReport v e p).op? u = p.op? u := by
  unfold opEndReport
  split
  · rfl
  · split
    · rw [finishOp_op?]
      simp [other]
    · rfl

theorem opSeizedReport_fails (ho : p.op? v = some o) (crew : crewLive o) :
    opSeizedReport v p = (failOp v .seized p, ⟨v, true⟩) := by
  simp only [opSeizedReport, ho]
  exact if_pos (by simp [crew.1, live_iff.mpr crew.2])

theorem opSeizedReport_stays (h : ∀ o, p.op? v = some o → ¬crewLive o) : opSeizedReport v p = (p, ⟨v, false⟩) := by
  unfold opSeizedReport
  split
  · rfl
  next o ho =>
    refine if_neg fun test => h o ho ?_
    simp only [Bool.and_eq_true, decide_eq_true_eq, live_iff] at test
    exact test

/-- A finished or a failed operation as the statements write it: the state written, the notice, and a crew's job ended. -/
theorem finishOp_of_get? (h : p.valves.get? v = some valve) (ho : valve.operation = some o) : finishOp v p =
    let done := place (.valveDone v o.action o.origin o.mode) (withOp p v valve (Operation.ended o .done p.time))
    if o.mode = .crew then endJob ⟨.valve, v⟩ done else done := by
  rw [finishOp_eq ((op?_of_get? h).trans ho), setOpState_eq h ho]

theorem failOp_of_get? (h : p.valves.get? v = some valve) (ho : valve.operation = some o) (reason : OpFailure) :
    failOp v reason p =
      let failed := place (.valveFailed v o.action o.origin o.mode reason)
        (withOp p v valve (Operation.ended o (.failed reason) p.time))
      if o.mode = .crew then endJob ⟨.valve, v⟩ failed else failed := by
  rw [failOp_eq ((op?_of_get? h).trans ho), setOpState_eq h ho]

theorem reports_cases (h : p.valves.get? v = some valve) (ho : valve.operation = some o) (e : End) :
    let put := fun (state : OpState) => { p with valves := p.valves.set v { valve with operation := some { o with
      state := state, stateTime := p.time, travelExpiry := none } } }
    let crew := o.mode = .crew ∧ (o.state = .pending ∨ o.state = .acting)
    (crew → o.action.target = e →
      opEndReport v e p = endJob ⟨.valve, v⟩ (place (.valveDone v o.action o.origin .crew) (put .done))) ∧
    (¬ (crew ∧ o.action.target = e) → opEndReport v e p = p) ∧
    (crew → opSeizedReport v p =
      (endJob ⟨.valve, v⟩ (place (.valveFailed v o.action o.origin .crew .seized) (put (.failed .seized))), ⟨v, true⟩)) ∧
    (¬ crew → opSeizedReport v p = (p, ⟨v, false⟩)) := by
  intro put crew
  have found : p.op? v = some o := (op?_of_get? h).trans ho
  refine ⟨fun live toward => ?_, fun stays => ?_, fun live => ?_, fun stays => ?_⟩
  · rw [opEndReport_ends found live toward, finishOp_of_get? h ho]
    dsimp only
    rw [if_pos live.1, live.1]
    rfl
  · exact opEndReport_stays fun o' ho' => by cases found.symm.trans ho'; exact stays
  · rw [opSeizedReport_fails found live, failOp_of_get? h ho]
    dsimp only
    rw [if_pos live.1, live.1]
    rfl
  · exact opSeizedReport_stays fun o' ho' => by cases found.symm.trans ho'; exact stays

/-! ## The tests, one by one -/

theorem enterIsolated_hidden {x : Plan} (hx : p.plans.get? id = some x)
    (hidden : ∀ i inc, x.incident = some i → p.register.incidents.get? i = some inc → ¬inc.exposed) :
    enterIsolated id p = setPlanState id .isolated none p := by
  simp only [enterIsolated, hx]
  split
  next i inc named =>
    obtain ⟨i', hi, found⟩ := Option.bind_eq_some_iff.mp named
    obtain ⟨inc', hinc, same⟩ := Option.map_eq_some_iff.mp found
    obtain ⟨rfl, rfl⟩ := Prod.mk.inj same
    rw [Part.incident?, Laws.f_setPlanState_register] at hinc
    exact if_neg (by simpa [Incident.exposed, and_assoc] using hidden i' inc' hi hinc)
  · rfl

theorem enterIsolated_exposed {x : Plan} {i : Nat} {inc : Incident} (hx : p.plans.get? id = some x)
    (hi : x.incident = some i) (hinc : p.register.incidents.get? i = some inc) (exposed : inc.exposed) :
    enterIsolated id p = makeSafe i .plan (setPlanState id .isolated none p) := by
  have named : x.incident.bind (fun i => ((setPlanState id .isolated none p).incident? i).map fun inc => (i, inc)) =
      some (i, inc) := by
    rw [hi, Option.bind_some, Part.incident?, Laws.f_setPlanState_register, hinc]
    rfl
  simp only [enterIsolated, hx, named]
  exact if_pos (by simpa [Incident.exposed, or_assoc] using exposed)

theorem tests_cases {x : Plan} (hx : p.plans.get? id = some x) :
    (∀ new valve, setPlanState id new valve p = place (.planState id x.state new x.target x.incident x.failure valve)
      { p with plans := p.plans.set id { x with
        state := new, stateTime := p.time, blocking := if valve.isSome then valve else x.blocking } }) ∧
    let isolates := (x.state = .executing ∨ x.state = .blocked) ∧ p.shut x.closeList
    let gone := setPlanState id .isolated none p
    (isolates → cancelPending id p = p.cancelled id x.closeList fun o => decide o.closePending) ∧
    (¬ isolates → cancelPending id p = p) ∧
    (¬ isolates → isolationTest id p = p) ∧
    (isolates → (∀ i inc, x.incident = some i → p.register.incidents.get? i = some inc → ¬ inc.exposed) →
      isolationTest id p = gone) ∧
    (isolates → ∀ i inc, x.incident = some i → p.register.incidents.get? i = some inc → inc.exposed →
      let safe := place (.incidentState i inc.state .madeSafe .plan inc.crew) (refreshLamps { gone with
        register := { gone.register with incidents := gone.register.incidents.set i { inc with
          state := .madeSafe, stateTime := p.time, nextEscalation := none } } })
      isolationTest id p = if inc.state = .opened then endJob ⟨.leak, i⟩ safe else safe) ∧
    ∀ v,
      let breaks := x.state = .isolated ∧ p.lastEnd? v = some .opened
      let fails := x.state = .executing ∧
        ∃ o, p.op? v = some o ∧ o.origin = .plan id ∧ o.action = .toClose ∧ o.state ≠ .failed .cancelled
      let leaves := x.state = .releasing ∧ v ∈ x.releaseList
      let left := { p with plans := p.plans.set id { x with releaseList := x.releaseList.filter (· != v) } }
      (breaks → breakTest id v p = setPlanState id .blocked (some v) p) ∧ (¬ breaks → breakTest id v p = p) ∧
      (fails → failureTest id ⟨v, true⟩ p = setPlanState id .blocked (some v) p) ∧
      (¬ fails → failureTest id ⟨v, true⟩ p = p) ∧ failureTest id ⟨v, false⟩ p = p ∧ (¬ leaves → leaveReleaseOf id v p = p) ∧
      (leaves → x.releaseList.filter (· != v) ≠ [] → leaveReleaseOf id v p = left) ∧
      (leaves → x.releaseList.filter (· != v) = [] → leaveReleaseOf id v p = freePlan id left) := by
  refine ⟨fun new valve => setPlanState_of_get? hx new valve, ?_⟩
  intro isolates gone
  refine ⟨fun h => cancelPending_isolates hx (isolates_iff.mpr h), fun h => cancelPending_stays hx fun k => h (isolates_iff.mp k),
    fun h => isolationTest_stays hx fun k => h (isolates_iff.mp k), fun h hidden => ?_, fun h i inc hi hinc exposed => ?_, fun v => ?_⟩
  · rw [isolationTest_isolates hx (isolates_iff.mpr h)]
    exact enterIsolated_hidden hx hidden
  · rw [isolationTest_isolates hx (isolates_iff.mpr h), enterIsolated_exposed hx hi hinc exposed]
    have found : gone.register.incidents.get? i = some inc := by rw [Laws.f_setPlanState_register, hinc]
    rw [makeSafe_of_get? found, setIncidentState_of_get? found, setPlanState_time]
    rfl
  · intro breaks fails leaves left
    exact ⟨fun h => breakTest_breaks hx h.1 h.2, breakTest_stays hx, fun ⟨executing, o, ho, blocks⟩ =>
      failureTest_blocks hx executing ho blocks, failureTest_stays hx, failureTest_unfailed id v p, leaveReleaseOf_stays hx,
      fun h some_ => by rw [leaveReleaseOf_left hx h.1 h.2, if_neg some_],
      fun h none_ => by rw [leaveReleaseOf_left hx h.1 h.2, if_pos none_]⟩

theorem course_cases (t : Touched) (ts : List Touched) (p : Part) :
    let tested := fun (r : Part) => (r.plans.idsWhere fun _ x => x.closeList.contains t.valve).foldl
      (fun r id => isolationTest id (failureTest id t (cancelPending id (breakTest id t.valve r)))) r
    let reopened := fun (id : Nat) =>
      ∃ o, p.op? t.valve = some o ∧ o.origin = .plan id ∧ o.action = .toOpen ∧ o.state = .done
    (∀ id, reopened id → courseOf t p = tested (leaveReleaseOf id t.valve p)) ∧
    ((∀ id, ¬ reopened id) → courseOf t p = tested p) ∧
    planCourse [] p = p ∧ planCourse (t :: ts) p = planCourse ts (courseOf t p) := by
  intro tested reopened
  have test : ∀ id, reopens p t.valve id = true ↔ reopened id := fun id =>
    (Option.any_eq_true _ _).trans (exists_congr fun o => and_congr_right' decide_eq_true_iff)
  refine ⟨fun id h => ?_, fun h => ?_, rfl, rfl⟩
  · rw [courseOf_eq, reopenedPart_reopens ((test id).mpr h)]
    rfl
  · rw [courseOf_eq, reopenedPart_stays fun id => Bool.eq_false_iff.mpr fun k => h id ((test id).mp k)]
    rfl

/-! ## A report of an end -/

/-- The valves whose last end position a report of an end changes. -/
def changedEnd (v : Nat) (valve : Valve) (e : End) : List Nat := if e = valve.lastEnd then [] else [v]

/-- The part with a reported end written (R73). -/
def writtenEnd (p : Part) (v : Nat) (valve : Valve) (e : End) : Part :=
  { p with valves := p.valves.set v { valve with position := e.position, lastEnd := e } }

/-- The part once the snoop has taken a reported end (R71, R107). -/
def snoopedEnd (p : Part) (v : Nat) (valve : Valve) (e : End) : Part :=
  snoop (changedEnd v valve e) none (if changedEnd v valve e = [] then writtenEnd p v valve e
    else raise (.valve v (p.originPlan v)) (writtenEnd p v valve e))

theorem writtenEnd_op? (h : p.valves.get? v = some valve) (e : End) (u : Nat) :
    (writtenEnd p v valve e).op? u = p.op? u := by
  rw [Part.op?, writtenEnd, get?_set, Part.op?]
  by_cases here : u = v
  · rw [if_pos here, here, h]; rfl
  · rw [if_neg here]

theorem writtenEnd_bare (p : Part) (v : Nat) (valve : Valve) (e : End) (u : Nat) : (writtenEnd p v valve e).bare u =
    if u = v then some { valve with position := e.position, lastEnd := e, operation := none } else p.bare u := by
  rw [Part.bare, writtenEnd, get?_set, Part.bare]
  by_cases here : u = v
  · rw [if_pos here, if_pos here]; rfl
  · rw [if_neg here, if_neg here]

theorem endReported_eq (h : p.valves.get? v = some valve) (e : End) : endReported v e p =
    dispatchDecide (planCourse [⟨v, false⟩] (opEndReport v e (snoopedEnd p v valve e))) := by
  have origin : (writtenEnd p v valve e).originPlan v = p.originPlan v := by
    simp only [Part.originPlan, writtenEnd_op? h]
  have write : writePosition v e.position (some e) p = (if changedEnd v valve e = [] then writtenEnd p v valve e
      else raise (.valve v (p.originPlan v)) (writtenEnd p v valve e), changedEnd v valve e) := by
    rw [← origin]
    simp only [writePosition, h, Option.getD_some, changedEnd]
    by_cases same : e = valve.lastEnd
    · simp only [if_pos same, if_true]; rfl
    · simp only [if_neg same, List.cons_ne_nil, if_false]; rfl
  simp only [endReported, write, snoopedEnd]

theorem snoopedEnd_frame (p : Part) (v : Nat) (valve : Valve) (e : End) :
    SnoopOnly (writtenEnd p v valve e) (snoopedEnd p v valve e) := by
  refine SnoopOnly.trans ?_ (snoop_frame _ _ _)
  split
  · exact rfl
  · rw [raise_eq]; exact rfl

theorem setPlanState_wf (w : p.plans.wf 16 = true) (id : Nat) (new : PlanState) (by_ : Option Nat) :
    (setPlanState id new by_ p).plans.wf 16 = true := by
  cases h : p.plans.get? id with
  | none => simpa only [setPlanState, h] using w
  | some x =>
    rw [setPlanState_of_get? h, Laws.place_plans]
    exact Laws.wf_set_used _ _ _ _ _ w h

theorem snoop_wf (w : p.plans.wf 16 = true) (vs : List Nat) (except : Option Nat) :
    (snoop vs except p).plans.wf 16 = true := by
  have stale : ∀ (ids : List Nat) (p : Part), p.plans.wf 16 = true →
      (ids.foldl (fun p id => setPlanState id .stale none p) p).plans.wf 16 = true := by
    intro ids
    induction ids with
    | nil => exact fun _ w => w
    | cons id rest ih => exact fun p w => ih _ (setPlanState_wf w id .stale none)
  rw [snoop_eq]
  exact stale _ _ (by rw [changesEntered_plans]; exact w)

theorem snoopedEnd_plans (w : p.plans.wf 16 = true) (v : Nat) (valve : Valve) (e : End) (k : Nat) :
    (snoopedEnd p v valve e).plans.get? k = (p.plans.get? k).map fun x => x.snooped (changedEnd v valve e) p.time := by
  have same : ∀ r : Part, r = (if changedEnd v valve e = [] then writtenEnd p v valve e
      else raise (.valve v (p.originPlan v)) (writtenEnd p v valve e)) → r.plans = p.plans ∧ r.time = p.time := by
    rintro r rfl
    split
    · exact ⟨rfl, rfl⟩
    · rw [raise_eq]; exact ⟨rfl, rfl⟩
  obtain ⟨plans, time⟩ := same _ rfl
  rw [snoopedEnd, snoop_get? (by rw [plans]; exact w), plans, time]
  rfl

theorem snoopedEnd_entered (p : Part) (v : Nat) (valve : Valve) (e : End) : Trace.Entered { p.trace with
    pendingCause := if e = valve.lastEnd then p.trace.pendingCause
      else some (p.trace.pendingCause.getD (.valve v (p.originPlan v))) } (snoopedEnd p v valve e).trace
    (changedEnd v valve e) := by
  have entered := snoop_entered (changedEnd v valve e) none (if changedEnd v valve e = [] then writtenEnd p v valve e
    else raise (.valve v (p.originPlan v)) (writtenEnd p v valve e))
  by_cases same : e = valve.lastEnd
  · rw [if_pos same]
    have none_ : changedEnd v valve e = [] := if_pos same
    rw [snoopedEnd, none_, if_pos rfl]
    rw [none_, if_pos rfl] at entered
    exact entered
  · rw [if_neg same]
    have one : changedEnd v valve e = [v] := if_neg same
    rw [snoopedEnd, one, if_neg (List.cons_ne_nil _ _), raise_eq]
    rw [one, if_neg (List.cons_ne_nil _ _), raise_eq] at entered
    exact entered

/-- The part once the operation has taken a reported end, before the tests of the plans. -/
def takenEnd (p : Part) (v : Nat) (valve : Valve) (e : End) : Part := opEndReport v e (snoopedEnd p v valve e)

theorem snoopedEnd_op? (h : p.valves.get? v = some valve) (e : End) (u : Nat) :
    (snoopedEnd p v valve e).op? u = p.op? u := by
  rw [op?_of_valves (p := writtenEnd p v valve e) (by rw [snoopedEnd_frame p v valve e]), writtenEnd_op? h]

theorem takenEnd_other (h : p.valves.get? v = some valve) (other : u ≠ v) (e : End) :
    (takenEnd p v valve e).op? u = p.op? u := by
  rw [takenEnd, opEndReport_other other, snoopedEnd_op? h]

theorem takenEnd_stays (h : p.valves.get? v = some valve) (ho : p.op? u = some o)
    (stays : u = v → ¬(crewLive o ∧ o.action.target = e)) : (takenEnd p v valve e).op? u = some o := by
  by_cases here : u = v
  · subst here
    have found := (snoopedEnd_op? h e u).trans ho
    rw [takenEnd, opEndReport_stays, found]
    intro o' ho'
    cases found.symm.trans ho'
    exact stays rfl
  · rw [takenEnd_other h here, ho]

theorem takenEnd_done (h : p.valves.get? v = some valve) (ho : p.op? v = some o) (crew : crewLive o)
    (toward : o.action.target = e) : (takenEnd p v valve e).op? v = some (Operation.ended o .done p.time) := by
  have found := (snoopedEnd_op? h e v).trans ho
  rw [takenEnd, opEndReport_ends found crew toward, finishOp_op?, found, Option.map_some, if_pos rfl,
    Part.time, snoopedEnd_frame p v valve e]
  rfl

theorem takenEnd_works (p : Part) (v : Nat) (valve : Valve) (e : End) :
    Works (snoopedEnd p v valve e) (takenEnd p v valve e) := works_opEndReport v e _

theorem takenEnd_time (p : Part) (v : Nat) (valve : Valve) (e : End) : (takenEnd p v valve e).time = p.time := by
  rw [(takenEnd_works p v valve e).time, Part.time, snoopedEnd_frame p v valve e]; rfl

theorem takenEnd_register (p : Part) (v : Nat) (valve : Valve) (e : End) :
    (takenEnd p v valve e).register = p.register := by
  rw [(takenEnd_works p v valve e).frame]
  rw [snoopedEnd_frame p v valve e]; rfl

theorem takenEnd_bare (p : Part) (v : Nat) (valve : Valve) (e : End) (u : Nat) :
    (takenEnd p v valve e).bare u = (writtenEnd p v valve e).bare u := by
  rw [(takenEnd_works p v valve e).bare]
  exact bare_of_valves (by rw [snoopedEnd_frame p v valve e]) u

theorem takenEnd_plans (w : p.plans.wf 16 = true) (v : Nat) (valve : Valve) (e : End) (k : Nat) :
    (takenEnd p v valve e).plans.get? k = (p.plans.get? k).map fun x => x.snooped (changedEnd v valve e) p.time := by
  rw [(takenEnd_works p v valve e).frame]
  exact snoopedEnd_plans w v valve e k

theorem takenEnd_wf (w : p.plans.wf 16 = true) (v : Nat) (valve : Valve) (e : End) :
    (takenEnd p v valve e).plans.wf 16 = true := by
  rw [(takenEnd_works p v valve e).frame]
  refine snoop_wf ?_ _ _
  split
  · exact w
  · rw [raise_eq]; exact w

/-- A plan in execution is as it was when the tests begin. -/
theorem takenEnd_isolates {x : Plan} (w : p.plans.wf 16 = true) (v : Nat) (valve : Valve) (e : End) :
    ((takenEnd p v valve e).plans.get? id = some x ∧ (takenEnd p v valve e).isolates x = true) ↔
      (p.plans.get? id = some x ∧ (x.state = .executing ∨ x.state = .blocked) ∧ (writtenEnd p v valve e).shut x.closeList) := by
  rw [isolates_iff, shut_of_bare (takenEnd_bare p v valve e), takenEnd_plans w, Option.map_eq_some_iff]
  refine and_congr_left fun both => ⟨fun ⟨y, hy, same⟩ => ?_, fun hx => ⟨x, hx, if_neg fun ready => ?_⟩⟩
  · rw [← same] at both ⊢
    rw [hy]
    refine congrArg some (if_neg fun ready => ?_).symm
    have stale : (y.snooped (changedEnd v valve e) p.time).state = .stale := by rw [Plan.snooped, if_pos ready]
    rw [stale] at both
    simp at both
  · rw [ready.1] at both
    simp at both

theorem reopens_of_courses {q : Part} (h : Courses p q) (v id : Nat) : reopens q v id = reopens p v id := by
  unfold reopens
  cases ho : p.op? v with
  | none => rw [(h.op? v).1 ho]
  | some o =>
    obtain ⟨o', ho', recast⟩ := (h.op? v).2 o ho
    rw [ho']
    rcases recast with rfl | ⟨-, closing, rfl⟩
    · rfl
    · simp [Operation.ended, closing.1]

theorem snooped_of_not_ready {x : Plan} (h : x.state ≠ .ready) (vs : List Nat) (now : Nat) : x.snooped vs now = x :=
  if_neg fun both => h both.1

theorem snooped_state (x : Plan) (vs : List Nat) (now : Nat) :
    (x.snooped vs now).state = x.state ∨ (x.state = .ready ∧ (x.snooped vs now).state = .stale) := by
  unfold Plan.snooped
  split
  next both => exact .inr ⟨both.1, rfl⟩
  · exact .inl rfl

/-- A plan that is not in execution is left by the tests. -/
theorem coursedPlan_rests {x : Plan} (h : ¬(x.state = .executing ∨ x.state = .blocked ∨ x.state = .isolated)) (p : Part)
    (t : Touched) (id : Nat) : coursedPlan p t id x = x := by
  simp only [not_or] at h
  obtain ⟨executing, blocked, isolated⟩ := h
  simp [coursedPlan, testedPlan, failsPlan, executing, blocked, isolated]

theorem without_of_not_releasing {x : Plan} (h : x.state ≠ .releasing) (vs : List Nat) : x.without vs = some x :=
  without_of_stays fun both => h both.1

/-- The plans left by a DONE reopening are left by the tests. -/
theorem without_coursed {x : Plan} (h : x.state = .releasing) (p : Part) (t : Touched) (id : Nat) :
    (x.without [v]).map (coursedPlan p t id) = x.without [v] := by
  rw [without_one]
  split
  · split
    · rfl
    · rw [Option.map_some, coursedPlan_rests (by simp [h])]
  · rw [Option.map_some, coursedPlan_rests (by simp [h])]

/-- Where a report of an end takes a plan (R107, R117, R121). -/
theorem endReported_plan {q : Part} (e : End)
    (run : q = dispatchDecide (planCourse [⟨v, false⟩] (takenEnd p v valve e))) (w : p.plans.wf 16 = true) (id : Nat) :
    q.plans.get? id = (p.plans.get? id).bind fun x =>
      if x.state = .releasing ∧ reopens q v id = true then x.without [v]
      else if v ∈ x.closeList ∧ x.state = .isolated ∧ e = .opened then
        some { x with state := .blocked, stateTime := p.time, blocking := some v }
      else if v ∈ x.closeList ∧ (x.state = .executing ∨ x.state = .blocked) ∧ (writtenEnd p v valve e).shut x.closeList then
        some { x with state := .isolated, stateTime := p.time }
      else some (x.snooped (changedEnd v valve e) p.time) := by
  have course := courses_courseOf ⟨v, false⟩ (takenEnd p v valve e)
  have again : reopens q v id = reopens (takenEnd p v valve e) v id := by
    rw [← reopens_of_courses course, run, reopens, reopens,
      op?_of_valves (p := planCourse [⟨v, false⟩] (takenEnd p v valve e)) (by simp)]
    rfl
  have last : (takenEnd p v valve e).lastEnd? v = some e := by
    rw [lastEnd?_of_bare (takenEnd_bare p v valve e v), Part.lastEnd?, writtenEnd, get?_set, if_pos rfl]; rfl
  have shut : ∀ vs, (takenEnd p v valve e).shut vs ↔ (writtenEnd p v valve e).shut vs := fun vs =>
    shut_of_bare (takenEnd_bare p v valve e)
  have plans : q.plans.get? id = (courseOf ⟨v, false⟩ (takenEnd p v valve e)).plans.get? id := by
    rw [run, Laws.f_dispatchDecide_plans]; rfl
  rw [plans, courseOf_get? (takenEnd_wf w v valve e) (by intro failed; cases failed), takenEnd_plans w, again]
  cases hx : p.plans.get? id with
  | none => rfl
  | some x =>
    rw [Option.map_some, Option.bind_some, Option.bind_some]
    dsimp only
    by_cases releasing : x.state = .releasing
    · rw [snooped_of_not_ready (by simp [releasing])]
      by_cases back : reopens (takenEnd p v valve e) v id = true
      · rw [if_pos back, if_pos ⟨releasing, back⟩, without_coursed releasing]
      · rw [if_neg back, if_neg fun both => back both.2, Option.map_some, coursedPlan_rests (by simp [releasing]),
          if_neg (by simp [releasing]), if_neg (by simp [releasing])]
    · have stays : (x.snooped (changedEnd v valve e) p.time).without [v] = some (x.snooped (changedEnd v valve e) p.time) := by
        refine without_of_not_releasing ?_ _
        rcases snooped_state x (changedEnd v valve e) p.time with same | ⟨-, stale⟩
        · rw [same]; exact releasing
        · simp [stale]
      rw [stays, ite_self, Option.map_some, if_neg fun both => releasing both.1]
      by_cases runs : x.state = .executing ∨ x.state = .blocked ∨ x.state = .isolated
      · rw [snooped_of_not_ready (by rintro ready; simp [ready] at runs)]
        have passes : failsPlan (takenEnd p v valve e) ⟨v, false⟩ id x = false := rfl
        simp only [coursedPlan, testedPlan, last, shut, passes, Bool.false_eq_true, if_false, takenEnd_time,
          Option.some.injEq]
        by_cases mem : v ∈ x.closeList
        · simp only [mem, if_true, true_and]
          split
          · rfl
          · split <;> rfl
        · simp only [mem, if_false, false_and]
      · have rests : ¬((x.snooped (changedEnd v valve e) p.time).state = .executing ∨
            (x.snooped (changedEnd v valve e) p.time).state = .blocked ∨
            (x.snooped (changedEnd v valve e) p.time).state = .isolated) := by
          rcases snooped_state x (changedEnd v valve e) p.time with same | ⟨-, stale⟩
          · rw [same]; exact runs
          · simp [stale]
        rw [coursedPlan_rests rests, if_neg, if_neg]
        · exact fun both => runs (both.2.1.elim .inl fun k => .inr (.inl k))
        · exact fun both => runs (.inr (.inr both.2.1))

/-- The plans that a report of an end isolates: their incidents made safe, their PENDING CLOSE operations cancelled
(R117). -/
theorem endReported_isolated {q : Part} {x : Plan} (h : p.valves.get? v = some valve) (e : End)
    (run : q = dispatchDecide (planCourse [⟨v, false⟩] (takenEnd p v valve e))) (w : p.plans.wf 16 = true)
    (hx : p.plans.get? id = some x) (mem : v ∈ x.closeList) (state : x.state = .executing ∨ x.state = .blocked)
    (shut : (writtenEnd p v valve e).shut x.closeList) :
    p.MadeSafe q x ∧ ∀ u ∈ x.closeList, ∀ o, p.op? u = some o → o.origin = .plan id → o.closePending →
      (u = v → o.mode = .field) →
      q.op? u = some { o with state := .failed .cancelled, stateTime := p.time, travelExpiry := none } := by
  obtain ⟨hx', isolates⟩ := (takenEnd_isolates w v valve e).mpr ⟨hx, state, shut⟩
  have w' := takenEnd_wf w v valve e
  refine ⟨fun i inc hi hinc exposed => ?_, fun u listed o ho origin closing field => ?_⟩
  · obtain ⟨j, hj, link, safe⟩ := courseOf_safe (t := ⟨v, false⟩) hx' mem isolates hi
      (by rw [takenEnd_register]; exact hinc) exposed
    rw [takenEnd_time] at safe
    refine ⟨link, ?_⟩
    rw [run, Laws.f_dispatchDecide_register, ← safe]
    exact hj
  · have ho' := takenEnd_stays h ho (e := e) fun here both => by
      have := both.1.1
      rw [field here] at this
      cases this
    have cut := (courseOf_op? (t := ⟨v, false⟩) w' ho').1 id x hx' mem ⟨isolates, listed, origin, closing⟩
    rw [takenEnd_time] at cut
    rw [run, op?_of_valves (p := planCourse [⟨v, false⟩] (takenEnd p v valve e)) (by simp)]
    exact cut

/-- Every other operation is as it was. -/
theorem endReported_other {q : Part} (h : p.valves.get? v = some valve) (e : End)
    (run : q = dispatchDecide (planCourse [⟨v, false⟩] (takenEnd p v valve e))) (w : p.plans.wf 16 = true)
    (other : u ≠ v) (uncut : ∀ id x o, p.plans.get? id = some x → p.op? u = some o →
      ¬(v ∈ x.closeList ∧ u ∈ x.closeList ∧ o.origin = .plan id ∧ o.closePending ∧ (writtenEnd p v valve e).shut x.closeList)) :
    q.op? u = p.op? u := by
  rw [run, op?_of_valves (p := planCourse [⟨v, false⟩] (takenEnd p v valve e)) (by simp)]
  have same := takenEnd_other h other e
  cases ho : p.op? u with
  | none => exact ((courses_courseOf ⟨v, false⟩ (takenEnd p v valve e)).op? u).1 (same.trans ho)
  | some o =>
    refine (courseOf_op? (takenEnd_wf w v valve e) (same.trans ho)).2 fun id x hx mem cut => ?_
    obtain ⟨isolates, listed, origin, closing⟩ := cut
    obtain ⟨hx', -, shut⟩ := (takenEnd_isolates w v valve e).mp ⟨hx, isolates⟩
    exact uncut id x o hx' ho ⟨mem, listed, origin, closing, shut⟩

theorem endReported_done {q : Part} (h : p.valves.get? v = some valve)
    (run : q = dispatchDecide (planCourse [⟨v, false⟩] (takenEnd p v valve e))) (ho : valve.operation = some o)
    (crew : o.mode = .crew) (live : o.live = true) (toward : o.action.target = e) :
    q.op? v = some { o with state := .done, stateTime := p.time, travelExpiry := none } := by
  have done := takenEnd_done h ((op?_of_get? h).trans ho) ⟨crew, live_iff.mp live⟩ toward
  rw [run, op?_of_valves (p := planCourse [⟨v, false⟩] (takenEnd p v valve e)) (by simp)]
  obtain ⟨o', ho', recast⟩ := ((courses_courseOf ⟨v, false⟩ (takenEnd p v valve e)).op? v).2 _ done
  rcases recast with rfl | ⟨-, closing, -⟩
  · exact ho'
  · cases closing.2

theorem endReported_frame {q : Part} (v : Nat) (valve : Valve) (e : End)
    (run : q = dispatchDecide (planCourse [⟨v, false⟩] (takenEnd p v valve e))) :
    q.clock = p.clock ∧ q.points = p.points ∧ q.feeds = p.feeds ∧ q.trace = (snoopedEnd p v valve e).trace ∧
      ∀ u, q.bare u = (writtenEnd p v valve e).bare u := by
  have bare := (courses_planCourse [⟨v, false⟩] (takenEnd p v valve e)).bare
  have tests := (courses_planCourse [⟨v, false⟩] (takenEnd p v valve e)).frame
  have works := (takenEnd_works p v valve e).frame
  have snoop := snoopedEnd_frame p v valve e
  refine ⟨?_, ?_, ?_, ?_, fun u => ?_⟩
  · rw [run, Laws.f_dispatchDecide_clock, tests, works, snoop]; rfl
  · rw [run, Laws.f_dispatchDecide_points, tests, works, snoop]; rfl
  · rw [run, Laws.f_dispatchDecide_feeds, tests, works, snoop]; rfl
  · rw [run, Laws.f_dispatchDecide_trace, tests, works]
  · rw [← takenEnd_bare, ← bare, run]
    exact bare_of_valves (by simp) u

/-! ## A report that a valve cannot be operated -/

theorem changeInoperable_get? (h : p.valves.get? v = some valve) (c : Cause) (u : Nat) :
    (changeInoperable v true c p).valves.get? u =
      if u = v then some { valve with inoperable := true } else p.valves.get? u := by
  by_cases same : valve.inoperable = true
  · rw [changeInoperable_same h same]
    by_cases here : u = v
    · rw [if_pos here, here, h, ← same]
    · rw [if_neg here]
  · rw [changeInoperable_other h same, Laws.f_snoop_valves, Laws.f_raise_valves, Laws.f_markSegments_valves, get?_set]

theorem changeInoperable_op? (h : p.valves.get? v = some valve) (c : Cause) (u : Nat) :
    (changeInoperable v true c p).op? u = p.op? u := by
  rw [Part.op?, changeInoperable_get? h, Part.op?]
  by_cases here : u = v
  · rw [if_pos here, here, h]; rfl
  · rw [if_neg here]

theorem changeInoperable_bare (h : p.valves.get? v = some valve) (c : Cause) (u : Nat) :
    (changeInoperable v true c p).bare u =
      if u = v then some { valve with inoperable := true, operation := none } else p.bare u := by
  rw [Part.bare, changeInoperable_get? h, Part.bare]
  by_cases here : u = v
  · rw [if_pos here, if_pos here]; rfl
  · rw [if_neg here, if_neg here]

theorem changeInoperable_lastEnd? (h : p.valves.get? v = some valve) (c : Cause) (u : Nat) :
    (changeInoperable v true c p).lastEnd? u = p.lastEnd? u := by
  rw [Part.lastEnd?, changeInoperable_get? h, Part.lastEnd?]
  by_cases here : u = v
  · rw [if_pos here, here, h]; rfl
  · rw [if_neg here]

/-- What a flag newly set hands to the snoop (R74, R107). -/
theorem changeInoperable_snooped (h : p.valves.get? v = some valve) (operable : valve.inoperable = false) (c : Cause)
    (w : p.plans.wf 16 = true) :
    Trace.Entered { p.trace with pendingCause := some (p.trace.pendingCause.getD c) }
      (changeInoperable v true c p).trace [v] ∧
    (changeInoperable v true c p).plans.wf 16 = true ∧
    ∀ k, (changeInoperable v true c p).plans.get? k = (p.plans.get? k).map fun x => x.snooped [v] p.time := by
  have marked := Laws.f_markSegments_trace (p := { p with valves := p.valves.set v { valve with inoperable := true } })
    [valve.endA, valve.endB]
  have plans : (raise c (markSegments [valve.endA, valve.endB]
      { p with valves := p.valves.set v { valve with inoperable := true } })).plans = p.plans := by simp
  rw [changeInoperable_other h (by simp [operable])]
  refine ⟨?_, snoop_wf (by rw [plans]; exact w) _ _, fun k => ?_⟩
  · have entered := snoop_entered [v] none (raise c (markSegments [valve.endA, valve.endB]
      { p with valves := p.valves.set v { valve with inoperable := true } }))
    rw [raise_eq, marked] at entered
    rw [raise_eq, marked]
    exact entered
  · rw [snoop_get? (by rw [plans]; exact w), plans]
    simp [Part.time]

theorem works_opSeizedReport (v : Nat) (p : Part) : Works p (opSeizedReport v p).1 := by
  unfold opSeizedReport
  split
  · exact .refl p
  · split
    · exact works_failOp v .seized p
    · exact .refl p

/-- A seized operation has failed by the time of the tests. -/
theorem opSeizedReport_settled (v : Nat) (p : Part) :
    (opSeizedReport v p).2.valve = v ∧ settledTouch (opSeizedReport v p).2 (opSeizedReport v p).1 := by
  unfold opSeizedReport
  split
  · exact ⟨rfl, fun failed => by cases failed⟩
  next o ho =>
    split
    · refine ⟨rfl, fun _ o' ho' => ?_⟩
      rw [failOp_op?, ho, Option.map_some, if_pos rfl] at ho'
      cases ho'
      simp [Operation.ended]
    · exact ⟨rfl, fun failed => by cases failed⟩

section
variable {q : Part} {c : Cause} (h : p.valves.get? v = some valve)
  (run : q = dispatchDecide (planCourse [(opSeizedReport v (changeInoperable v true c p)).2]
    (opSeizedReport v (changeInoperable v true c p)).1))

include run in
theorem seizure_frame : q.clock = p.clock ∧ q.points = p.points ∧ q.feeds = p.feeds ∧
    q.trace = (changeInoperable v true c p).trace ∧ ∀ u, q.bare u = (changeInoperable v true c p).bare u := by
  have tests := courses_planCourse [(opSeizedReport v (changeInoperable v true c p)).2]
    (opSeizedReport v (changeInoperable v true c p)).1
  have works := works_opSeizedReport v (changeInoperable v true c p)
  refine ⟨?_, ?_, ?_, ?_, fun u => ?_⟩
  · rw [run, Laws.f_dispatchDecide_clock, tests.frame, works.frame]; simp
  · rw [run, Laws.f_dispatchDecide_points, tests.frame, works.frame]; simp
  · rw [run, Laws.f_dispatchDecide_feeds, tests.frame, works.frame]; simp
  · rw [run, Laws.f_dispatchDecide_trace, tests.frame, works.frame]
  · rw [← works.bare, ← tests.bare, run]
    exact bare_of_valves (by simp) u

include h run

theorem seizure_failed (ho : valve.operation = some o) (crew : o.mode = .crew) (live : o.live = true) :
    q.op? v = some { o with state := .failed .seized, stateTime := p.time, travelExpiry := none } := by
  have found := (changeInoperable_op? h c v).trans ((op?_of_get? h).trans ho)
  rw [run, op?_of_valves (p := planCourse [(opSeizedReport v (changeInoperable v true c p)).2]
    (opSeizedReport v (changeInoperable v true c p)).1) (by simp), opSeizedReport_fails found ⟨crew, live_iff.mp live⟩]
  have failed : (failOp v .seized (changeInoperable v true c p)).op? v =
      some (Operation.ended o (.failed .seized) p.time) := by
    rw [failOp_op?, found, Option.map_some, if_pos rfl, Part.time, Laws.f_changeInoperable_clock]; rfl
  obtain ⟨o', ho', recast⟩ := ((courses_planCourse [⟨v, true⟩] (failOp v .seized (changeInoperable v true c p))).op? v).2 _
    failed
  rcases recast with rfl | ⟨-, closing, -⟩
  · exact ho'
  · cases closing.2

theorem seizure_plan {x : Plan} (operable : valve.inoperable = false) (w : p.plans.wf 16 = true)
    (hx : p.plans.get? id = some x) :
    (x.state = .ready → q.plans.get? id = some (x.snooped [v] p.time)) ∧
    (x.state = .executing → ¬p.shut x.closeList → v ∈ x.closeList →
      ∀ o, p.op? v = some o → o.origin = .plan id → o.mode = .crew → o.live = true → o.action = .toClose →
        q.plans.get? id = some { x with state := .blocked, stateTime := p.time, blocking := some v }) := by
  obtain ⟨-, wf, plans⟩ := changeInoperable_snooped h operable c w
  have works := works_opSeizedReport v (changeInoperable v true c p)
  obtain ⟨touched, settled⟩ := opSeizedReport_settled v (changeInoperable v true c p)
  have now : q.plans.get? id = (if reopens (opSeizedReport v (changeInoperable v true c p)).1 v id = true
      then (x.snooped [v] p.time).without [v] else some (x.snooped [v] p.time)).map
        (coursedPlan (opSeizedReport v (changeInoperable v true c p)).1 (opSeizedReport v (changeInoperable v true c p)).2 id) := by
    have plan : (opSeizedReport v (changeInoperable v true c p)).1.plans = (changeInoperable v true c p).plans := by
      rw [works.frame]
    have := courseOf_get? (p := (opSeizedReport v (changeInoperable v true c p)).1) (by rw [plan]; exact wf) settled id
    rw [touched, plan, plans, hx, Option.map_some, Option.bind_some] at this
    rw [run, Laws.f_dispatchDecide_plans, ← this]
    rfl
  refine ⟨fun ready => ?_, fun executing open_ mem o ho origin crew live closes => ?_⟩
  · have rests : (x.snooped [v] p.time).state = .ready ∨ (x.snooped [v] p.time).state = .stale := by
      rcases snooped_state x [v] p.time with same | ⟨-, stale⟩
      · exact .inl (same.trans ready)
      · exact .inr stale
    rw [now, without_of_not_releasing (by rcases rests with k | k <;> simp [k]), ite_self, Option.map_some,
      coursedPlan_rests (by rcases rests with k | k <;> simp [k])]
  · have found := (changeInoperable_op? h c v).trans ho
    rw [now, snooped_of_not_ready (by simp [executing]), without_of_not_releasing (by simp [executing]), ite_self,
      Option.map_some, opSeizedReport_fails found ⟨crew, live_iff.mp live⟩, coursedPlan, if_pos mem, testedPlan,
      if_neg (by simp [executing]), if_neg, if_pos]
    · rw [(works_failOp v .seized (changeInoperable v true c p)).time, Part.time, Laws.f_changeInoperable_clock]; rfl
    · rw [failsPlan, executing, failOp_op?, found, Option.map_some, if_pos rfl]
      simp [Operation.ended, origin, closes]
    · rintro ⟨-, shut⟩
      refine open_ fun u hu => ?_
      rw [← changeInoperable_lastEnd? h c u, ← lastEnd?_of_bare ((works_failOp v .seized (changeInoperable v true c p)).bare u)]
      exact shut u hu

end

theorem valveReportRule_act {b : List Byte} {code : Nat} (v_eq : u16 b 0 = v) (code_eq : u8 b 2 = code) (hv : v < 768)
    (hc : code ≤ 2) (h : p.valves.get? v = some valve)
    (heard : code = 2 ∨ valve.actuated = false ∨ p.answers valve.outstation = false) :
    valveReportRule.act b p =
      ⟨.ok, [], if code = 2 then seizureReported v p else endReported v (endOf code) p⟩ := by
  simp only [valveReportRule, v_eq, code_eq, h]
  rw [if_neg (by simp; omega)]
  by_cases two : code = 2
  · rw [if_pos two, if_pos two]; rfl
  · rw [if_neg two, if_neg two, if_neg]
    · rfl
    · rcases heard with k | k | k
      · exact absurd k two
      · simp [k]
      · simp [k]

end

/-- Settles O37: the report as it is written, taken and tested, and the tests one by one. -/
theorem valveReportWritesThePosition : Obligations.ValveReportWritesThePosition := by
  refine ⟨fun tag v code valve s ready hv hc h heard => ?_, fun id x p hx => tests_cases hx, course_cases,
    fun v valve o e p h ho => reports_cases h ho e⟩
  intro body p e
  have v_eq : u16 body 0 = v := u16_be16 (by omega) _
  have code_eq : u8 body 2 = code := by
    simp only [body, u8, be16, List.cons_append, List.nil_append, List.getD_cons_succ, List.getD_cons_zero, toNat_byte]
    omega
  have run := request_ok (h := valveReportRule) rfl tag ready.1 rfl (decide_eq_true ready.2)
    (valveReportRule_act (p := p) v_eq code_eq hv hc h heard)
  have hp : p.valves.get? v = some valve := h
  by_cases two : code = 2
  · rw [if_pos two] at run
    refine ⟨_, run, ?_⟩
    have q_eq : seizureReported v p = dispatchDecide (planCourse
        [(opSeizedReport v (changeInoperable v true (.valve v (p.originPlan v)) p)).2]
        (opSeizedReport v (changeInoperable v true (.valve v (p.originPlan v)) p)).1) := rfl
    obtain ⟨clock, points, feeds, trace, bare⟩ := seizure_frame q_eq
    simp only [changeInoperable_bare hp] at bare
    refine ⟨clock, points, feeds, fun u other => (bare u).trans (if_neg other), fun less => by omega, fun _ => ⟨q_eq,
      fun tables operable => ?_, (bare v).trans (if_pos rfl), fun o ho crew live => seizure_failed hp q_eq ho crew live⟩⟩
    obtain ⟨_, _, _, _, _, _, plans, _⟩ := tables
    refine ⟨?_, fun id x hx => ?_⟩
    · rw [trace]
      exact (changeInoperable_snooped hp operable _ plans).1
    · obtain ⟨stale, blocked⟩ := seizure_plan hp q_eq operable plans hx
      exact ⟨stale, blocked⟩
  · rw [if_neg two] at run
    obtain ⟨q, q_def⟩ : ∃ q, q = endReported v e p := ⟨_, rfl⟩
    have q_eq : q = dispatchDecide (planCourse [⟨v, false⟩] (takenEnd p v valve e)) := q_def.trans (endReported_eq hp e)
    refine ⟨q, by rw [q_def]; exact run, ?_⟩
    clear run q_def
    obtain ⟨clock, points, feeds, trace, bare⟩ := endReported_frame v valve e q_eq
    simp only [writtenEnd_bare] at bare
    refine ⟨clock, points, feeds, fun u other => (bare u).trans (if_neg other), fun _ => ?_, fun k => absurd k two⟩
    refine ⟨(bare v).trans (if_pos rfl), q_eq, ?_, ?_, ?_, ?_, ?_⟩
    · exact trace ▸ snoopedEnd_entered p v valve e
    · exact fun w id => endReported_plan e q_eq w id
    · exact fun w id x hx mem state shut => endReported_isolated hp e q_eq w hx mem state shut
    · exact fun w u other uncut => endReported_other hp e q_eq w other uncut
    · exact fun o ho crew live toward => endReported_done hp q_eq ho crew live toward

end Sys2Proof.Proofs
end


section
/-!
OPERATE, the orders behind it, the command queue, slot reports and TRAVEL_EXPIRY (R31, R110–R113, R122).
-/

namespace Sys2Proof.Proofs

open Sys2Proof Sys2Proof.Machine

section
variable {p : Part} {n v u : Nat} {a : Action} {origin : Origin} {valve : Valve} {o : Operation} {c : Command}

/-! ## The command queue -/

/-- A queued STOP for a command's valve (R31). -/
abbrev stopsFor (c q : Command) : Prop := q.action = .stop ∧ q.valve = c.valve

theorem replaceStop_found {pre post : List Command} {q : Command} (stop : stopsFor c q)
    (first : ∀ r ∈ pre, ¬stopsFor c r) : replaceStop c (pre ++ q :: post) = some (pre ++ c :: post) := by
  induction pre with
  | nil =>
    rw [List.nil_append, replaceStop, if_pos (by simpa using stop)]
    rfl
  | cons r pre ih =>
    rw [List.cons_append, replaceStop, if_neg (by simpa using first r List.mem_cons_self),
      ih fun q hq => first q (List.mem_cons_of_mem _ hq)]
    rfl

theorem replaceStop_none {l : List Command} (none_ : ∀ q ∈ l, ¬stopsFor c q) : replaceStop c l = none := by
  induction l with
  | nil => rfl
  | cons q l ih =>
    rw [replaceStop, if_neg (by simpa using none_ q List.mem_cons_self), ih fun r hr => none_ r (List.mem_cons_of_mem _ hr)]
    rfl

theorem offer_cases (c : Command) (p : Part) :
    let n := c.outstation / 16
    let l := p.line n
    let put := fun (queue : List Command) => wakeLine n (p.onLine n fun l => { l with queue := queue })
    let stops := fun (q : Command) => q.action = .stop ∧ q.valve = c.valve
    let turned := c.action = .stop ∧ (l.holdFlag = true ∨ p.answers c.outstation = false)
    let needless := c.action = .stop ∧ ∃ q ∈ l.queue, q.action ≠ .stop ∧ q.valve = c.valve
    (turned → offerCommand c p = (p, false)) ∧
    (¬ turned →
      (∀ pre q post, l.queue.drop l.inTxn = pre ++ q :: post → stops q → (∀ r ∈ pre, ¬ stops r) →
        offerCommand c p = (put (l.queue.take l.inTxn ++ (pre ++ c :: post)), false)) ∧
      ((∀ q ∈ l.queue.drop l.inTxn, ¬ stops q) →
        (needless → offerCommand c p = (p, false)) ∧
        (¬ needless → 8 ≤ l.queue.length → offerCommand c p = (p, decide (c.action ≠ .stop))) ∧
        (¬ needless → l.queue.length < 8 → offerCommand c p = (put (l.queue ++ [c]), false)))) := by
  intro n l put stops turned needless
  have turn : (decide (c.action = .stop) && (l.holdFlag || !p.answers c.outstation)) = true ↔ turned := by
    simp [turned]
  have need : (decide (c.action = .stop) && l.queue.any fun q => q.action != .stop && decide (q.valve = c.valve)) = true ↔
      needless := by
    simp [needless]
  refine ⟨fun h => if_pos (turn.mpr h), fun h => ⟨fun pre q post split_ stop first => ?_, fun none_ => ?_⟩⟩
  · refine (if_neg fun k => h (turn.mp k)).trans ?_
    have found := replaceStop_found (post := post) stop first
    rw [← split_] at found
    split
    next rest k =>
      cases k.symm.trans found
      rfl
    next k => cases k.symm.trans found
  · have absent := replaceStop_none none_
    have same : offerCommand c p =
        if (decide (c.action = .stop) && l.queue.any fun q => q.action != .stop && decide (q.valve = c.valve)) = true then
          (p, false)
        else if commandRoom ≤ l.queue.length then (p, !decide (c.action = .stop)) else (put (l.queue ++ [c]), false) := by
      refine (if_neg fun k => h (turn.mp k)).trans ?_
      split
      next rest k => cases k.symm.trans absent
      next k => rfl
    rw [same]
    refine ⟨fun k => if_pos (need.mpr k), fun k full => ?_, fun k room => ?_⟩
    · rw [if_neg fun t => k (need.mp t), if_pos (show commandRoom ≤ l.queue.length from full)]
      simp
    · rw [if_neg fun t => k (need.mp t), if_neg (show ¬commandRoom ≤ l.queue.length from Nat.not_le.mpr room)]

/-- A command that is not placed leaves the part. -/
theorem offerCommand_full (h : (offerCommand c p).2 = true) : (offerCommand c p).1 = p := by
  unfold offerCommand at h ⊢
  dsimp only at h ⊢
  split
  · rfl
  next go =>
    rw [if_neg go] at h
    split
    next rest found => rw [found] at h; cases h
    next absent =>
      rw [absent] at h
      dsimp only at h
      split
      · rfl
      next go' =>
        rw [if_neg go'] at h
        split
        · rfl
        next room => rw [if_neg room] at h; cases h

theorem wake_cases (n : Nat) (p : Part) :
    ((p.line n).cond = .waiting → (p.line n).phase = .idle → (p.line n).commandDue = true → wakeLine n p = sendCommand n p) ∧
    (¬ ((p.line n).cond = .waiting ∧ (p.line n).phase = .idle ∧ (p.line n).commandDue = true) → wakeLine n p = p) ∧
    ∀ c rest o, (p.line n).queue = c :: rest → p.outstations.get? c.outstation = some o →
      let bit := c.bit.getD (!o.seqBit)
      sendCommand n p = { (p.onLine n fun l => { l with
          queue := { c with bit := some bit } :: rest, run := l.run + 1
          phase := .sending
            { outstation := c.outstation, isCommand := true, bit := bit
              frame := fieldFrame (byte (c.outstation % 16 + 1)) 0x02 [byte c.slot, byte c.action.code, flag bit]
              rate := l.rate, window := l.window } }) with
        outstations := if c.bit = none then p.outstations.set c.outstation { o with seqBit := bit } else p.outstations } := by
  refine ⟨fun waiting idle due => if_pos (by simp [waiting, idle, due]), fun rests => if_neg (by simpa [and_assoc] using rests),
    fun c rest o queue ho => ?_⟩
  intro bit
  simp only [sendCommand, queue, ho, Option.map_some, Option.getD_some]
  cases hb : c.bit with
  | none =>
    simp only [Option.isNone_none, eq_self, if_true, Part.onOutstation, modify_of_get? ho, Part.onLine, bit, hb, dropOf]
  | some b =>
    simp only [Option.isNone_some, Bool.false_eq_true, reduceCtorEq, if_false, Part.onLine, bit, hb, dropOf]

/-! ## Orders -/

theorem order_cases (h : p.valves.get? v = some valve) (a : Action) (origin : Origin) :
    let field := valve.actuated = true ∧ p.answers valve.outstation = true
    let op : Operation :=
      { action := a, origin := origin, mode := if field then .field else .crew, state := .pending, ordered := p.time
        stateTime := p.time, travelExpiry := none }
    let stands := fun (o : Operation) => p.valves.set v { valve with operation := some o }
    let r := offerCommand
      { valve := v, outstation := valve.outstation, slot := valve.slot, origin := some origin
        action := match a with
          | .toOpen => .toOpen
          | .toClose => .toClose } { p with valves := stands op }
    (¬ field → orderOp v a origin p = { p with valves := stands op }) ∧
    (field → r.2 = false → orderOp v a origin p = r.1) ∧
    (field → r.2 = true → orderOp v a origin p = place (.valveFailed v a origin .field .comms)
      { r.1 with valves := stands { op with state := .failed .comms } }) := by
  intro field op stands r
  have mode : p.modeFor valve = if field then .field else .crew := by simp only [Part.modeFor, Bool.and_eq_true, field]
  have new : newOp p valve a origin = op := by simp only [newOp, mode, op]
  have offered : r = offerCommand (commandOf v valve a origin) (withOp p v valve (newOp p valve a origin)) := by
    rw [new]
    cases a <;> rfl
  refine ⟨fun crew => ?_, fun fields placed => ?_, fun fields full => ?_⟩
  · rw [orderOp_crew h (mode.trans (if_neg crew)), new]
    rfl
  · rw [orderOp_field h (mode.trans (if_pos fields)), ← offered]
    dsimp only
    rw [if_neg (by simp [placed])]
  · rw [orderOp_field h (mode.trans (if_pos fields)), ← offered]
    dsimp only
    rw [if_pos full]
    have left : r.1 = withOp p v valve op := by
      rw [offered] at full ⊢
      rw [offerCommand_full full, new]
    have stood : (withOp p v valve op).valves.get? v = some { valve with operation := some op } := Laws.get?_set_same _ _ _
    have crewless : op.mode = .field := if_pos fields
    rw [left, failOp_of_get? stood rfl]
    dsimp only
    rw [if_neg (by rw [crewless]; simp)]
    refine (congrArg (fun m => place (.valveFailed v a origin m .comms) _) crewless).trans ?_
    simp only [withOp, set_set, stands]
    rfl

/-! ## Slot reports -/

theorem slotReport_cases (h : p.valves.get? v = some valve) (ho : valve.operation = some o) (st : SlotStatus) :
    let put := fun (state : OpState) => { p with valves := p.valves.set v { valve with operation := some { o with
      state := state, stateTime := p.time, travelExpiry := none } } }
    let done := place (.valveDone v o.action o.origin o.mode) (put .done)
    let atEnd := st.position.2 = some o.action.target
    (o.mode = .field → o.state = .acting → atEnd → opSlotReport v st p = (done, ⟨v, false⟩)) ∧
    (o.mode = .field → o.state = .acting → ¬ atEnd → st.torque = true → opSlotReport v st p =
      (offerStop v (place (.valveFailed v o.action o.origin .field .torque) (put (.failed .torque))), ⟨v, true⟩)) ∧
    (o.mode = .field → o.state = .acting → ¬ atEnd → st.torque = false → opSlotReport v st p = (p, ⟨v, false⟩)) ∧
    (o.mode = .field → o.state ≠ .acting → opSlotReport v st p = (p, ⟨v, false⟩)) ∧
    (o.mode = .crew → (o.state = .pending ∨ o.state = .acting) → atEnd →
      opSlotReport v st p = (endJob ⟨.valve, v⟩ done, ⟨v, false⟩)) ∧
    (o.mode = .crew → (¬ (o.state = .pending ∨ o.state = .acting) ∨ ¬ atEnd) → opSlotReport v st p = (p, ⟨v, false⟩)) := by
  intro put done atEnd
  have found : p.op? v = some o := (op?_of_get? h).trans ho
  have finished : finishOp v p = if o.mode = .crew then endJob ⟨.valve, v⟩ done else done := finishOp_of_get? h ho
  have failed : o.mode = .field → failOp v .torque p =
      place (.valveFailed v o.action o.origin .field .torque) (put (.failed .torque)) := fun field => by
    rw [failOp_of_get? h ho]
    dsimp only
    rw [if_neg (by simp [field]), field]
    rfl
  refine ⟨fun field acting end_ => ?_, fun field acting short torque => ?_, fun field acting short free => ?_,
    fun field idle => ?_, fun crew live end_ => ?_, fun crew stays => ?_⟩
  · simp only [opSlotReport, found, field, acting, if_true]
    rw [if_pos (decide_eq_true end_), finished, if_neg (by simp [field])]
  · simp only [opSlotReport, found, field, acting, if_true]
    rw [if_neg (by simpa using short), if_pos torque, failed field]
  · simp only [opSlotReport, found, field, acting, if_true]
    rw [if_neg (by simpa using short), if_neg (by simp [free])]
  · simp only [opSlotReport, found, field]
    rw [if_neg idle]
  · simp only [opSlotReport, found, crew]
    rw [if_pos (by rw [live_iff.mpr live, Bool.true_and]; exact decide_eq_true end_), finished, if_pos crew]
  · simp only [opSlotReport, found, crew]
    refine if_neg fun both => ?_
    rw [Bool.and_eq_true, live_iff, decide_eq_true_eq] at both
    exact stays.elim (fun k => k both.1) fun k => k both.2

/-! ## OPERATE -/

theorem operateRule_act {b : List Byte} {code : Nat} (v_eq : u16 b 0 = v) (code_eq : u8 b 2 = code) (hv : v < 768)
    (hc : code ≤ 1) (h : p.valves.get? v = some valve) (unheld : code = 0 → valve.holders = [])
    (operable : valve.inoperable = false) (free : p.opLive v = false) :
    operateRule.act b p = ⟨.ok, [], operateValve v (actionOf code) p⟩ := by
  simp only [operateRule, v_eq, code_eq, h]
  rw [if_neg (by simp; omega), if_neg, if_neg (by simp [operable]), if_neg (by simp [free])]
  · rfl
  · intro both
    rw [Bool.and_eq_true, decide_eq_true_eq] at both
    simp [unheld both.1] at both

/-- What OPERATE leaves but the new operation, the command and the release lists (R122). -/
theorem operateValve_spec {q : Part} (h : p.valves.get? v = some valve) (a : Action)
    (run : q = dispatchDecide (leaveReleases v none (orderOp v a .host p))) :
    q.op? v = some (orderedOp p v valve a .host) ∧ q.points = p.points ∧ q.segments = p.segments ∧ q.feeds = p.feeds ∧
    q.outages = p.outages ∧ (∀ u, q.bare u = p.bare u) ∧ (∀ u, u ≠ v → q.valves.get? u = p.valves.get? u) ∧
    q.operatesAs (orderOp v a .host p) ∧
    ∀ id, q.plans.get? id = (p.plans.get? id).bind fun x =>
      if x.state = .releasing ∧ v ∈ x.releaseList then
        if (x.releaseList.filter (· != v)) = [] then none else some { x with releaseList := x.releaseList.filter (· != v) }
      else some x := by
  have works := works_orderOp v a .host p
  have valves : q.valves = (orderOp v a .host p).valves := by rw [run]; simp
  have op := fun u => op?_of_valves valves u
  have bare : ∀ u, q.bare u = p.bare u := fun u => (bare_of_valves valves u).trans (works.bare u)
  refine ⟨?_, ?_, ?_, ?_, ?_, bare, fun u other => ?_, ⟨?_, ?_, op⟩, fun id => ?_⟩
  · rw [op, orderOp_op? h, if_pos rfl]
  · rw [run, Laws.f_dispatchDecide_points, Laws.f_leaveReleases_points, works.frame]
  · rw [run, Laws.f_dispatchDecide_segments, Laws.f_leaveReleases_segments, works.frame]
  · rw [run, Laws.f_dispatchDecide_feeds, Laws.f_leaveReleases_feeds, works.frame]
  · rw [run, Laws.f_dispatchDecide_outages, Laws.f_leaveReleases_outages, works.frame]
  · refine valve_ext (bare u) ?_
    have := op u
    rw [orderOp_op? h, if_neg other] at this
    exact this
  · rw [run, Laws.f_dispatchDecide_lines, Laws.f_leaveReleases_lines]
  · rw [run, Laws.f_dispatchDecide_outstations, Laws.f_leaveReleases_outstations]
  · have plans : (orderOp v a .host p).plans = p.plans := by rw [works.frame]
    rw [run, Laws.f_dispatchDecide_plans, leaveReleases_get?, plans]
    simp only [reduceCtorEq, if_false, without_one]

/-! ## TRAVEL_EXPIRY -/

/-- The operation of a valve whose travel time has run, failed (R113). -/
def traveled (p : Part) (v : Nat) (valve : Valve) (o : Operation) : Part :=
  offerStop v (place (.valveFailed v o.action o.origin .field .travel)
    (withOp p v valve (Operation.ended o (.failed .travel) p.time)))

theorem travelEnds_due {t : Nat} (h : p.valves.get? v = some valve) (ho : valve.operation = some o)
    (field : o.mode = .field) (acting : o.state = .acting) (expiry : o.travelExpiry = some t) (due : t ≤ p.time) :
    travelEnds v p = dispatchDecide (planCourse [⟨v, true⟩] (traveled p v valve o)) := by
  simp only [travelEnds, (op?_of_get? h).trans ho]
  rw [if_pos (by simp [field, acting, expiry, reached_some, due]), failOp_of_get? h ho]
  dsimp only
  rw [if_neg (by simp [field]), field]
  rfl

theorem travelEnds_undue (h : ∀ o, p.op? v = some o → o.mode = .crew ∨ o.state ≠ .acting ∨
    ∀ t, o.travelExpiry = some t → p.time < t) : travelEnds v p = p := by
  unfold travelEnds
  split
  · rfl
  next o ho =>
    refine if_neg fun test => ?_
    simp only [Bool.and_eq_true, decide_eq_true_eq] at test
    obtain ⟨⟨field, acting⟩, reached⟩ := test
    obtain ⟨t, expiry, due⟩ := (Option.any_eq_true _ _).mp reached
    rcases h o ho with crew | idle | early
    · rw [field] at crew; cases crew
    · exact idle acting
    · exact absurd (of_decide_eq_true due) (Nat.not_le.mpr (early t expiry))

theorem traveled_works (h : p.valves.get? v = some valve) (o : Operation) : Works p (traveled p v valve o) :=
  ((works_withOp h _).trans (works_place _ _)).trans (works_offerStop v _)

theorem traveled_op? (p : Part) (v : Nat) (valve : Valve) (o : Operation) (u : Nat) :
    (traveled p v valve o).op? u = if u = v then some (Operation.ended o (.failed .travel) p.time) else p.op? u := by
  rw [op?_of_valves (p := withOp p v valve (Operation.ended o (.failed .travel) p.time)) (by simp [traveled]), withOp_op?]

theorem travelEnds_spec {q : Part} (h : p.valves.get? v = some valve) (o : Operation)
    (run : q = dispatchDecide (planCourse [⟨v, true⟩] (traveled p v valve o))) :
    q.op? v = some (Operation.ended o (.failed .travel) p.time) ∧ q.points = p.points ∧ q.segments = p.segments ∧
    q.feeds = p.feeds ∧ q.outages = p.outages ∧ (∀ u, q.bare u = p.bare u) ∧
    (∀ id x, p.plans.get? id = some x → v ∈ x.closeList → (x.state = .executing ∨ x.state = .blocked) →
      p.shut x.closeList → p.MadeSafe q x ∧
        ∃ y, q.plans.get? id = some y ∧ y.state = .isolated ∧ y.stateTime = p.time) ∧
    ∀ id x, o.origin = .plan id → o.action = .toClose → valve.lastEnd = .opened → p.plans.get? id = some x →
      x.state = .executing → v ∈ x.closeList →
      q.plans.get? id = some { x with state := .blocked, stateTime := p.time, blocking := some v } := by
  have works := traveled_works h o
  have courses := courses_courseOf ⟨v, true⟩ (traveled p v valve o)
  have failed := traveled_op? p v valve o v
  rw [if_pos rfl] at failed
  have settled : settledTouch ⟨v, true⟩ (traveled p v valve o) := fun _ o' ho' => by
    cases failed.symm.trans ho'
    simp [Operation.ended]
  have last : q = dispatchDecide (courseOf ⟨v, true⟩ (traveled p v valve o)) := run
  have plans : ∀ id x, p.plans.get? id = some x → v ∈ x.closeList → (x.state = .executing ∨ x.state = .blocked) →
      q.plans.get? id = some (testedPlan (traveled p v valve o) ⟨v, true⟩ id x) := fun id x hx mem state => by
    have first := courses_reopenedPart v (traveled p v valve o)
    have hx' : (reopenedPart v (traveled p v valve o)).plans.get? id = some x :=
      (reopenedPart_isolating state).mpr (by rw [works.frame]; exact hx)
    have listed : id ∈ (reopenedPart v (traveled p v valve o)).plans.idsWhere fun _ q => q.closeList.contains v :=
      List.mem_map.mpr ⟨(id, x), List.mem_filter.mpr ⟨Laws.mem_of_get? _ _ _ hx', by simpa using mem⟩, rfl⟩
    rw [last, Laws.f_dispatchDecide_plans, courseOf_eq, testPlans_plan _ hx' mem (settledTouch_of_courses first settled),
      if_pos listed, testedPlan_congr first settled]
  refine ⟨?_, ?_, ?_, ?_, ?_, fun u => ?_, fun id x hx mem state shut => ⟨fun i inc hi hinc exposed => ?_, ?_⟩,
    fun id x origin closes opened hx executing mem => ?_⟩
  · rw [last, op?_of_valves (p := courseOf ⟨v, true⟩ (traveled p v valve o)) (by simp)]
    obtain ⟨o', ho', recast⟩ := (courses.op? v).2 _ failed
    rcases recast with rfl | ⟨-, closing, -⟩
    · exact ho'
    · cases closing.2
  · rw [last, Laws.f_dispatchDecide_points, courses.frame, works.frame]
  · rw [last, Laws.f_dispatchDecide_segments, courses.frame, works.frame]
  · rw [last, Laws.f_dispatchDecide_feeds, courses.frame, works.frame]
  · rw [last, Laws.f_dispatchDecide_outages, courses.frame, works.frame]
  · rw [last, bare_of_valves (p := courseOf ⟨v, true⟩ (traveled p v valve o)) (by simp), courses.bare, works.bare]
  · obtain ⟨j, hj, link, safe⟩ := courseOf_safe (p := traveled p v valve o) (t := ⟨v, true⟩) (id := id) (x := x)
      (by rw [works.frame]; exact hx) mem (isolates_iff.mpr ⟨state, (shut_of_bare works.bare).mpr shut⟩) hi
      (by rw [works.frame]; exact hinc) exposed
    rw [works.time] at safe
    refine ⟨link, ?_⟩
    rw [last, Laws.f_dispatchDecide_register, ← safe]
    exact hj
  · refine ⟨_, plans id x hx mem state, ?_⟩
    rw [testedPlan, if_neg, if_pos ⟨state, (shut_of_bare works.bare).mpr shut⟩, works.time]
    · exact ⟨rfl, rfl⟩
    · rintro ⟨isolated, -⟩
      simp [isolated] at state
  · have fails : failsPlan (traveled p v valve o) ⟨v, true⟩ id x = true := by
      rw [failsPlan, executing, failed]
      simp [Operation.ended, origin, closes]
    rw [plans id x hx mem (.inl executing), testedPlan, if_neg (by simp [executing]), if_neg, if_pos fails, works.time]
    rintro ⟨-, shut⟩
    have closed := shut v mem
    rw [lastEnd?_of_bare (works.bare v), Part.lastEnd?, h, Option.map_some, opened] at closed
    cases closed

end

/-- Settles O47: an order and its command, the queue, slot reports, and the travel time that has run. -/
theorem operateAndTravelExpiry : Obligations.OperateAndTravelExpiry := by
  refine ⟨fun tag v a valve s ready hv ha h unheld operable free => ?_, fun v a origin valve p h => order_cases h a origin,
    offer_cases, wake_cases, fun v valve o st p h ho => slotReport_cases h ho st, fun v s => ⟨?_, fun undue => ?_⟩⟩
  · intro body p
    have v_eq : u16 body 0 = v := u16_be16 (by omega) _
    have a_eq : u8 body 2 = a := by
      simp only [body, u8, be16, List.cons_append, List.nil_append, List.getD_cons_succ, List.getD_cons_zero, toNat_byte]
      omega
    have run := request_ok (h := operateRule) rfl tag ready.1 rfl (decide_eq_true ready.2)
      (operateRule_act (p := p) v_eq a_eq hv ha h unheld operable free)
    obtain ⟨q, q_eq⟩ : ∃ q, q = operateValve v (actionOf a) p := ⟨_, rfl⟩
    obtain ⟨op, points, segments, feeds, outages, bare, others, same, plans⟩ := operateValve_spec (p := p) h (actionOf a) q_eq
    obtain ⟨action, origin, mode, ordered, time, expiry, crew, state⟩ := orderedOp_fields p v valve (actionOf a) .host
    exact ⟨q, _, by rw [q_eq]; exact run, op, action, origin, mode, ordered, time, expiry, crew, state, points, segments,
      feeds, outages, bare, others, q_eq, same, fun _ => plans⟩
  · intro valve o t h ho field acting expiry due
    obtain ⟨q, q_eq⟩ : ∃ q, q = dispatchDecide (planCourse [⟨v, true⟩] (traveled s.part v valve o)) := ⟨_, rfl⟩
    obtain ⟨op, points, segments, feeds, outages, bare, safe, blocked⟩ := travelEnds_spec h o q_eq
    refine ⟨q, ?_, q_eq, op, points, segments, feeds, outages, bare, safe, blocked⟩
    rw [q_eq, ← travelEnds_due h ho field acting expiry due]
    rfl
  · have stays := travelEnds_undue undue
    exact congrArg (fun r => Host.Outcome.next (s.withPart r)) stays

end Sys2Proof.Proofs
end


section
/-!
The notices that an event places after its communication states, and what the tests of the plans make of the lines.
-/

namespace Sys2Proof.Proofs

open Sys2Proof Sys2Proof.Machine

/-! ## Notices but those of communication states -/

/-- A notice that tells of something other than an outstation's communication state (R39). -/
def notComm (x : Notice) : Prop := ∀ os a b f c, x ≠ .outstationState os a b f c

/-- The clock is as it was, and the link has had some notices placed, none of them of a communication state. -/
structure Tells (p q : Part) : Prop where
  clock : q.clock = p.clock
  told : ∃ ns : List Notice, q.link = ns.foldl (fun l x => l.place p.time x) p.link ∧ ∀ x ∈ ns, notComm x

section
variable {p q r : Part}

theorem tells_of_eq (clock : q.clock = p.clock) (link : q.link = p.link) : Tells p q :=
  ⟨clock, [], link, fun _ mem => absurd mem List.not_mem_nil⟩

theorem Tells.refl (p : Part) : Tells p p := tells_of_eq rfl rfl

theorem Tells.trans (h : Tells p q) (k : Tells q r) : Tells p r := by
  obtain ⟨clock, ns, link, quiet⟩ := h
  obtain ⟨clock', ns', link', quiet'⟩ := k
  have time : q.time = p.time := by rw [Part.time, clock, ← Part.time]
  refine ⟨clock'.trans clock, ns ++ ns', ?_, fun x mem => (List.mem_append.mp mem).elim (quiet x) (quiet' x)⟩
  rw [link', link, time, List.foldl_append]

theorem tells_foldl {α : Type} (f : Part → α → Part) (hf : ∀ q a, Tells q (f q a)) (as : List α) (p : Part) :
    Tells p (as.foldl f p) := by
  induction as generalizing p with
  | nil => exact .refl p
  | cons a as ih => exact (hf p a).trans (ih _)

theorem tells_place {n : Notice} (quiet : notComm n) (p : Part) : Tells p (place n p) :=
  ⟨rfl, [n], rfl, fun x mem => by cases List.mem_singleton.mp mem; exact quiet⟩

/-- A step that places a notice on a part that has changed elsewhere. -/
theorem tells_place_of_eq {n : Notice} (quiet : notComm n) (clock : q.clock = p.clock) (link : q.link = p.link) :
    Tells p (place n q) := (tells_of_eq clock link).trans (tells_place quiet q)

theorem tells_refreshLamps (p : Part) : Tells p (refreshLamps p) := tells_of_eq (by simp) (by simp)

theorem tells_endJob (j : Job) (p : Part) : Tells p (endJob j p) := by
  unfold endJob
  split
  · exact .refl p
  · split
    · exact tells_place_of_eq (by simp [notComm]) rfl rfl
    · exact tells_of_eq rfl rfl

theorem tells_markSegments (ids : List Nat) (p : Part) : Tells p (markSegments ids p) := by
  refine tells_foldl _ (fun q id => ?_) _ p
  unfold markSegment
  split
  · exact .refl q
  · split
    · exact .refl q
    · dsimp only
      split
      · exact tells_place_of_eq (by simp [notComm]) rfl rfl
      · exact tells_of_eq rfl rfl

theorem tells_dispatchDecide (p : Part) : Tells p (dispatchDecide p) := by
  have loop : ∀ n p, Tells p (decideLoop n p) := by
    intro n
    induction n with
    | zero => exact fun p => .refl p
    | succ n ih =>
      intro p
      unfold decideLoop
      split
      · exact .refl p
      · split
        · exact .refl p
        · exact (tells_place_of_eq (by simp [notComm]) rfl rfl : Tells p (makeOffer _ _ p)).trans (ih _)
  unfold dispatchDecide
  split
  · exact loop _ p
  · exact .refl p

/-! ### Operations -/

theorem tells_failOp (v : Nat) (reason : OpFailure) (p : Part) : Tells p (failOp v reason p) := by
  unfold failOp
  split
  · exact .refl p
  next o _ =>
    have told : Tells p (place (.valveFailed v o.action o.origin o.mode reason) (setOpState v (.failed reason) none p)) :=
      tells_place_of_eq (by simp [notComm]) rfl rfl
    dsimp only
    split
    · exact told.trans (tells_endJob _ _)
    · exact told

theorem tells_finishOp (v : Nat) (p : Part) : Tells p (finishOp v p) := by
  unfold finishOp
  split
  · exact .refl p
  next o _ =>
    have told : Tells p (place (.valveDone v o.action o.origin o.mode) (setOpState v .done none p)) :=
      tells_place_of_eq (by simp [notComm]) rfl rfl
    dsimp only
    split
    · exact told.trans (tells_endJob _ _)
    · exact told

theorem tells_offerStop (v : Nat) (p : Part) : Tells p (offerStop v p) := tells_of_eq (by simp) (by simp)

theorem tells_cancelOp (v : Nat) (p : Part) : Tells p (cancelOp v p) := by
  unfold cancelOp
  split
  · exact .refl p
  · split
    · have failed := tells_failOp v .cancelled p
      dsimp only
      split
      · exact failed.trans (tells_of_eq (by simp) (by simp))
      · exact failed.trans (tells_offerStop _ _)
      · exact failed
    · exact .refl p

/-! ### Incidents -/

theorem tells_putIncident (id : Nat) (i : Incident) (p : Part) : Tells p (putIncident id i p) := tells_of_eq rfl rfl

theorem tells_setIncidentState (id : Nat) (new : IncidentState) (cause : IncidentCause) (p : Part) :
    Tells p (setIncidentState id new cause p) := by
  unfold setIncidentState
  split
  · exact .refl p
  · exact tells_place_of_eq (by simp [notComm]) rfl rfl

theorem tells_makeSafe (id : Nat) (cause : IncidentCause) (p : Part) : Tells p (makeSafe id cause p) := by
  unfold makeSafe
  split
  · exact .refl p
  · dsimp only
    split
    · exact (tells_setIncidentState _ _ _ p).trans (tells_endJob _ _)
    · exact tells_setIncidentState _ _ _ p

theorem tells_followDeadline (id old : Nat) (p : Part) : Tells p (followDeadline id old p) := by
  unfold followDeadline
  split
  · exact .refl p
  · split
    · split
      · exact tells_putIncident _ _ p
      · unfold escalateAt
        split
        · exact .refl p
        · exact tells_place_of_eq (by simp [notComm]) rfl rfl
    · exact .refl p

theorem tells_pressureConfirm (segment point : Nat) (p : Part) : Tells p (pressureConfirm segment point p) := by
  unfold pressureConfirm
  split
  · exact .refl p
  next id _ =>
    unfold raiseGrade
    split
    · exact .refl p
    next i _ =>
      have told : Tells p (place (.incidentUpgraded id i.grade .a .pressure (some point) (p.broughtForward i .a))
          (putIncident id { i with grade := .a, deadline := p.broughtForward i .a } p)) :=
        tells_place_of_eq (by simp [notComm]) rfl rfl
      exact told.trans (tells_followDeadline _ _ _)

/-! ### Plans -/

theorem tells_setPlanState (id : Nat) (new : PlanState) (valve : Option Nat) (p : Part) :
    Tells p (setPlanState id new valve p) := by
  unfold setPlanState
  split
  · exact .refl p
  · exact tells_place_of_eq (by simp [notComm]) rfl rfl

theorem tells_freePlan (id : Nat) (p : Part) : Tells p (freePlan id p) := by
  unfold freePlan
  split
  · exact .refl p
  next x _ =>
    have told : Tells p (place (.planState id x.state .free x.target x.incident x.failure none)
        { p with plans := p.plans.erase id }) := tells_place_of_eq (by simp [notComm]) rfl rfl
    dsimp only
    split
    · split
      · exact told.trans (tells_putIncident _ _ _)
      · exact told
    · exact told

theorem tells_snoop (vs : List Nat) (except : Option Nat) (p : Part) : Tells p (snoop vs except p) := by
  rw [snoop_eq]
  refine Tells.trans ?_ (tells_foldl _ (fun _ _ => tells_setPlanState _ _ _ _) _ _)
  unfold changesEntered
  split <;> exact tells_of_eq rfl rfl

theorem tells_testPlan (id : Nat) (t : Touched) (p : Part) : Tells p (testPlan id t p) := by
  have breaks : ∀ q, Tells q (breakTest id t.valve q) := fun q => by
    unfold breakTest
    split
    · exact .refl q
    · split
      · exact tells_setPlanState _ _ _ q
      · exact .refl q
  have cancels : ∀ q, Tells q (cancelPending id q) := fun q => by
    unfold cancelPending
    split
    · exact .refl q
    · split
      · exact tells_foldl _ (fun _ _ => tells_cancelOp _ _) _ q
      · exact .refl q
  have fails : ∀ q, Tells q (failureTest id t q) := fun q => by
    unfold failureTest
    split
    · split
      · exact tells_setPlanState _ _ _ q
      · exact .refl q
    · exact .refl q
  have isolates : ∀ q, Tells q (isolationTest id q) := fun q => by
    unfold isolationTest
    split
    · exact .refl q
    · split
      · unfold enterIsolated
        split
        · exact .refl q
        · dsimp only
          split
          · split
            · exact (tells_setPlanState _ _ _ q).trans (tells_makeSafe _ _ _)
            · exact tells_setPlanState _ _ _ q
          · exact tells_setPlanState _ _ _ q
      · exact .refl q
  exact (((breaks p).trans (cancels _)).trans (fails _)).trans (isolates _)

theorem tells_leaveReleaseOf (id v : Nat) (p : Part) : Tells p (leaveReleaseOf id v p) := by
  unfold leaveReleaseOf
  split
  · exact .refl p
  · split
    · dsimp only
      split
      · exact (tells_of_eq rfl rfl : Tells p (p.onPlan id _)).trans (tells_freePlan _ _)
      · exact tells_of_eq rfl rfl
    · exact .refl p

theorem tells_courseOf (t : Touched) (p : Part) : Tells p (courseOf t p) := by
  rw [courseOf_eq]
  refine Tells.trans ?_ (tells_foldl _ (fun _ _ => tells_testPlan _ _ _) _ _)
  unfold reopenedPart
  split
  · split
    · exact tells_leaveReleaseOf _ _ p
    · exact .refl p
  · exact .refl p

theorem tells_planCourse (ts : List Touched) (p : Part) : Tells p (planCourse ts p) :=
  tells_foldl _ (fun _ _ => tells_courseOf _ _) ts p

end

/-! ## Lines whose queues lose commands -/

/-- The outstations are as they were, and so is each line but that commands may have left its queue or been marked
withdrawn (R32). -/
structure Withdraws (p q : Part) : Prop where
  outstations : q.outstations = p.outstations
  line : ∀ n, q.line n = { p.line n with queue := (q.line n).queue }
  queue : ∀ n, ∀ c' ∈ (q.line n).queue, ∃ c ∈ (p.line n).queue, c'.outstation = c.outstation

section
variable {p q r : Part}

theorem withdraws_of_eq (outstations : q.outstations = p.outstations) (lines : q.lines = p.lines) : Withdraws p q := by
  have same : ∀ n, q.line n = p.line n := fun n => by rw [Part.line, Part.line, lines]
  exact ⟨outstations, fun n => by rw [same], fun n c mem => ⟨c, by rw [← same]; exact mem, rfl⟩⟩

theorem Withdraws.refl (p : Part) : Withdraws p p := withdraws_of_eq rfl rfl

theorem Withdraws.trans (h : Withdraws p q) (k : Withdraws q r) : Withdraws p r := by
  refine ⟨k.outstations.trans h.outstations, fun n => ?_, fun n c mem => ?_⟩
  · have := k.line n
    rw [h.line n] at this
    exact this
  · obtain ⟨c', mem', same⟩ := k.queue n c mem
    obtain ⟨c'', mem'', same'⟩ := h.queue n c' mem'
    exact ⟨c'', mem'', same.trans same'⟩

theorem withdraws_foldl {α : Type} (f : Part → α → Part) (hf : ∀ q a, Withdraws q (f q a)) (as : List α) (p : Part) :
    Withdraws p (as.foldl f p) := by
  induction as generalizing p with
  | nil => exact .refl p
  | cons a as ih => exact (hf p a).trans (ih _)

/-- An empty queue stays empty, and its line as it was. -/
theorem Withdraws.line_of_empty (h : Withdraws p q) {n : Nat} (empty : (p.line n).queue = []) : q.line n = p.line n := by
  have none_ : (q.line n).queue = [] := by
    refine List.eq_nil_iff_forall_not_mem.mpr fun c mem => ?_
    obtain ⟨c', mem', -⟩ := h.queue n c mem
    rw [empty] at mem'
    cases mem'
  rw [h.line n, none_, ← empty]

theorem line_onLine_cases (p : Part) (m n : Nat) (f : Line → Line) :
    (p.onLine n f).line m = f (p.line m) ∨ (p.onLine n f).line m = p.line m := by
  by_cases same : min m 3 = min n 3
  · have here : ∀ q : Part, q.line m = q.line n := fun q => by
      rw [Part.line, Part.line]
      obtain rfl | ⟨hm, hn⟩ : m = n ∨ (3 ≤ m ∧ 3 ≤ n) := by omega
      · rfl
      · obtain ⟨a, rfl⟩ := Nat.exists_eq_add_of_le' hm
        obtain ⟨b, rfl⟩ := Nat.exists_eq_add_of_le' hn
        rfl
    rw [here, here, Laws.line_onLine_same]
    exact .inl rfl
  · exact .inr (Laws.line_onLine_other p m n f same)

theorem withdraws_onLine (n : Nat) {f : Line → Line} (same : ∀ l, f l = { l with queue := (f l).queue })
    (fewer : ∀ l, ∀ c' ∈ (f l).queue, ∃ c ∈ l.queue, c'.outstation = c.outstation) (p : Part) :
    Withdraws p (p.onLine n f) := by
  refine ⟨rfl, fun m => ?_, fun m c mem => ?_⟩
  · rcases line_onLine_cases p m n f with h | h
    · rw [h]; exact same _
    · rw [h]
  · rcases line_onLine_cases p m n f with h | h
    · rw [h] at mem; exact fewer _ c mem
    · rw [h] at mem; exact ⟨c, mem, rfl⟩

theorem withdraws_withdrawCommand (v : Nat) (p : Part) : Withdraws p (withdrawCommand v p) := by
  unfold withdrawCommand
  split
  · exact .refl p
  · refine withdraws_onLine _ (fun l => rfl) (fun l c' mem => ?_) p
    rcases List.mem_append.mp mem with head | tail
    · obtain ⟨c, taken, rfl⟩ := List.mem_map.mp head
      refine ⟨c, List.mem_of_mem_take taken, ?_⟩
      split <;> rfl
    · exact ⟨c', List.mem_of_mem_drop (List.mem_of_mem_filter tail), rfl⟩

theorem withdraws_failOp (v : Nat) (reason : OpFailure) (p : Part) : Withdraws p (failOp v reason p) :=
  withdraws_of_eq (by simp) (by simp)

/-- The cancellation of a PENDING operation. -/
theorem withdraws_cancelOp {v : Nat} (pending : ∀ o, p.op? v = some o → o.live = true → o.state = .pending) :
    Withdraws p (cancelOp v p) := by
  unfold cancelOp
  split
  · exact .refl p
  next o ho =>
    split
    next live =>
      have failed := withdraws_failOp v .cancelled p
      dsimp only
      split
      · exact failed.trans (withdraws_withdrawCommand _ _)
      next acting => rw [pending o ho live] at acting; cases acting
      · exact failed
    · exact .refl p

theorem withdraws_cancelPending (id : Nat) (p : Part) : Withdraws p (cancelPending id p) := by
  have each : ∀ (vs : List Nat) (p : Part), (∀ v ∈ vs, ∀ o, p.op? v = some o → o.live = true → o.state = .pending) →
      Withdraws p (vs.foldl (fun p v => cancelOp v p) p) := by
    intro vs
    induction vs with
    | nil => exact fun p _ => .refl p
    | cons v rest ih =>
      intro p pending
      refine (withdraws_cancelOp (pending v List.mem_cons_self)).trans (ih _ fun u mem o ho live => ?_)
      rw [cancelOp_op?] at ho
      obtain ⟨o', ho', rfl⟩ := Option.map_eq_some_iff.mp ho
      split at live
      · cases live
      next stays =>
        rw [if_neg stays]
        exact pending u (List.mem_cons_of_mem _ mem) o' ho' live
  cases h : p.plans.get? id with
  | none =>
    have same : cancelPending id p = p := by simp only [cancelPending, h]
    rw [same]; exact .refl p
  | some x =>
    by_cases isolates : p.isolates x = true
    · rw [cancelPending_isolates h isolates]
      refine each _ p fun v mem o ho _ => ?_
      have test := (List.mem_filter.mp mem).2
      rw [ho, Option.any_some, Bool.and_eq_true] at test
      exact (of_decide_eq_true test.2).2
    · rw [cancelPending_stays h isolates]; exact .refl p

theorem withdraws_courseOf (t : Touched) (p : Part) : Withdraws p (courseOf t p) := by
  have isolates : ∀ id q, Withdraws q (isolationTest id q) := fun id q => by
    cases h : q.plans.get? id with
    | none =>
      have same : isolationTest id q = q := by simp only [isolationTest, h]
      rw [same]; exact .refl q
    | some x =>
      by_cases isolates : q.isolates x = true
      · rw [isolationTest_isolates h isolates]
        obtain ⟨lines, outstations, -⟩ := enterIsolated_spec h
        exact withdraws_of_eq outstations lines
      · rw [isolationTest_stays h isolates]; exact .refl q
  have test : ∀ q id, Withdraws q (testPlan id t q) := fun q id =>
    (((withdraws_of_eq (by simp) (by simp)).trans (withdraws_cancelPending id (breakTest id t.valve q))).trans
      (withdraws_of_eq (by simp) (by simp))).trans (isolates id _)
  rw [courseOf_eq]
  refine Withdraws.trans ?_ (withdraws_foldl _ test _ _)
  unfold reopenedPart
  split
  · split
    · exact withdraws_of_eq (by simp) (by simp)
    · exact .refl p
  · exact .refl p

theorem withdraws_planCourse (ts : List Touched) (p : Part) : Withdraws p (planCourse ts p) :=
  withdraws_foldl _ (fun _ _ => withdraws_courseOf _ _) ts p

end

end Sys2Proof.Proofs
end


section
/-!
Losses: the operations that fail with them, the points, the valves and the commands of an outstation that is lost (R38,
R47, R72, R114), and changes of communication states (R39).
-/

namespace Sys2Proof.Proofs

open Sys2Proof Sys2Proof.Machine

section
variable {p q : Part} {u v os : Nat} {o : Operation}

/-! ## FIELD operations that fail with COMMS -/

/-- A FIELD operation that is under way (R114). -/
def fieldLive (o : Operation) : Prop := o.mode = .field ∧ o.live = true

theorem failField_fails (ho : p.op? v = some o) (live : fieldLive o) : failField v p = (failOp v .comms p, [⟨v, true⟩]) := by
  simp only [failField, ho]
  exact if_pos (by simp [live.1, live.2])

theorem failField_stays (h : ∀ o, p.op? v = some o → ¬fieldLive o) : failField v p = (p, []) := by
  unfold failField
  split
  · rfl
  next o ho =>
    refine if_neg fun test => h o ho ?_
    rw [Bool.and_eq_true] at test
    exact ⟨of_decide_eq_true test.1, test.2⟩

theorem failField_cases (v : Nat) (p : Part) : (∃ o, p.op? v = some o ∧ fieldLive o ∧
    failField v p = (failOp v .comms p, [⟨v, true⟩])) ∨
    ((∀ o, p.op? v = some o → ¬fieldLive o) ∧ failField v p = (p, [])) := by
  by_cases h : ∃ o, p.op? v = some o ∧ fieldLive o
  · obtain ⟨o, ho, live⟩ := h
    exact .inl ⟨o, ho, live, failField_fails ho live⟩
  · have stays : ∀ o, p.op? v = some o → ¬fieldLive o := fun o ho live => h ⟨o, ho, live⟩
    exact .inr ⟨stays, failField_stays stays⟩

/-- The part that a fold over parts and lists leaves. -/
theorem foldl_part {α β : Type} (f : α → Part → Part × List β) (as : List α) (p : Part) (bs : List β) :
    (as.foldl (fun (p, bs) a => let (p, b) := f a p; (p, bs ++ b)) (p, bs)).1 = as.foldl (fun p a => (f a p).1) p := by
  induction as generalizing p bs with
  | nil => rfl
  | cons a as ih => exact ih _ _

theorem failFields_part (vs : List Nat) (p : Part) :
    (failFields vs p).1 = vs.foldl (fun p v => (failField v p).1) p := foldl_part failField vs p []

theorem works_failFields (vs : List Nat) (p : Part) : Works p (failFields vs p).1 := by
  rw [failFields_part]
  refine works_foldl _ (fun q v => ?_) vs p
  rcases failField_cases v q with ⟨o, -, -, same⟩ | ⟨-, same⟩
  · rw [same]; exact works_failOp v .comms q
  · rw [same]; exact .refl q

theorem withdraws_failFields (vs : List Nat) (p : Part) : Withdraws p (failFields vs p).1 := by
  rw [failFields_part]
  refine withdraws_foldl _ (fun q v => ?_) vs p
  rcases failField_cases v q with ⟨o, -, -, same⟩ | ⟨-, same⟩
  · rw [same]; exact withdraws_failOp v .comms q
  · rw [same]; exact .refl q

/-- The notices that failing operations place (R114). -/
theorem failFields_told (vs : List Nat) : ∀ p : Part, ∃ failed : List Notice,
    (failFields vs p).1.link = failed.foldl (fun l x => l.place p.time x) p.link ∧
    (∀ x ∈ failed, ∃ v a origin, x = .valveFailed v a origin .field .comms) ∧ (vs = [] → failed = []) := by
  intro p
  rw [failFields_part]
  induction vs generalizing p with
  | nil => exact ⟨[], rfl, fun _ mem => absurd mem List.not_mem_nil, fun _ => rfl⟩
  | cons v rest ih =>
    rw [List.foldl_cons]
    rcases failField_cases v p with ⟨o, ho, live, same⟩ | ⟨-, same⟩
    · rw [same]
      obtain ⟨failed, link, all, -⟩ := ih (failOp v .comms p)
      have first : (failOp v .comms p).link = p.link.place p.time (.valveFailed v o.action o.origin .field .comms) := by
        rw [failOp_eq ho]
        dsimp only
        rw [if_neg (by simp [live.1]), live.1]
        rfl
      refine ⟨.valveFailed v o.action o.origin .field .comms :: failed, ?_, fun x mem => ?_, fun none_ => by cases none_⟩
      · rw [link, first, (works_failOp v .comms p).time]
        rfl
      · rcases List.mem_cons.mp mem with rfl | mem
        · exact ⟨_, _, _, rfl⟩
        · exact all x mem
    · rw [same]
      obtain ⟨failed, link, all, -⟩ := ih p
      exact ⟨failed, link, all, fun none_ => by cases none_⟩

theorem tells_failFields (vs : List Nat) (p : Part) : Tells p (failFields vs p).1 := by
  obtain ⟨failed, link, all, -⟩ := failFields_told vs p
  refine ⟨by rw [(works_failFields vs p).frame], failed, link, fun x mem => ?_⟩
  obtain ⟨_, _, _, rfl⟩ := all x mem
  simp [notComm]

open Classical in
/-- The operations that fail with their valves (R114). -/
theorem failFields_op? (vs : List Nat) (u : Nat) : ∀ p : Part, (failFields vs p).1.op? u = (p.op? u).map fun o =>
    if u ∈ vs ∧ fieldLive o then Operation.ended o (.failed .comms) p.time else o := by
  intro p
  rw [failFields_part]
  induction vs generalizing p with
  | nil => simp
  | cons v rest ih =>
    rw [List.foldl_cons, ih]
    rcases failField_cases v p with ⟨o, ho, live, same⟩ | ⟨stays, same⟩
    · rw [same, failOp_op?, (works_failOp v .comms p).time]
      by_cases here : u = v
      · subst here
        have dead : ¬fieldLive (Operation.ended o (.failed .comms) p.time) := fun k => by cases k.2
        rw [ho]
        simp [live, dead]
      · simp [here]
    · rw [same]
      by_cases here : u = v
      · subst here
        cases ho : p.op? u with
        | none => rfl
        | some o => simp [stays o ho]
      · simp [here]

/-! ## Pressure states written -/

theorem writePressures_part (segments : List Nat) (p : Part) :
    (writePressures segments p).1 = segments.foldl (fun p seg => (writePressure seg p).1) p := by
  have any_ : ∀ bs, (segments.foldl (fun (p, changed) seg =>
      let (p, c) := writePressure seg p
      (p, if c then changed ++ [seg] else changed)) (p, bs)).1 =
        segments.foldl (fun p seg => (writePressure seg p).1) p := by
    induction segments generalizing p with
    | nil => exact fun _ => rfl
    | cons s rest ih => exact fun bs => ih (writePressure s p).1 _
  exact any_ []

theorem writePressures_frame (segments : List Nat) (p : Part) :
    (writePressures segments p).1 = { p with segments := (writePressures segments p).1.segments } := by
  rw [writePressures_part]
  induction segments generalizing p with
  | nil => rfl
  | cons s rest ih =>
    rw [List.foldl_cons]
    have first : (writePressure s p).1 = { p with segments := (writePressure s p).1.segments } := by
      unfold writePressure
      split
      · rfl
      · dsimp only
        split <;> rfl
    have := ih (writePressure s p).1
    rw [this]
    rw [first]

/-! ## The loss of an outstation (R38) -/

/-- A point after the loss of an outstation (R47). -/
def Point.lostWith (os : Nat) (pt : Point) : Point := if pt.outstation = os then pt.lost else pt

/-- A valve's record after the loss of an outstation (R72). -/
def Valve.lostWith (os : Nat) (x : Valve) : Valve :=
  if x.actuated = true ∧ x.outstation = os then { x with position := .unknown } else x

theorem losePoints_frame (os : Nat) (p : Part) : (losePoints os p).1 = { p with
    points := p.points.map fun _ pt => Point.lostWith os pt, segments := (losePoints os p).1.segments } :=
  writePressures_frame _ _

theorem losePositions_get? (os : Nat) (p : Part) (v : Nat) :
    (losePositions os p).valves.get? v = (p.valves.get? v).map (Valve.lostWith os) := by
  simp only [losePositions, Laws.get?_map]
  refine congrArg (fun f => (p.valves.get? v).map f) (funext fun x => if_congr ?_ rfl rfl)
  rw [Bool.and_eq_true, decide_eq_true_eq]

theorem losePositions_op? (os : Nat) (p : Part) (v : Nat) : (losePositions os p).op? v = p.op? v := by
  rw [Part.op?, losePositions_get?, Part.op?, Option.bind_map]
  refine congrArg (fun f => (p.valves.get? v).bind f) (funext fun x => ?_)
  simp only [Function.comp, Valve.lostWith]
  split <;> rfl

/-- The commands of an outstation leave its line's queue. -/
def unqueued (os : Nat) (p : Part) : Part :=
  p.onLine (lineOf os) fun l => { l with queue := l.queue.filter fun c => c.outstation != os }

/-- The part once the operations of a lost outstation's commands have failed. -/
def unheard (os : Nat) (p : Part) : Part :=
  (failFields (reportedValves ((p.line (lineOf os)).queue.filter fun c => c.outstation = os)) (unqueued os p)).1

/-- The part once the points and the positions of a lost outstation are unknown. -/
def unseen (os : Nat) (mark : Bool) (p : Part) : Part :=
  losePositions os (if mark then markSegments (losePoints os p).2 (losePoints os p).1 else (losePoints os p).1)

theorem loseOutstation_eq (os : Nat) (mark : Bool) (p : Part) : (loseOutstation os mark p).1 =
    (failFields ((unseen os mark (unheard os p)).valvesOf os) (unseen os mark (unheard os p))).1 := rfl

theorem markSegments_frame (ids : List Nat) (p : Part) : ∃ link segments,
    markSegments ids p = { p with link := link, segments := segments } := by
  rw [markSegments]
  generalize sortIds ids = ks
  induction ks generalizing p with
  | nil => exact ⟨_, _, rfl⟩
  | cons k rest ih =>
    rw [List.foldl_cons]
    obtain ⟨link, segments, first⟩ : ∃ link segments, markSegment k p = { p with link := link, segments := segments } := by
      unfold markSegment
      split
      · exact ⟨_, _, rfl⟩
      · split
        · exact ⟨_, _, rfl⟩
        · dsimp only
          split <;> exact ⟨_, _, rfl⟩
    obtain ⟨link', segments', later⟩ := ih (markSegment k p)
    exact ⟨link', segments', by rw [later, first]⟩

theorem unseen_frame (os : Nat) (mark : Bool) (p : Part) : ∃ link segments, unseen os mark p = { p with
    link := link, points := p.points.map fun _ pt => Point.lostWith os pt
    segments := segments, valves := (losePositions os p).valves } := by
  obtain ⟨link, segments, frame⟩ : ∃ link segments, (if mark then markSegments (losePoints os p).2 (losePoints os p).1
      else (losePoints os p).1) = { p with
        link := link, points := p.points.map fun _ pt => Point.lostWith os pt, segments := segments } := by
    split
    · obtain ⟨link, segments, marked⟩ := markSegments_frame (losePoints os p).2 (losePoints os p).1
      exact ⟨link, segments, by rw [marked, losePoints_frame]⟩
    · exact ⟨p.link, _, losePoints_frame os p⟩
  exact ⟨link, segments, by rw [unseen, frame]; rfl⟩

theorem tells_unseen (os : Nat) (mark : Bool) (p : Part) : Tells p (unseen os mark p) := by
  have points : Tells p (losePoints os p).1 := by
    rw [losePoints_frame]
    exact tells_of_eq rfl rfl
  have inner : Tells p (if mark then markSegments (losePoints os p).2 (losePoints os p).1 else (losePoints os p).1) := by
    split
    · exact points.trans (tells_markSegments _ _)
    · exact points
  exact inner.trans (tells_of_eq rfl rfl)

theorem withdraws_unseen (os : Nat) (mark : Bool) (p : Part) : Withdraws p (unseen os mark p) := by
  obtain ⟨link, segments, frame⟩ := unseen_frame os mark p
  exact withdraws_of_eq (by rw [frame]) (by rw [frame])

theorem withdraws_unqueued (os : Nat) (p : Part) : Withdraws p (unqueued os p) :=
  withdraws_onLine _ (fun _ => rfl) (fun _ c mem => ⟨c, List.mem_of_mem_filter mem, rfl⟩) p

theorem tells_loseOutstation (os : Nat) (mark : Bool) (p : Part) : Tells p (loseOutstation os mark p).1 := by
  rw [loseOutstation_eq]
  exact (((tells_of_eq rfl rfl : Tells p (unqueued os p)).trans (tells_failFields _ _)).trans
    (tells_unseen os mark _)).trans (tells_failFields _ _)

theorem withdraws_loseOutstation (os : Nat) (mark : Bool) (p : Part) : Withdraws p (loseOutstation os mark p).1 := by
  rw [loseOutstation_eq]
  exact (((withdraws_unqueued os p).trans (withdraws_failFields _ _)).trans (withdraws_unseen os mark _)).trans
    (withdraws_failFields _ _)

theorem loseOutstation_points (os : Nat) (mark : Bool) (p : Part) :
    (loseOutstation os mark p).1.points = p.points.map fun _ pt => Point.lostWith os pt := by
  obtain ⟨link, segments, frame⟩ := unseen_frame os mark (unheard os p)
  have before : (unheard os p).points = p.points := by
    rw [unheard, (works_failFields _ _).frame]; rfl
  rw [loseOutstation_eq, (works_failFields _ _).frame, frame, before]

theorem loseOutstation_bare (os : Nat) (mark : Bool) (p : Part) (v : Nat) :
    (loseOutstation os mark p).1.bare v = (p.bare v).map (Valve.lostWith os) := by
  obtain ⟨link, segments, frame⟩ := unseen_frame os mark (unheard os p)
  have before : (unheard os p).bare v = p.bare v := (works_failFields _ _).bare v
  rw [loseOutstation_eq, (works_failFields _ _).bare, ← before]
  rw [Part.bare, frame, losePositions_get?, Part.bare, Option.map_map, Option.map_map]
  refine congrArg (fun f => ((unheard os p).valves.get? v).map f) (funext fun x => ?_)
  simp only [Function.comp, Valve.lostWith]
  split <;> rfl

theorem loseOutstation_time (os : Nat) (mark : Bool) (p : Part) : (loseOutstation os mark p).1.time = p.time := by
  rw [Part.time, (tells_loseOutstation os mark p).clock, ← Part.time]

/-! ## Points and valves after some losses -/

theorem lost_stale (pt : Point) : pt.lost.quality = .stale ∧ pt.lost.outstation = pt.outstation := by
  unfold Point.lost
  split
  next h => exact ⟨h, rfl⟩
  · exact ⟨rfl, rfl⟩

section
variable (f : Part → Nat → Part)

/-- Points on any of some lost outstations are STALE. -/
theorem losses_points (hf : ∀ q os, (f q os).points = q.points.map fun _ pt => Point.lostWith os pt) (ids : List Nat)
    {id : Nat} {pt : Point} : ∀ p : Part, p.points.get? id = some pt → pt.outstation ∈ ids ∨ pt.quality = .stale →
      ∃ pt', (ids.foldl f p).points.get? id = some pt' ∧ pt'.quality = .stale := by
  induction ids generalizing pt with
  | nil =>
    intro p h lost
    exact ⟨pt, h, lost.resolve_left List.not_mem_nil⟩
  | cons os rest ih =>
    intro p h lost
    rw [List.foldl_cons]
    have now : (f p os).points.get? id = some (Point.lostWith os pt) := by rw [hf, Laws.get?_map, h]; rfl
    refine ih (f p os) now ?_
    obtain ⟨stale, same⟩ := lost_stale pt
    unfold Point.lostWith
    split
    · exact .inr stale
    next other =>
      rcases lost with mem | stale
      · exact .inl ((List.mem_cons.mp mem).resolve_left other)
      · exact .inr stale

/-- Valves on any of some lost outstations have position UNKNOWN, the last ends kept. -/
theorem losses_valves (hf : ∀ q os v, (f q os).bare v = (q.bare v).map (Valve.lostWith os)) (ids : List Nat) {v : Nat}
    {x : Valve} : ∀ p : Part, p.bare v = some x → x.actuated = true → x.outstation ∈ ids ∨ x.position = .unknown →
      ∃ x', (ids.foldl f p).bare v = some x' ∧ x'.position = .unknown ∧ x'.lastEnd = x.lastEnd := by
  induction ids generalizing x with
  | nil =>
    intro p h _ lost
    exact ⟨x, h, lost.resolve_left List.not_mem_nil, rfl⟩
  | cons os rest ih =>
    intro p h actuated lost
    rw [List.foldl_cons]
    have now : (f p os).bare v = some (Valve.lostWith os x) := by rw [hf, h]; rfl
    by_cases here : x.outstation = os
    · have lost' : Valve.lostWith os x = { x with position := .unknown } := if_pos ⟨actuated, here⟩
      rw [lost'] at now
      exact ih (x := { x with position := .unknown }) (f p os) now actuated (.inr rfl)
    · have kept : Valve.lostWith os x = x := if_neg fun both => here both.2
      rw [kept] at now
      exact ih (f p os) now actuated (lost.imp (fun mem => (List.mem_cons.mp mem).resolve_left here) fun k => k)

end

/-! ## Changes of communication states (R39) -/

theorem setComm_cases {f : Outstation → Outstation} {x : Outstation} (h : p.outstations.get? os = some x) (cause : CommCause) :
    setComm os f cause p = if (f x).comm = x.comm then { p with outstations := p.outstations.set os (f x) } else
      place (.outstationState os x.comm (f x).comm (f x).failures cause)
        { p with outstations := p.outstations.set os (f x) } := by
  simp only [setComm, h]

theorem setComm_undefined {f : Outstation → Outstation} (h : p.outstations.get? os = none) (cause : CommCause) :
    setComm os f cause p = p := by
  simp only [setComm, h]

theorem setComm_get? (os : Nat) (f : Outstation → Outstation) (cause : CommCause) (p : Part) (k : Nat) :
    (setComm os f cause p).outstations.get? k =
      if k = os then (p.outstations.get? os).map f else p.outstations.get? k := by
  cases h : p.outstations.get? os with
  | none =>
    rw [setComm_undefined h]
    split
    next here => rw [here, h]; rfl
    · rfl
  | some x =>
    have set_ : (setComm os f cause p).outstations = p.outstations.set os (f x) := by
      rw [setComm_cases h]
      split <;> rfl
    rw [set_, get?_set]
    rfl

theorem setComm_frame (os : Nat) (f : Outstation → Outstation) (cause : CommCause) (p : Part) : ∃ link outstations,
    setComm os f cause p = { p with link := link, outstations := outstations } := by
  unfold setComm
  split
  · exact ⟨_, _, rfl⟩
  · dsimp only
    split <;> exact ⟨_, _, rfl⟩

/-- Changes of some outstations, one after another. -/
theorem setComms_get? {f : Outstation → Outstation} (twice : ∀ x, f (f x) = f x) (cause : CommCause) (ids : List Nat)
    (k : Nat) : ∀ p : Part, (ids.foldl (fun p os => setComm os f cause p) p).outstations.get? k =
      (p.outstations.get? k).map fun x => if k ∈ ids then f x else x := by
  induction ids with
  | nil => intro p; simp
  | cons os rest ih =>
    intro p
    rw [List.foldl_cons, ih, setComm_get?]
    by_cases here : k = os
    · subst here
      simp [Option.map_map, Function.comp_def, twice]
    · simp [here]

theorem setComms_frame (f : Outstation → Outstation) (cause : CommCause) (ids : List Nat) (p : Part) :
    ∃ link outstations, ids.foldl (fun p os => setComm os f cause p) p =
      { p with link := link, outstations := outstations } := by
  induction ids generalizing p with
  | nil => exact ⟨_, _, rfl⟩
  | cons os rest ih =>
    obtain ⟨link, outstations, frame⟩ := ih (setComm os f cause p)
    obtain ⟨link', outstations', first⟩ := setComm_frame os f cause p
    exact ⟨link, outstations, by rw [List.foldl_cons, frame, first]⟩

/-- The notices of changes of some outstations. -/
theorem setComms_link {f : Outstation → Outstation} (cause : CommCause) {ids : List Nat} : ∀ p : Part, ids.Nodup →
    (ids.foldl (fun p os => setComm os f cause p) p).link = (ids.filterMap fun os => (p.outstations.get? os).bind fun x =>
      if (f x).comm = x.comm then none
      else some (Notice.outstationState os x.comm (f x).comm (f x).failures cause)).foldl
        (fun l x => l.place p.time x) p.link := by
  induction ids with
  | nil => intro p _; rfl
  | cons os rest ih =>
    intro p once
    obtain ⟨fresh, once⟩ := List.nodup_cons.mp once
    have others : ∀ k ∈ rest, (setComm os f cause p).outstations.get? k = p.outstations.get? k := fun k mem => by
      rw [setComm_get?, if_neg fun same : k = os => fresh (same ▸ mem)]
    have time : (setComm os f cause p).time = p.time := by
      obtain ⟨link, outstations, frame⟩ := setComm_frame os f cause p
      rw [frame]; rfl
    rw [List.foldl_cons, ih _ once, time]
    have same : (rest.filterMap fun k => ((setComm os f cause p).outstations.get? k).bind fun x =>
        if (f x).comm = x.comm then none
        else some (Notice.outstationState k x.comm (f x).comm (f x).failures cause)) =
        rest.filterMap fun k => (p.outstations.get? k).bind fun x => if (f x).comm = x.comm then none
        else some (Notice.outstationState k x.comm (f x).comm (f x).failures cause) :=
      List.filterMap_congr fun k mem => by rw [others k mem]
    rw [same]
    cases h : p.outstations.get? os with
    | none => rw [setComm_undefined h, List.filterMap_cons, h]; rfl
    | some x =>
      rw [setComm_cases h, List.filterMap_cons, h, Option.bind_some]
      by_cases stays : (f x).comm = x.comm
      · rw [if_pos stays, if_pos stays]
      · rw [if_neg stays, if_neg stays]
        rfl

end

end Sys2Proof.Proofs
end


section
/-!
HOLD_LINE and FREE_LINE (R39, R40, R41).
-/

namespace Sys2Proof.Proofs

open Sys2Proof Sys2Proof.Machine

section
variable {p : Part} {n os v : Nat}

/-! ## HOLD_LINE -/

/-- An outstation entering HELD (R40). -/
def Outstation.enteringHeld (o : Outstation) : Outstation := { o with comm := .held }

/-- A line as HOLD_LINE leaves it (R40). -/
def heldLine (now : Nat) (l : Line) : Line := { l.quieted now with holdFlag := true, cond := .held, queue := [], run := 0 }

/-- The part once the operations of the emptied queue have failed (R40, step 3). -/
def emptied (n : Nat) (p : Part) : Part :=
  (failFields (reportedValves (p.line n).queue) (p.onLine n (heldLine p.clock))).1

/-- The part once the outstations of the line are HELD and lost (R40, step 4). -/
def lostLine (n : Nat) (p : Part) : Part :=
  ((emptied n p).outstationsOf n).foldl (fun p os => (loseOutstation os false p).1) (enterHeld n (emptied n p))

theorem loseHelds_part (ids : List Nat) : ∀ acc : Part × List Touched × List Nat,
    (ids.foldl (fun acc os => loseHeld os acc) acc).1 = ids.foldl (fun p os => (loseOutstation os false p).1) acc.1 := by
  induction ids with
  | nil => exact fun _ => rfl
  | cons os rest ih =>
    intro acc
    have first : (loseHeld os acc).1 = (loseOutstation os false acc.1).1 := by
      obtain ⟨p, ts, changed⟩ := acc
      unfold loseHeld
      dsimp only
    rw [List.foldl_cons, List.foldl_cons, ih, first]

theorem holdLine_eq (n : Nat) (p : Part) : ∃ ts changed,
    holdLine n p = planCourse ts (markSegments changed (lostLine n p)) := by
  unfold holdLine lostLine emptied heldLine
  dsimp only
  generalize (failFields (reportedValves (p.line n).queue) (p.onLine n _)) = f
  obtain ⟨q, ts⟩ := f
  dsimp only
  rw [← loseHelds_part (q.outstationsOf n) (enterHeld n q, ts, [])]
  generalize (q.outstationsOf n).foldl (fun acc os => loseHeld os acc) (enterHeld n q, ts, []) = r
  obtain ⟨l, ts', changed⟩ := r
  exact ⟨ts', changed, rfl⟩

theorem markSegments_lines (ids : List Nat) (p : Part) : Withdraws p (markSegments ids p) := by
  obtain ⟨link, segments, frame⟩ := markSegments_frame ids p
  exact withdraws_of_eq (by rw [frame]) (by rw [frame])

theorem emptied_frame (n : Nat) (p : Part) : Works (p.onLine n (heldLine p.clock)) (emptied n p) := works_failFields _ _

theorem emptied_outstations (n : Nat) (p : Part) : (emptied n p).outstations = p.outstations :=
  (withdraws_failFields _ (p.onLine n (heldLine p.clock))).outstations

theorem entered_frame (n : Nat) (p : Part) : ∃ link outstations,
    enterHeld n p = { p with link := link, outstations := outstations } :=
  setComms_frame Outstation.enteringHeld .hold (p.outstationsOf n) p

/-- What happens after the communication states are HELD: losses, marks and tests. -/
theorem holdLine_after (n : Nat) (p : Part) : Withdraws (enterHeld n (emptied n p)) (holdLine n p) ∧
    Tells (enterHeld n (emptied n p)) (holdLine n p) := by
  obtain ⟨ts, changed, eq⟩ := holdLine_eq n p
  rw [eq]
  refine ⟨?_, ?_⟩
  · exact ((withdraws_foldl _ (fun _ _ => withdraws_loseOutstation _ _ _) _ _).trans (markSegments_lines _ _)).trans
      (withdraws_planCourse _ _)
  · exact ((tells_foldl _ (fun _ _ => tells_loseOutstation _ _ _) _ _).trans (tells_markSegments _ _)).trans
      (tells_planCourse _ _)

theorem holdLine_line (n : Nat) (p : Part) : (holdLine n p).line n = { p.line n with
    holdFlag := true, cond := .held, queue := [], run := 0
    phase := match (p.line n).txn? with
      | some t => .quiet p.clock t.rate
      | none => (p.line n).phase } := by
  have first : (emptied n p).line n = (p.onLine n (heldLine p.clock)).line n :=
    (withdraws_failFields _ _).line_of_empty (by rw [Laws.line_onLine_same]; rfl)
  have second : (enterHeld n (emptied n p)).line n = (emptied n p).line n := by
    obtain ⟨link, outstations, frame⟩ := entered_frame n (emptied n p)
    rw [frame]; rfl
  have held : (enterHeld n (emptied n p)).line n = heldLine p.clock (p.line n) := by
    rw [second, first, Laws.line_onLine_same]
  rw [(holdLine_after n p).1.line_of_empty (by rw [held]; rfl), held]
  unfold heldLine Line.quieted
  cases (p.line n).txn? <;> rfl

theorem enterHeld_link (w : p.outstations.wf 64 = true) : (enterHeld n p).link =
    ((p.outstationsOf n).filterMap fun os => (p.outstations.get? os).bind fun o =>
      if o.comm = .held then none else some (Notice.outstationState os o.comm .held o.failures .hold)).foldl
        (fun l x => l.place p.time x) p.link := by
  have spec := setComms_link (f := Outstation.enteringHeld) .hold (ids := p.outstationsOf n) p (idsWhere_nodup w _)
  have same : ((p.outstationsOf n).filterMap fun os => (p.outstations.get? os).bind fun x =>
      if (Outstation.enteringHeld x).comm = x.comm then none
      else some (Notice.outstationState os x.comm (Outstation.enteringHeld x).comm (Outstation.enteringHeld x).failures
        .hold)) = (p.outstationsOf n).filterMap fun os => (p.outstations.get? os).bind fun o =>
      if o.comm = .held then none else some (Notice.outstationState os o.comm .held o.failures .hold) :=
    List.filterMap_congr fun os _ => congrArg (Option.bind _) (funext fun o => if_congr eq_comm rfl rfl)
  rw [same] at spec
  exact spec

theorem holdLine_link (w : p.outstations.wf 64 = true) : ∃ failed rest : List Notice,
    let told := (p.outstationsOf n).filterMap fun os => (p.outstations.get? os).bind fun o =>
      if o.comm = .held then none else some (Notice.outstationState os o.comm .held o.failures .hold)
    (holdLine n p).link = (failed ++ (told ++ rest)).foldl (fun l x => l.place p.time x) p.link ∧
    (∀ x ∈ failed, ∃ v a origin, x = .valveFailed v a origin .field .comms) ∧ ((p.line n).queue = [] → failed = []) ∧
    ∀ x ∈ rest, ∀ os a b f c, x ≠ .outstationState os a b f c := by
  obtain ⟨failed, first, all, none_⟩ := failFields_told (reportedValves (p.line n).queue) (p.onLine n (heldLine p.clock))
  obtain ⟨-, rest, last, quiet⟩ := (holdLine_after n p).2
  refine ⟨failed, rest, ?_, all, fun empty => none_ (by rw [empty]; rfl), quiet⟩
  have ids : (emptied n p).outstationsOf n = p.outstationsOf n := by
    rw [Part.outstationsOf, emptied_outstations]; rfl
  have time : (emptied n p).time = p.time := (emptied_frame n p).time
  have entered := enterHeld_link (n := n) (p := emptied n p) (by rw [emptied_outstations]; exact w)
  rw [ids, time, emptied_outstations] at entered
  have time' : (enterHeld n (emptied n p)).time = p.time := by
    obtain ⟨link, outstations, frame⟩ := entered_frame n (emptied n p)
    rw [frame]; exact time
  have emptied_link : (emptied n p).link = failed.foldl (fun l x => l.place p.time x) p.link := first
  rw [last, time', entered, emptied_link, List.foldl_append, List.foldl_append]

theorem mem_outstationsOf {o : Outstation} (h : p.outstations.get? os = some o) (line : os / 16 = n) :
    os ∈ p.outstationsOf n :=
  List.mem_map.mpr ⟨(os, o), List.mem_filter.mpr ⟨Laws.mem_of_get? _ _ _ h, decide_eq_true line⟩, rfl⟩

theorem holdLine_outstation {o : Outstation} (h : p.outstations.get? os = some o) (line : os / 16 = n) :
    (holdLine n p).outstations.get? os = some { o with comm := .held } := by
  have spec := setComms_get? (f := Outstation.enteringHeld) (fun _ => rfl) .hold ((emptied n p).outstationsOf n) os (emptied n p)
  have mem : os ∈ (emptied n p).outstationsOf n := by
    refine mem_outstationsOf (o := o) ?_ line
    rw [emptied_outstations]; exact h
  rw [(holdLine_after n p).1.outstations]
  refine (show (enterHeld n (emptied n p)).outstations.get? os = _ from spec).trans ?_
  rw [emptied_outstations, h, Option.map_some, if_pos mem]
  rfl

theorem holdLine_lost {o : Outstation} (h : p.outstations.get? os = some o) (line : os / 16 = n) :
    (∀ id pt, p.points.get? id = some pt → pt.outstation = os →
      ∃ pt', (holdLine n p).points.get? id = some pt' ∧ pt'.quality = .stale) ∧
    (∀ v valve, p.valves.get? v = some valve → valve.actuated = true → valve.outstation = os →
      ∃ valve', (holdLine n p).valves.get? v = some valve' ∧ valve'.position = .unknown ∧
        valve'.lastEnd = valve.lastEnd) := by
  obtain ⟨ts, changed, eq⟩ := holdLine_eq n p
  obtain ⟨link, outstations, entered⟩ := entered_frame n (emptied n p)
  obtain ⟨link', segments, marked⟩ := markSegments_frame changed (lostLine n p)
  have course := courses_planCourse ts (markSegments changed (lostLine n p))
  have mem : os ∈ (emptied n p).outstationsOf n := by
    refine mem_outstationsOf (o := o) ?_ line
    rw [emptied_outstations]; exact h
  have points : (holdLine n p).points = (lostLine n p).points := by rw [eq, course.frame, marked]
  have bare : ∀ v, (holdLine n p).bare v = (lostLine n p).bare v := fun v => by
    rw [eq, course.bare]
    exact bare_of_valves (by rw [marked]) v
  refine ⟨fun id pt hpt here => ?_, fun v valve hv actuated here => ?_⟩
  · rw [points]
    refine losses_points (fun p os => (loseOutstation os false p).1) (fun q k => loseOutstation_points k false q) _ _
      (pt := pt) ?_ (.inl (here ▸ mem))
    rw [entered, (emptied_frame n p).frame]
    exact hpt
  · have before : (enterHeld n (emptied n p)).bare v = some { valve with operation := none } := by
      rw [bare_of_valves (p := emptied n p) (by rw [entered]), (emptied_frame n p).bare]
      exact (congrArg (Option.map _) hv)
    obtain ⟨x, hx, unknown, last⟩ := losses_valves (fun p os => (loseOutstation os false p).1)
      (fun q k u => loseOutstation_bare k false q u) ((emptied n p).outstationsOf n) _ before actuated (.inl (here ▸ mem))
    have now := (bare v).trans hx
    obtain ⟨y, hy, same⟩ := Option.map_eq_some_iff.mp now
    refine ⟨y, hy, ?_, ?_⟩
    · rw [← unknown, ← same]
    · rw [← same] at last; exact last

theorem holdLineRule_act {b : List Byte} (n_eq : u8 b 0 = n) (hn : n < 4) (free : (p.line n).cond ≠ .held) :
    holdLineRule.act b p = ⟨.ok, [], dispatchDecide (holdLine n p)⟩ := by
  simp only [holdLineRule, n_eq]
  rw [if_neg (by omega), if_neg free]
  rfl

/-! ## FREE_LINE -/

/-- An outstation freed (R41). -/
def Outstation.freed (o : Outstation) : Outstation := { o with comm := .unknown, failures := 0, busy := 0 }

/-- The part with a line's hold flag clear and its outstations freed (R41). -/
def unhelded (n : Nat) (p : Part) : Part :=
  (p.outstationsOf n).foldl (fun p os => setComm os Outstation.freed .free p) (p.onLine n fun l => { l with holdFlag := false })

theorem freeLine_eq (n : Nat) (p : Part) : freeLine n p = startLine n (unhelded n p) := rfl

theorem unhelded_frame (n : Nat) (p : Part) : ∃ link outstations,
    unhelded n p = { (p.onLine n fun l => { l with holdFlag := false }) with link := link, outstations := outstations } :=
  setComms_frame Outstation.freed .free _ _

theorem unhelded_get? (n : Nat) (p : Part) (k : Nat) : (unhelded n p).outstations.get? k =
    (p.outstations.get? k).map fun x => if k ∈ p.outstationsOf n then Outstation.freed x else x :=
  setComms_get? (f := Outstation.freed) (fun _ => rfl) .free _ k _

/-- A start leaves every outstation but for a sequence bit. -/
theorem startLine_outstation {o : Outstation} (h : p.outstations.get? os = some o) :
    ∃ b, (startLine n p).outstations.get? os = some { o with seqBit := b } := by
  have turn : ∀ q : Part, q.outstations = p.outstations →
      ∃ b, (takeTurn n q).outstations.get? os = some { o with seqBit := b } := fun q same => by
    have kept : ∃ b, q.outstations.get? os = some { o with seqBit := b } := ⟨o.seqBit, by rw [same]; exact h⟩
    have sent : ∃ b, (sendCommand n q).outstations.get? os = some { o with seqBit := b } := by
      unfold sendCommand
      split
      · exact kept
      next c rest _ =>
        dsimp only
        split
        · rw [Laws.onLine_outstations]
          simp only [Part.onOutstation, get?_modify]
          split
          · exact ⟨_, by rw [same, h]; rfl⟩
          · obtain ⟨b, hb⟩ := kept
            exact ⟨b, by rw [hb]; rfl⟩
        · exact kept
    unfold takeTurn
    dsimp only
    split
    · split
      · exact sent
      · split
        · exact kept
        · exact kept
    · split
      · exact sent
      · exact kept
    all_goals exact kept
  have kept : ∃ b, p.outstations.get? os = some { o with seqBit := b } := ⟨o.seqBit, h⟩
  have started : (startCycle n 0 p).outstations = p.outstations := by rw [startCycle_eq]; rfl
  unfold startLine
  split
  · exact kept
  · dsimp only
    split
    · exact turn _ started
    · rw [started]; exact kept

theorem freeLineRule_act {b : List Byte} (n_eq : u8 b 0 = n) (hn : n < 4) (held : (p.line n).cond = .held) :
    freeLineRule.act b p = ⟨.ok, [], freeLine n p⟩ := by
  simp only [freeLineRule, n_eq]
  rw [if_neg (by omega), if_neg (by simp [held])]
  rfl

/-- A line with a quiet time to pass (R20). -/
theorem quietOver_quiet {since rate : Nat} (phase : (p.line n).phase = .quiet since rate) :
    p.quietOver n = decide (since + 2 * charTicks rate ≤ p.clock) := by
  simp only [Part.quietOver, phase]

theorem startLine_holdFlag (n : Nat) (p : Part) : ((startLine n p).line n).holdFlag = (p.line n).holdFlag := by
  have started : ((startCycle n 0 p).line n).holdFlag = (p.line n).holdFlag := by
    rw [startCycle_eq, Laws.line_onLine_same]
    split <;> rfl
  by_cases none_ : p.outstationsOf n = []
  · rw [startLine_empty none_, Laws.line_onLine_same]
  · rw [startLine_eq none_]
    split
    · exact (takeTurn_line (·.holdFlag) (fun _ _ _ _ _ => rfl) n _).trans started
    · exact started

theorem unhelded_wf (n : Nat) (w : p.outstations.wf 64 = true) : (unhelded n p).outstations.wf 64 = true := by
  have each : ∀ (ids : List Nat) (p : Part), p.outstations.wf 64 = true →
      (ids.foldl (fun p os => setComm os Outstation.freed .free p) p).outstations.wf 64 = true := by
    intro ids
    induction ids with
    | nil => exact fun _ w => w
    | cons os rest ih =>
      refine fun p w => ih _ ?_
      dsimp only
      cases h : p.outstations.get? os with
      | none => rw [setComm_undefined h]; exact w
      | some o =>
        have set_ := Laws.wf_set_used _ _ _ (Outstation.freed o) _ w h
        rw [setComm_cases h]
        split <;> exact set_
  exact each _ _ w

/-- The line that FREE_LINE starts (R41). -/
theorem freeLine_line (n : Nat) (p : Part) :
    ((freeLine n p).line n).holdFlag = false ∧ (p.outstationsOf n = [] → ((freeLine n p).line n).cond = .idle) ∧
    ∀ os rest, p.outstationsOf n = os :: rest → p.outstations.wf 64 = true →
      let l : Line := { p.line n with
        holdFlag := false, cond := .cycling, cycle := 0, cycleStart := p.clock, cyclePeriod := (p.line n).period
        nextDrop := 1 }
      ((freeLine n p).line n).cond = .cycling ∧ ((freeLine n p).line n).cycle = 0 ∧
      ((freeLine n p).line n).cycleStart = p.clock ∧
      ((p.line n).queue = [] → ((p.line n).phase = .idle ∨
          ∃ since rate, (p.line n).phase = .quiet since rate ∧ since + 2 * charTicks rate ≤ p.clock) →
        (freeLine n p).line n = { l with
          run := 0, nextDrop := os % 16 + 2
          phase := .sending
            { outstation := os, isCommand := false, bit := false, frame := fieldFrame (byte (os % 16 + 1)) 0x01 []
              rate := l.rate, window := l.window } }) ∧
      (∀ since rate, (p.line n).phase = .quiet since rate → p.clock < since + 2 * charTicks rate →
        (freeLine n p).line n = l) := by
  obtain ⟨link, outstations, frame⟩ := unhelded_frame n p
  have line : (unhelded n p).line n = { p.line n with holdFlag := false } := by
    rw [frame]
    exact Laws.line_onLine_same p n fun l => { l with holdFlag := false }
  have clock : (unhelded n p).clock = p.clock := by rw [frame]; rfl
  have empty : (unhelded n p).outstationsOf n = [] ↔ p.outstationsOf n = [] := by
    rw [outstationsOf_eq_nil, outstationsOf_eq_nil]
    simp only [unhelded_get?, Option.map_eq_some_iff]
    exact ⟨fun none_ os o ho => none_ os _ ⟨o, ho, rfl⟩, fun none_ os o ⟨x, hx, _⟩ => none_ os x hx⟩
  rw [freeLine_eq]
  refine ⟨?_, fun none_ => ?_, fun os rest some_ w => ?_⟩
  · rw [startLine_holdFlag, line]
  · rw [startLine_empty (empty.mpr none_), Laws.line_onLine_same]
  · have none_ : (unhelded n p).outstationsOf n ≠ [] := fun k => by rw [empty.mp k] at some_; cases some_
    obtain ⟨⟨o, ho⟩, on, least⟩ := outstationsOf_head w some_
    have turn : nextTurn n ((unhelded n p).onLine n fun _ => openedLine 0 (unhelded n p).clock ((unhelded n p).line n)) =
        some os := by
      have freed : (unhelded n p).outstations.get? os = some (Outstation.freed o) := by
        rw [unhelded_get?, ho, Option.map_some, if_pos (mem_outstationsOf ho on)]
      refine nextTurn_of_least (p := (unhelded n p).onLine n fun _ => _) (unhelded_wf n w) freed on ?_ ?_ fun i y hy hi => ?_
      · rw [Laws.line_onLine_same]; exact Nat.succ_le_succ (Nat.zero_le _)
      · rw [Laws.line_onLine_same]
        exact polledIn_zero (by simp [Outstation.freed])
      · have found : (unhelded n p).outstations.get? i = some y := hy
        rw [unhelded_get?] at found
        obtain ⟨z, hz, _⟩ := Option.map_eq_some_iff.mp found
        exact least i z hz hi
    obtain ⟨cycling, polls, waits⟩ := startLine_polls none_ turn
    obtain ⟨-, cycle, start⟩ := startLine_line none_
    rw [line, clock] at polls waits
    refine ⟨cycling, cycle, start.trans clock, fun queue rests => ?_, fun since rate phase early => ?_⟩
    · rw [polls queue (rests.imp (fun k => k) fun ⟨since, rate, phase, over_⟩ => ?_), Laws.line_onLine_same]
      · rfl
      · rw [quietOver_quiet (since := since) (rate := rate) (by rw [line]; exact phase), clock]
        exact decide_eq_true over_
    · rw [waits (by simp [phase]) ?_, Laws.line_onLine_same]
      · rfl
      · rw [quietOver_quiet (since := since) (rate := rate) (by rw [line]; exact phase), clock]
        exact decide_eq_false (by omega)

end

/-- Settles O25: the held line and all on it, notice by notice, and the line that starts again. -/
theorem holdingAndFreeingALine : Obligations.HoldingAndFreeingALine := by
  refine ⟨fun tag n s ready hn free => ?_, fun tag n s ready hn held => ?_⟩
  · intro p q
    have n_eq : u8 [byte n] 0 = n := (toNat_byte n).trans (by omega)
    have run := request_ok (h := holdLineRule) rfl tag ready.1 rfl (decide_eq_true ready.2)
      (holdLineRule_act (p := p) n_eq hn free)
    refine ⟨run, holdLine_line n p, fun w => holdLine_link w, fun os o ho line => ⟨holdLine_outstation ho line, ?_⟩⟩
    exact holdLine_lost ho line
  · intro p q
    have n_eq : u8 [byte n] 0 = n := (toNat_byte n).trans (by omega)
    have run := request_ok (h := freeLineRule) rfl tag ready.1 rfl (decide_eq_true ready.2)
      (freeLineRule_act (p := p) n_eq hn held)
    obtain ⟨flag_, idle, cycling⟩ := freeLine_line n p
    obtain ⟨link, outstations, frame⟩ := unhelded_frame n p
    refine ⟨run, flag_, idle, cycling, fun os o ho line => ?_, ?_, ?_, ?_, ?_, ?_, ?_, ?_⟩
    · have now : (unhelded n p).outstations.get? os = some (Outstation.freed o) := by
        rw [unhelded_get?, ho, Option.map_some, if_pos (mem_outstationsOf ho line)]
      obtain ⟨b, hb⟩ := startLine_outstation (n := n) now
      exact ⟨_, hb, rfl, rfl, rfl, rfl, rfl⟩
    all_goals
      simp only [q, freeLine_eq, Laws.f_startLine_points, Laws.f_startLine_segments, Laws.f_startLine_valves,
        Laws.f_startLine_plans, Laws.f_startLine_register, Laws.f_startLine_dispatch, Laws.f_startLine_outages, frame]
      rfl

end Sys2Proof.Proofs
end


section
/-!
Frames that are sent, replies that stay out, failures that count, and outstations that are lost by them (R20, R26, R35,
R37, R38).
-/

namespace Sys2Proof.Proofs

open Sys2Proof Sys2Proof.Machine

section
variable {p q : Part} {n os v : Nat} {o : Outstation} {t : Txn}

/-! ## The loss of an outstation, with the tests of its plans -/

theorem outstationOffline_eq (os : Nat) (p : Part) :
    ∃ ts, outstationOffline os p = planCourse ts (loseOutstation os true p).1 := by
  unfold outstationOffline
  rcases loseOutstation os true p with ⟨q, ts, changed⟩
  exact ⟨ts, rfl⟩

theorem withdraws_outstationOffline (os : Nat) (p : Part) : Withdraws p (outstationOffline os p) := by
  obtain ⟨ts, eq⟩ := outstationOffline_eq os p
  rw [eq]
  exact (withdraws_loseOutstation os true p).trans (withdraws_planCourse ts _)

theorem outstationOffline_clock (os : Nat) (p : Part) : (outstationOffline os p).clock = p.clock := by
  obtain ⟨ts, eq⟩ := outstationOffline_eq os p
  rw [eq]
  exact ((tells_loseOutstation os true p).trans (tells_planCourse ts _)).clock

/-- None of a lost outstation's commands is queued (R38). -/
theorem outstationOffline_queue (os : Nat) (p : Part) :
    ∀ c ∈ ((outstationOffline os p).line (os / 16)).queue, c.outstation ≠ os := by
  obtain ⟨ts, eq⟩ := outstationOffline_eq os p
  have after : Withdraws (unqueued os p) (outstationOffline os p) := by
    rw [eq, loseOutstation_eq]
    exact (((withdraws_failFields _ _).trans (withdraws_unseen os true _)).trans (withdraws_failFields _ _)).trans
      (withdraws_planCourse ts _)
  intro c mem
  obtain ⟨c', mem', same⟩ := after.queue _ c mem
  have kept : c' ∈ (p.line (os / 16)).queue.filter fun c => c.outstation != os := by
    have line : (unqueued os p).line (os / 16) = { p.line (os / 16) with
        queue := (p.line (os / 16)).queue.filter fun c => c.outstation != os } := Laws.line_onLine_same p _ _
    rw [line] at mem'
    exact mem'
  rw [same]
  simpa using (List.mem_filter.mp kept).2

theorem courses_points (h : Courses p q) : q.points = p.points := by rw [h.frame]

theorem outstationOffline_points (os : Nat) (p : Part) :
    (outstationOffline os p).points = p.points.map fun _ pt => Point.lostWith os pt := by
  obtain ⟨ts, eq⟩ := outstationOffline_eq os p
  rw [eq, courses_points (courses_planCourse ts _), loseOutstation_points]

theorem lost_of_good {pt : Point} {seg : Option Nat} {c : PressureSettings} {st : PressureState}
    (body : pt.body = .pressure seg c st) (good : pt.quality = .good) :
    pt.lost.body = .pressure seg c { st with history := [], falling := false, candidate := none } := by
  rw [Point.lost, if_neg (by simp [good])]
  simp only [body, good, if_true]
  rfl

open Classical in
/-- An operation that fails at the second attempt or has failed at the first. -/
theorem failedTwice {a b : List Nat} {op : Operation} {now : Nat} (mem : v ∈ b) (live : fieldLive op) :
    (if v ∈ b ∧ fieldLive (if v ∈ a ∧ fieldLive op then Operation.ended op (.failed .comms) now else op) then
      Operation.ended (if v ∈ a ∧ fieldLive op then Operation.ended op (.failed .comms) now else op) (.failed .comms) now
    else if v ∈ a ∧ fieldLive op then Operation.ended op (.failed .comms) now else op) =
      Operation.ended op (.failed .comms) now := by
  have dead : ¬fieldLive (Operation.ended op (.failed .comms) now) := fun k => by cases k.2
  by_cases first : v ∈ a
  · have once : (if v ∈ a ∧ fieldLive op then Operation.ended op (.failed .comms) now else op) =
        Operation.ended op (.failed .comms) now := if_pos ⟨first, live⟩
    rw [once, if_neg fun both => dead both.2]
  · have kept : (if v ∈ a ∧ fieldLive op then Operation.ended op (.failed .comms) now else op) = op :=
      if_neg fun both => first both.1
    rw [kept, if_pos ⟨mem, live⟩]

/-- The FIELD operations of a lost outstation's valves have failed (R114). -/
theorem outstationOffline_op {valve : Valve} {op : Operation} (h : p.valves.get? v = some valve)
    (actuated : valve.actuated = true) (here : valve.outstation = os) (ho : valve.operation = some op) (live : fieldLive op) :
    (outstationOffline os p).op? v = some (Operation.ended op (.failed .comms) p.time) := by
  obtain ⟨ts, eq⟩ := outstationOffline_eq os p
  have found : (unqueued os p).op? v = some op := (op?_of_get? h).trans ho
  obtain ⟨link, segments, frame⟩ := unseen_frame os true (unheard os p)
  have time : (unheard os p).time = p.time := (works_failFields _ (unqueued os p)).time
  have time' : (unseen os true (unheard os p)).time = p.time := by rw [frame]; exact time
  have same : (unseen os true (unheard os p)).op? v = (unheard os p).op? v := by
    rw [op?_of_valves (p := losePositions os (unheard os p)) (by rw [frame]), losePositions_op?]
  obtain ⟨x, hx, bare⟩ : ∃ x, (unseen os true (unheard os p)).valves.get? v = some x ∧
      ({ x with operation := none } : Valve) = { Valve.lostWith os { valve with operation := none } with operation := none } := by
    have first : (unheard os p).bare v = some { valve with operation := none } :=
      ((works_failFields _ (unqueued os p)).bare v).trans (congrArg (Option.map _) h)
    obtain ⟨y, hy, bare⟩ := Option.map_eq_some_iff.mp first
    refine ⟨Valve.lostWith os y, by rw [frame, losePositions_get?, hy]; rfl, ?_⟩
    rw [← bare]
    unfold Valve.lostWith
    dsimp only
    split <;> rfl
  have mem : v ∈ (unseen os true (unheard os p)).valvesOf os := by
    refine List.mem_map.mpr ⟨(v, x), List.mem_filter.mpr ⟨Laws.mem_of_get? _ _ _ hx, ?_⟩, rfl⟩
    have lost : Valve.lostWith os { valve with operation := none } =
        { valve with operation := none, position := .unknown } := if_pos ⟨actuated, here⟩
    rw [lost] at bare
    have a : x.actuated = valve.actuated := by simpa using congrArg Valve.actuated bare
    have b : x.outstation = valve.outstation := by simpa using congrArg Valve.outstation bare
    simp [a, b, actuated, here]
  have failed : (loseOutstation os true p).1.op? v = some (Operation.ended op (.failed .comms) p.time) := by
    have heard := failFields_op? (reportedValves ((p.line (lineOf os)).queue.filter fun c => c.outstation = os)) v
      (unqueued os p)
    have seen := failFields_op? ((unseen os true (unheard os p)).valvesOf os) v (unseen os true (unheard os p))
    rw [found, Option.map_some] at heard
    rw [same, time', ← loseOutstation_eq] at seen
    rw [seen, unheard, heard, Option.map_some]
    exact congrArg some (failedTwice mem live)
  obtain ⟨o', ho', recast⟩ := ((courses_planCourse ts (loseOutstation os true p).1).op? v).2 _ failed
  rw [eq]
  rcases recast with rfl | ⟨-, closing, -⟩
  · exact ho'
  · cases closing.2

theorem offline_spec (os : Nat) (p : Part) : let q := outstationOffline os p
    q.clock = p.clock ∧ (∀ c ∈ (q.line (os / 16)).queue, c.outstation ≠ os) ∧
    (∀ id pt, p.points.get? id = some pt → ∃ pt', q.points.get? id = some pt' ∧
      (pt.outstation ≠ os → pt' = pt) ∧ (pt.outstation = os → pt'.quality = .stale) ∧
      (∀ seg c st, pt.outstation = os → pt.body = .pressure seg c st → pt.quality = .good →
        pt'.body = .pressure seg c { st with history := [], falling := false, candidate := none })) ∧
    ∀ v valve, p.valves.get? v = some valve → ∃ valve', q.valves.get? v = some valve' ∧ valve'.lastEnd = valve.lastEnd ∧
      valve'.position = (if valve.actuated = true ∧ valve.outstation = os then .unknown else valve.position) ∧
      (∀ op, valve.actuated = true → valve.outstation = os → valve.operation = some op → op.mode = .field →
        (op.state = .pending ∨ op.state = .acting) → valve'.operation =
          some { op with state := .failed .comms, stateTime := p.time, travelExpiry := none }) := by
  intro q
  refine ⟨outstationOffline_clock os p, outstationOffline_queue os p, fun id pt hpt => ?_, fun v valve hv => ?_⟩
  · refine ⟨Point.lostWith os pt, ?_, fun other => if_neg other, fun here => ?_, fun seg c st here body good => ?_⟩
    · simp only [q, outstationOffline_points, Laws.get?_map, hpt, Option.map_some]
    · rw [Point.lostWith, if_pos here]; exact (lost_stale pt).1
    · rw [Point.lostWith, if_pos here]; exact lost_of_good body good
  · obtain ⟨ts, eq⟩ := outstationOffline_eq os p
    have bare : q.bare v = some (Valve.lostWith os { valve with operation := none }) := by
      have first : p.bare v = some { valve with operation := none } := congrArg (Option.map _) hv
      simp only [q, eq]
      rw [(courses_planCourse ts _).bare, loseOutstation_bare, first]
      rfl
    obtain ⟨x, hx, same⟩ := Option.map_eq_some_iff.mp bare
    refine ⟨x, hx, ?_, ?_, fun op actuated here ho field live => ?_⟩
    · have := congrArg Valve.lastEnd same
      refine this.trans ?_
      unfold Valve.lostWith
      split <;> rfl
    · have := congrArg Valve.position same
      refine this.trans ?_
      unfold Valve.lostWith
      dsimp only
      split <;> rfl
    · rw [← op?_of_get? hx]
      exact outstationOffline_op hv actuated here ho ⟨field, live_iff.mpr live⟩

/-! ## Failures that count (R35, R37) -/

theorem onOutstation_of_get? (h : p.outstations.get? os = some o) (f : Outstation → Outstation) :
    p.onOutstation os f = { p with outstations := p.outstations.set os (f o) } := by
  simp only [Part.onOutstation, modify_of_get? h]

theorem isOffline_of_get? (h : p.outstations.get? os = some o) : p.isOffline os = decide (o.comm = .offline) := by
  simp [Part.isOffline, h]

/-- The part with an outstation's BUSY count 0. -/
def unbusied (p : Part) (os : Nat) (o : Outstation) : Part :=
  { p with outstations := p.outstations.set os { o with busy := 0 } }

theorem countNoAnswer_eq (h : p.outstations.get? os = some o) : countNoAnswer os p =
    let q := setComm os (fun o => o.failure (p.line (os / 16)).limit) .failure (unbusied p os o)
    if (q.isOffline os && !decide (o.comm = .offline)) = true then outstationOffline os q else q := by
  have found : (unbusied p os o).outstations.get? os = some { o with busy := 0 } := Laws.get?_set_same _ _ _
  rw [countNoAnswer, onOutstation_of_get? h, countFailure]
  have was := isOffline_of_get? found
  rw [unbusied] at was
  rw [was]
  rfl

/-! A failure against a limit (R37). -/

theorem failure_gone (gone : o.comm = .offline ∨ o.comm = .held) (limit : Nat) : o.failure limit = o := by
  rcases gone with h | h <;> simp only [Outstation.failure, h]

theorem failure_reached {limit : Nat} (on : o.comm ≠ .offline) (free : o.comm ≠ .held) (reached : limit ≤ o.failures + 1) :
    o.failure limit = { o with comm := .offline, failures := o.failures + 1 } := by
  cases h : o.comm with
  | offline => exact absurd h on
  | held => exact absurd h free
  | unknown => simp only [Outstation.failure, h, if_pos reached]
  | online => simp only [Outstation.failure, h, if_pos reached]
  | suspect => simp only [Outstation.failure, h, if_pos reached]

theorem failure_below {limit : Nat} (on : o.comm ≠ .offline) (free : o.comm ≠ .held) (below : o.failures + 1 < limit) :
    o.failure limit = { o with comm := if o.comm = .online then .suspect else o.comm, failures := o.failures + 1 } := by
  cases h : o.comm with
  | offline => exact absurd h on
  | held => exact absurd h free
  | unknown => simp only [Outstation.failure, h, if_neg (Nat.not_le.mpr below)]
  | online => simp only [Outstation.failure, h, if_neg (Nat.not_le.mpr below)]
  | suspect => simp only [Outstation.failure, h, if_neg (Nat.not_le.mpr below)]

/-- What a failure leaves, the new record given. -/
theorem countNoAnswer_to (h : p.outstations.get? os = some o) {o' : Outstation}
    (new : Outstation.failure (p.line (os / 16)).limit { o with busy := 0 } = o') : countNoAnswer os p =
    let put := { p with outstations := p.outstations.set os o' }
    let q := if o'.comm = o.comm then put else place (.outstationState os o.comm o'.comm o'.failures .failure) put
    if o'.comm = .offline ∧ o.comm ≠ .offline then outstationOffline os q else q := by
  have found : (unbusied p os o).outstations.get? os = some { o with busy := 0 } := Laws.get?_set_same _ _ _
  have q_eq : setComm os (fun o => o.failure (p.line (os / 16)).limit) .failure (unbusied p os o) =
      if o'.comm = o.comm then { p with outstations := p.outstations.set os o' }
      else place (.outstationState os o.comm o'.comm o'.failures .failure)
        { p with outstations := p.outstations.set os o' } := by
    rw [setComm_cases found]
    dsimp only
    rw [new]
    simp only [unbusied, set_set]
  have now : (setComm os (fun o => o.failure (p.line (os / 16)).limit) .failure (unbusied p os o)).outstations.get? os =
      some o' := by
    rw [setComm_get?, if_pos rfl, found, Option.map_some, new]
  rw [countNoAnswer_eq h]
  dsimp only
  rw [isOffline_of_get? now, q_eq]
  refine if_congr ?_ rfl rfl
  rw [Bool.and_eq_true, decide_eq_true_eq, Bool.not_eq_true', decide_eq_false_iff_not]

theorem noAnswer_cases (h : p.outstations.get? os = some o) :
    let limit := (p.line (os / 16)).limit
    let put := fun (o' : Outstation) => { p with outstations := p.outstations.set os { o' with busy := 0 } }
    let told := fun (o' : Outstation) => place (.outstationState os o.comm o'.comm o'.failures .failure) (put o')
    ((o.comm = .offline ∨ o.comm = .held) → countNoAnswer os p = put o) ∧
    (o.comm ≠ .offline → o.comm ≠ .held →
      (limit ≤ o.failures + 1 →
        countNoAnswer os p = outstationOffline os (told { o with comm := .offline, failures := o.failures + 1 })) ∧
      (o.failures + 1 < limit →
        (o.comm = .online → countNoAnswer os p = told { o with comm := .suspect, failures := o.failures + 1 }) ∧
        (o.comm ≠ .online → countNoAnswer os p = put { o with failures := o.failures + 1 }))) := by
  intro limit put told
  refine ⟨fun gone => ?_, fun on free => ⟨fun reached => ?_, fun below => ⟨fun online => ?_, fun other => ?_⟩⟩⟩
  · rw [countNoAnswer_to h (failure_gone (o := { o with busy := 0 }) gone _)]
    dsimp only
    rw [if_pos rfl, if_neg fun both => both.2 both.1]
  · rw [countNoAnswer_to h (failure_reached (o := { o with busy := 0 }) on free reached)]
    dsimp only
    rw [if_neg (Ne.symm on), if_pos ⟨rfl, on⟩]
  · rw [countNoAnswer_to h (failure_below (o := { o with busy := 0 }) on free below)]
    dsimp only
    rw [if_pos online, if_neg (show ¬CommState.suspect = o.comm by rw [online]; simp)]
    exact if_neg fun both => by cases both.1
  · rw [countNoAnswer_to h (failure_below (o := { o with busy := 0 }) on free below)]
    dsimp only
    rw [if_neg other, if_pos rfl, if_neg fun both => both.2 both.1]

/-- A failure after which the outstation is not OFFLINE has changed no valve. -/
theorem countNoAnswer_valves (on : ∀ o, (countNoAnswer os p).outstations.get? os = some o → o.comm ≠ .offline) :
    (countNoAnswer os p).valves = p.valves ∧ (countNoAnswer os p).time = p.time := by
  cases h : p.outstations.get? os with
  | none =>
    have gone : (p.onOutstation os fun o => { o with busy := 0 }).outstations.get? os = none := by
      simp [Part.onOutstation, get?_modify, h]
    rw [countNoAnswer, countFailure, setComm_undefined gone, if_neg (by simp [Part.isOffline, gone])]
    exact ⟨rfl, rfl⟩
  | some o =>
    rw [countNoAnswer_to h rfl] at on ⊢
    dsimp only at on ⊢
    generalize Outstation.failure (p.line (os / 16)).limit { o with busy := 0 } = o' at on ⊢
    by_cases lost : o'.comm = .offline ∧ o.comm ≠ .offline
    · rw [if_pos lost] at on
      refine absurd lost.1 (on o' ?_)
      rw [(withdraws_outstationOffline os _).outstations, if_neg (show ¬o'.comm = o.comm from fun same => lost.2 (same ▸ lost.1))]
      exact Laws.get?_set_same _ _ _
    · rw [if_neg lost]
      split <;> exact ⟨rfl, rfl⟩

/-! ## Transactions that end with NO_ANSWER (R26, R35) -/

/-- The line of a transaction that has ended, in its quiet time (R20). -/
def quieted (p : Part) (n : Nat) (t : Txn) : Part := p.onLine n fun l => { l with phase := .quiet p.clock t.rate }

theorem endTransaction_eq (h : (p.line n).txn? = some t) (out : Outcome) :
    endTransaction n out p = pollsEnd n (takeOutcome n t out (quieted p n t)) := by
  have same : p.onLine n (Line.quieted p.clock) = quieted p n t := onLine_congr (by simp only [Line.quieted, h])
  simp only [endTransaction, h, same]

theorem quieted_line (p : Part) (n : Nat) (t : Txn) :
    (quieted p n t).line n = { p.line n with phase := .quiet p.clock t.rate } := Laws.line_onLine_same p n _

theorem takeOutcome_command {c : Command} {rest : List Command} (command : t.isCommand = true)
    (queue : (p.line n).queue = c :: rest) (out : Outcome) :
    takeOutcome n t out (quieted p n t) = commandOutcome n t.outstation c out (quieted p n t) := by
  have queue' : ((quieted p n t).line n).queue = c :: rest := by rw [quieted_line]; exact queue
  simp only [takeOutcome, command, if_true, queue']

theorem popCommand_quieted {c : Command} {rest : List Command} (queue : (p.line n).queue = c :: rest) :
    popCommand n (quieted p n t) = (quieted p n t).onLine n fun l => { l with queue := rest } := by
  refine onLine_congr ?_
  rw [quieted_line]
  dsimp only
  rw [queue]
  rfl

theorem isOffline_iff : p.isOffline os = true ↔ ∃ o, p.outstations.get? os = some o ∧ o.comm = .offline := by
  cases h : p.outstations.get? os with
  | none => simp [Part.isOffline, h]
  | some o => simp [Part.isOffline, h]

theorem noAnswerEnds_cases (h : (p.line n).txn? = some t) :
    let quiet := p.onLine n fun l => { l with phase := .quiet p.clock t.rate }
    let ends := fun (q : Part) => endTransaction n .noAnswer p = pollsEnd n q
    (t.isCommand = false → ends (countNoAnswer t.outstation quiet)) ∧
    ∀ c rest, t.isCommand = true → (p.line n).queue = c :: rest →
      let kept := countNoAnswer t.outstation
        (quiet.onLine n fun l => { l with queue := { c with noAnswers := c.noAnswers + 1 } :: rest })
      let popped := kept.onLine n fun l => { l with queue := l.queue.tail }
      (c.withdrawn = true → ends (countNoAnswer t.outstation (quiet.onLine n fun l => { l with queue := rest }))) ∧
      (c.withdrawn = false → (c.noAnswers + 1 < 3 ∨ ∃ o, kept.outstations.get? t.outstation = some o ∧ o.comm = .offline) →
        ends kept) ∧
      (c.withdrawn = false → 3 ≤ c.noAnswers + 1 →
        (∀ o, kept.outstations.get? t.outstation = some o → o.comm ≠ .offline) →
        (c.action = .stop → ends popped) ∧
        (∀ valve op, c.action ≠ .stop → p.valves.get? c.valve = some valve → valve.operation = some op →
          op.mode = .field → (op.state = .pending ∨ op.state = .acting) →
          ends (planCourse [⟨c.valve, true⟩] (place (.valveFailed c.valve op.action op.origin .field .comms)
            { popped with valves := p.valves.set c.valve { valve with operation := some { op with
                state := .failed .comms, stateTime := p.time, travelExpiry := none } } })))) := by
  intro quiet ends
  have reached : ∀ q, takeOutcome n t .noAnswer (quieted p n t) = q → ends q := fun q same =>
    (endTransaction_eq h .noAnswer).trans (congrArg (pollsEnd n) same)
  refine ⟨fun poll => reached _ (by simp only [takeOutcome, poll, Bool.false_eq_true, if_false]; rfl),
    fun c rest command queue => ?_⟩
  intro kept popped
  have outcome := takeOutcome_command command queue .noAnswer
  have counted : (quieted p n t).onLine n (fun l => { l with
      queue := { c with noAnswers := c.noAnswers + 1 } :: l.queue.tail }) =
      quiet.onLine n fun l => { l with queue := { c with noAnswers := c.noAnswers + 1 } :: rest } := by
    refine onLine_congr ?_
    rw [quieted_line]
    dsimp only
    rw [queue]
    rfl
  refine ⟨fun withdrawn => reached _ ?_, fun held early => reached _ ?_, fun held third on => ?_⟩
  · rw [outcome]
    simp only [commandOutcome, withdrawn, if_true, popCommand_quieted queue]
    rfl
  · rw [outcome]
    simp only [commandOutcome, counted]
    rw [if_neg (by simp [held])]
    refine if_pos ?_
    rw [Bool.or_eq_true, decide_eq_true_eq, isOffline_iff]
    exact early
  · have last : takeOutcome n t .noAnswer (quieted p n t) = if c.action = .stop then popped else
        planCourse (failField c.valve popped).2 (failField c.valve popped).1 := by
      rw [outcome]
      simp only [commandOutcome, counted]
      rw [if_neg (by simp [held])]
      refine if_neg ?_
      rw [Bool.or_eq_true, decide_eq_true_eq, isOffline_iff]
      rintro (few | ⟨o, ho, offline⟩)
      · omega
      · exact on o ho offline
    refine ⟨fun stop => reached _ (last.trans (if_pos stop)), fun valve op go hv ho field live => reached _ ?_⟩
    obtain ⟨valves, time⟩ := countNoAnswer_valves on
    have hv' : popped.valves.get? c.valve = some valve := by
      rw [show popped.valves = p.valves from valves]; exact hv
    have live' : fieldLive op := ⟨field, live_iff.mpr live⟩
    rw [last, if_neg go, failField_fails ((op?_of_get? hv').trans ho) live', failOp_of_get? hv' ho]
    dsimp only
    rw [if_neg (by simp [field]), withOp, show popped.valves = p.valves from valves, show popped.time = p.time from time]
    exact congrArg (fun m => planCourse [⟨c.valve, true⟩] (place (.valveFailed c.valve op.action op.origin m .comms) _)) field

/-! ## Events of a line that are due (R20, R26) -/

theorem frameSent_sends {s : State} (hn : n < 4) (h : (s.part.line n).phase = .sending t) :
    exec (.fieldFrameSent n) s = .next (s.withPart (dispatchDecide
      (s.part.onLine n fun l => { l with phase := .awaiting t s.part.clock }))) := by
  show onPart (lineEvent n (frameLeaves n)) s = _
  simp only [onPart, lineEvent, hn, if_true, frameLeaves, h, State.withPart]

theorem exec_windowExpiry {s : State} {opened : Nat} (hn : n < 4) (h : (s.part.line n).phase = .awaiting t opened) :
    exec (.replyWindowExpiry n) s = .next (s.withPart (dispatchDecide
      (if windowOver t opened s.part.clock then endTransaction n .noAnswer s.part else s.part))) := by
  show onPart (lineEvent n (windowEnds n)) s = _
  simp only [onPart, lineEvent, hn, if_true, windowEnds, h, State.withPart]

theorem exec_gapTimeout {s : State} {bytes : List Byte} {last : Nat} (hn : n < 4)
    (h : (s.part.line n).phase = .collecting t bytes last) :
    exec (.replyGapTimeout n) s = .next (s.withPart (dispatchDecide
      (if replyGapOver t last s.part.clock then endTransaction n .noAnswer s.part else s.part))) := by
  show onPart (lineEvent n (gapEnds n)) s = _
  simp only [onPart, lineEvent, hn, if_true, gapEnds, h, State.withPart]

end

/-- Settles O28: the events of a transaction, its end with NO_ANSWER, the failure counted, and the loss. -/
theorem fieldFramesAreTimed : Obligations.FieldFramesAreTimed := by
  refine ⟨fun n s hn => ?_, fun n t p hn h => noAnswerEnds_cases h, fun os o p h => noAnswer_cases h,
    fun os o p _ _ _ => offline_spec os p⟩
  intro p
  refine ⟨fun t sending => frameSent_sends hn sending, fun t opened awaiting => ?_, fun t bytes last collecting => ?_⟩
  · have run := exec_windowExpiry hn awaiting
    refine ⟨fun early => ?_, fun late => ?_⟩
    · rwa [if_neg] at run
      simp only [windowOver, decide_eq_true_eq]
      exact Nat.not_le.mpr early
    · rwa [if_pos] at run
      exact decide_eq_true late
  · have run := exec_gapTimeout hn collecting
    refine ⟨fun early => ?_, fun late => ?_⟩
    · rwa [if_neg] at run
      simp only [replyGapOver, decide_eq_true_eq]
      exact Nat.not_lt.mpr early
    · rwa [if_pos] at run
      exact decide_eq_true late

end Sys2Proof.Proofs
end


section
/-!
Field replies as they are taken: a part in which a DATA reply of one line sends a command on another, against O29. Its
valve table has two records of one id, which no table in order has (`Table.wf`): the one that stands on the slot of the
reply is not the one that the id finds.
-/

namespace Sys2Proof.Proofs

open Sys2Proof Sys2Proof.Machine

/-- A part whose valve 0 is found on outstation 16, under way, and listed once more on a slot of outstation 0. -/
def twofoldPart : Part := { Part.released .power 19200 0 0 with
  lines := { fl0 := { cond := .cycling, phase := .quiet 0 9600 }, fl1 := { cond := .waiting } }
  outstations := ⟨[(0, { kind := .actuator, comm := .online }), (16, { kind := .actuator, comm := .online })]⟩
  valves := ⟨[
    (0, { endA := 0, endB := 1, actuated := true, outstation := 16, slot := 0, normal := .opened, position := .opened
          lastEnd := .opened, travelLimit := 60
          operation := some { action := .toClose, origin := .host, mode := .field, state := .acting, ordered := 0
                              stateTime := 0, travelExpiry := some 60 } }),
    (0, { endA := 0, endB := 1, actuated := true, outstation := 0, slot := 0, normal := .opened, position := .opened
          lastEnd := .opened, travelLimit := 60 })]⟩ }

/-- The reply of outstation 0 counts for it alone. -/
theorem twofoldPart_counted :
    ((countGood 0 twofoldPart).outstations.get? 16).map (·.seqBit) = some true := by decide

/-- With the torque indicated, the STOP that it brings is sent to outstation 16 at once, with the opposite bit. -/
theorem twofoldPart_sent :
    ((dataReply 0 (.actuator [⟨true, false, true⟩] 0) twofoldPart).outstations.get? 16).map (·.seqBit) = some false := by
  decide

/-- Refutes O29: a DATA reply of outstation 0 that changes a record of outstation 16. -/
theorem not_fieldRepliesAreCollectedAndTaken : ¬ Obligations.FieldRepliesAreCollectedAndTaken := by
  rintro ⟨-, replies, -⟩
  obtain ⟨same, -⟩ := replies 0 (.actuator [⟨true, false, true⟩] 0) twofoldPart rfl (.inr (by decide))
  have sent := twofoldPart_sent
  rw [same, twofoldPart_counted] at sent
  cases sent

end Sys2Proof.Proofs
end


section
/-!
The course of several touched valves (R116, R117, R121): where it takes a plan.
-/

namespace Sys2Proof.Proofs

open Sys2Proof Sys2Proof.Machine

section
variable {p q : Part} {id u v : Nat} {t : Touched} {ts : List Touched} {x y : Plan} {o : Operation}

theorem planCourse_cons (t : Touched) (ts : List Touched) (p : Part) :
    planCourse (t :: ts) p = planCourse ts (courseOf t p) := rfl

theorem courseOf_wf (w : p.plans.wf 16 = true) (t : Touched) : (courseOf t p).plans.wf 16 = true := by
  have tested : ∀ (r : Part) (id : Nat), r.plans.wf 16 = true → (testPlan id t r).plans.wf 16 = true := by
    intro r id w
    have broken : (breakTest id t.valve r).plans.wf 16 = true := by
      unfold breakTest
      split
      · exact w
      · split
        · exact setPlanState_wf w _ _ _
        · exact w
    have failed : (failureTest id t (cancelPending id (breakTest id t.valve r))).plans.wf 16 = true := by
      unfold failureTest
      split
      · split
        · exact setPlanState_wf (by rw [cancelPending_plans]; exact broken) _ _ _
        · rw [cancelPending_plans]; exact broken
      · rw [cancelPending_plans]; exact broken
    rw [testPlan]
    unfold isolationTest
    split
    · exact failed
    · split
      · unfold enterIsolated
        split
        · exact failed
        · dsimp only
          have gone := setPlanState_wf failed id .isolated none
          split
          · split
            · rw [Laws.f_makeSafe_plans]; exact gone
            · exact gone
          · exact gone
      · exact failed
  rw [courseOf_eq]
  generalize (reopenedPart t.valve p).plans.idsWhere (fun _ q => q.closeList.contains t.valve) = ids
  have w' := reopenedPart_wf t.valve w
  generalize reopenedPart t.valve p = r at w'
  induction ids generalizing r with
  | nil => exact w'
  | cons id rest ih => exact ih _ (tested r id w')

theorem settled_of_courses (h : Courses p q) (settled : ∀ t ∈ ts, settledTouch t p) : ∀ t ∈ ts, settledTouch t q :=
  fun t mem => settledTouch_of_courses h (settled t mem)

/-! ## Plans that are to be isolated -/

theorem testedPlan_isolates (isolates : p.isolates x = true) (t : Touched) (id : Nat) :
    (testedPlan p t id x).state = .isolated ∧ (testedPlan p t id x).stateTime = p.time := by
  have both := isolates_iff.mp isolates
  rw [testedPlan, if_neg, if_pos both]
  · exact ⟨rfl, rfl⟩
  · intro breaks
    rw [breaks.1] at both
    simp at both

/-- A plan whose tests leave it to be isolated has not been tested. -/
theorem not_isolates_testedPlan (mem : t.valve ∈ x.closeList) : ¬p.isolates (testedPlan p t id x) = true := by
  intro isolates
  obtain ⟨state, shut⟩ := isolates_iff.mp isolates
  rw [(testedPlan_closeList p t id x).1] at shut
  unfold testedPlan at state
  split at state
  next breaks =>
    have := shut _ mem
    rw [breaks.2] at this
    cases this
  · split at state
    · simp at state
    next stays =>
      split at state
      next fails =>
        simp only [failsPlan, Bool.and_eq_true, decide_eq_true_eq] at fails
        exact stays ⟨.inl fails.1.2, shut⟩
      · exact stays ⟨state, shut⟩

/-- The plans to be isolated after a valve's course: those before it that the valve does not touch. -/
theorem courseOf_isolates (w : p.plans.wf 16 = true) (settled : settledTouch t p) :
    ((courseOf t p).plans.get? id = some y ∧ (courseOf t p).isolates y = true) ↔
      (p.plans.get? id = some y ∧ p.isolates y = true ∧ t.valve ∉ y.closeList) := by
  have shut := shut_of_bare (vs := y.closeList) (courses_courseOf t p).bare
  have isolates : (courseOf t p).isolates y = true ↔ p.isolates y = true := by rw [isolates_iff, isolates_iff, shut]
  rw [isolates, courseOf_get? w settled]
  constructor
  · rintro ⟨found, iso⟩
    obtain ⟨x, hx, left⟩ := Option.bind_eq_some_iff.mp found
    obtain ⟨x', hx', same⟩ := Option.map_eq_some_iff.mp left
    unfold coursedPlan at same
    split at same
    next mem =>
      rw [← same] at iso
      exact absurd iso (not_isolates_testedPlan mem)
    next out =>
      subst same
      have state := (isolates_iff.mp iso).1
      have before : (reopenedPart t.valve p).plans.get? id = some x' := by
        rw [reopenedPart_get?, hx, Option.bind_some]
        exact hx'
      exact ⟨(reopenedPart_isolating state).mp before, iso, out⟩
  · rintro ⟨hy, iso, out⟩
    have state := (isolates_iff.mp iso).1
    have stays : y.without [t.valve] = some y :=
      without_of_not_releasing (by rcases state with h | h <;> simp [h]) _
    refine ⟨?_, iso⟩
    rw [hy, Option.bind_some, stays, ite_self, Option.map_some, coursedPlan, if_neg out]

/-- A plan that a course isolates. -/
theorem courseOf_isolated (w : p.plans.wf 16 = true) (settled : settledTouch t p) (hx : p.plans.get? id = some x)
    (iso : p.isolates x = true) (mem : t.valve ∈ x.closeList) :
    (courseOf t p).plans.get? id = some (testedPlan p t id x) := by
  have state := (isolates_iff.mp iso).1
  have stays : x.without [t.valve] = some x := without_of_not_releasing (by rcases state with h | h <;> simp [h]) _
  rw [courseOf_get? w settled, hx, Option.bind_some, stays, ite_self, Option.map_some, coursedPlan, if_pos mem]

/-- An isolated plan whose close list is CLOSED stays so. -/
theorem planCourse_rests_isolated : ∀ {ts : List Touched} {p : Part}, p.plans.wf 16 = true →
    (∀ t ∈ ts, settledTouch t p) → p.plans.get? id = some x → x.state = .isolated → p.shut x.closeList →
    (planCourse ts p).plans.get? id = some x := by
  intro ts
  induction ts with
  | nil => exact fun _ _ h _ _ => h
  | cons t rest ih =>
    intro p w settled h state shut
    have course := courses_courseOf t p
    refine ih (courseOf_wf w t) (settled_of_courses course fun t mem => settled t (List.mem_cons_of_mem _ mem)) ?_ state
      ((shut_of_bare course.bare).mpr shut)
    have stays : x.without [t.valve] = some x := without_of_not_releasing (by simp [state]) _
    rw [courseOf_get? w (settled t List.mem_cons_self), h, Option.bind_some, stays, ite_self, Option.map_some, coursedPlan]
    split
    next mem =>
      rw [testedPlan, if_neg, if_neg (by simp [state]), if_neg (by simp [failsPlan, state])]
      rintro ⟨-, opened⟩
      have := shut _ mem
      rw [opened] at this
      cases this
    · rfl

/-- An EXECUTING or BLOCKED plan whose close list is all CLOSED, with a touched valve on it, goes ISOLATED (R117). -/
theorem planCourse_isolated : ∀ {ts : List Touched} {p : Part}, p.plans.wf 16 = true → (∀ t ∈ ts, settledTouch t p) →
    p.plans.get? id = some x → p.isolates x = true → (∃ t ∈ ts, t.valve ∈ x.closeList) →
    ∃ y, (planCourse ts p).plans.get? id = some y ∧ y.state = .isolated ∧ y.stateTime = p.time := by
  intro ts
  induction ts with
  | nil => exact fun _ _ _ _ ⟨t, mem, _⟩ => absurd mem List.not_mem_nil
  | cons t rest ih =>
    intro p w settled h iso ⟨t', mem', touches⟩
    have course := courses_courseOf t p
    have settled' := settled_of_courses course fun t mem => settled t (List.mem_cons_of_mem _ mem)
    by_cases mem : t.valve ∈ x.closeList
    · obtain ⟨state, time⟩ := testedPlan_isolates iso t id
      rw [planCourse_cons]
      refine ⟨_, planCourse_rests_isolated (courseOf_wf w t) settled'
        (courseOf_isolated w (settled t List.mem_cons_self) h iso mem) state ?_, state, time⟩
      rw [(testedPlan_closeList p t id x).1, shut_of_bare course.bare]
      exact (isolates_iff.mp iso).2
    · obtain ⟨h', iso'⟩ := (courseOf_isolates w (settled t List.mem_cons_self)).mpr ⟨h, iso, mem⟩
      obtain ⟨y, hy, state, time⟩ := ih (courseOf_wf w t) settled' h' iso'
        ⟨t', (List.mem_cons.mp mem').resolve_left fun same => mem (same ▸ touches), touches⟩
      exact ⟨y, hy, state, time.trans course.time⟩

/-! ## Other plans -/

/-- A plan that is neither in execution nor RELEASING is left. -/
theorem planCourse_rests (idle : ¬(x.state = .executing ∨ x.state = .blocked ∨ x.state = .isolated))
    (held : x.state ≠ .releasing) : ∀ {ts : List Touched} {p : Part}, p.plans.wf 16 = true →
    (∀ t ∈ ts, settledTouch t p) → p.plans.get? id = some x → (planCourse ts p).plans.get? id = some x := by
  intro ts
  induction ts with
  | nil => exact fun _ _ h => h
  | cons t rest ih =>
    intro p w settled h
    refine ih (courseOf_wf w t) (settled_of_courses (courses_courseOf t p)
      fun t mem => settled t (List.mem_cons_of_mem _ mem)) ?_
    rw [courseOf_get? w (settled t List.mem_cons_self), h, Option.bind_some, without_of_not_releasing held, ite_self,
      Option.map_some, coursedPlan_rests idle]

/-- A BLOCKED plan with an OPEN valve on its close list is left. -/
theorem planCourse_rests_blocked (state : x.state = .blocked) : ∀ {ts : List Touched} {p : Part}, p.plans.wf 16 = true →
    (∀ t ∈ ts, settledTouch t p) → p.plans.get? id = some x → ¬p.shut x.closeList →
    (planCourse ts p).plans.get? id = some x := by
  intro ts
  induction ts with
  | nil => exact fun _ _ h _ => h
  | cons t rest ih =>
    intro p w settled h open_
    have course := courses_courseOf t p
    refine ih (courseOf_wf w t) (settled_of_courses course fun t mem => settled t (List.mem_cons_of_mem _ mem)) ?_
      fun shut => open_ ((shut_of_bare course.bare).mp shut)
    rw [courseOf_get? w (settled t List.mem_cons_self), h, Option.bind_some, without_of_not_releasing (by simp [state]),
      ite_self, Option.map_some, coursedPlan]
    split
    · rw [testedPlan, if_neg (by simp [state]), if_neg fun both => open_ both.2, if_neg (by simp [failsPlan, state])]
    · rfl

/-- An ISOLATED plan with a touched valve of its close list OPEN goes BLOCKED by such a valve (R117). -/
theorem planCourse_broken (state : x.state = .isolated) : ∀ {ts : List Touched} {p : Part}, p.plans.wf 16 = true →
    (∀ t ∈ ts, settledTouch t p) → p.plans.get? id = some x →
    (∃ t ∈ ts, t.valve ∈ x.closeList ∧ p.lastEnd? t.valve = some .opened) →
    ∃ v ∈ x.closeList, p.lastEnd? v = some .opened ∧
      (planCourse ts p).plans.get? id = some { x with state := .blocked, stateTime := p.time, blocking := some v } := by
  intro ts
  induction ts with
  | nil => exact fun _ _ _ ⟨t, mem, _⟩ => absurd mem List.not_mem_nil
  | cons t rest ih =>
    intro p w settled h ⟨t', mem', touches, opened'⟩
    have course := courses_courseOf t p
    have settled' := settled_of_courses course fun t mem => settled t (List.mem_cons_of_mem _ mem)
    have now : (courseOf t p).plans.get? id = some (coursedPlan p t id x) := by
      rw [courseOf_get? w (settled t List.mem_cons_self), h, Option.bind_some, without_of_not_releasing (by simp [state]),
        ite_self, Option.map_some]
    by_cases breaks : t.valve ∈ x.closeList ∧ p.lastEnd? t.valve = some .opened
    · rw [coursedPlan, if_pos breaks.1, testedPlan, if_pos ⟨state, breaks.2⟩] at now
      rw [planCourse_cons]
      refine ⟨t.valve, breaks.1, breaks.2, planCourse_rests_blocked rfl (courseOf_wf w t) settled' now fun shut => ?_⟩
      have := (shut_of_bare (vs := x.closeList) course.bare).mp shut _ breaks.1
      rw [breaks.2] at this
      cases this
    · have stays : coursedPlan p t id x = x := by
        unfold coursedPlan
        split
        next mem =>
          rw [testedPlan, if_neg fun both => breaks ⟨mem, both.2⟩, if_neg (by simp [state]), if_neg (by
            simp [failsPlan, state])]
        · rfl
      rw [stays] at now
      have ends : ∀ v, (courseOf t p).lastEnd? v = p.lastEnd? v := fun v => lastEnd?_of_bare (course.bare v)
      obtain ⟨v, listed, opened, after⟩ := ih (courseOf_wf w t) settled' now
        ⟨t', (List.mem_cons.mp mem').resolve_left fun same => breaks (same ▸ ⟨touches, opened'⟩), touches,
          (ends _).trans opened'⟩
      rw [ends] at opened
      rw [course.time] at after
      exact ⟨v, listed, opened, after⟩

/-- What a valve's course leaves of a RELEASING plan. -/
theorem courseOf_releasing (w : p.plans.wf 16 = true) (settled : settledTouch t p) (hx : p.plans.get? id = some x)
    (state : x.state = .releasing) : (courseOf t p).plans.get? id =
      if reopens p t.valve id = true then x.without [t.valve] else some x := by
  rw [courseOf_get? w settled, hx, Option.bind_some]
  split
  · exact without_coursed state p t id
  · rw [Option.map_some, coursedPlan_rests (by simp [state])]

/-- What is off a RELEASING plan's release list stays off it. -/
theorem planCourse_off : ∀ {ts : List Touched} {p : Part}, p.plans.wf 16 = true → (∀ t ∈ ts, settledTouch t p) →
    (∀ x, p.plans.get? id = some x → x.state = .releasing ∧ v ∉ x.releaseList) →
    ∀ y, (planCourse ts p).plans.get? id = some y → v ∉ y.releaseList := by
  intro ts
  induction ts with
  | nil => exact fun _ _ off y hy => (off y hy).2
  | cons t rest ih =>
    intro p w settled off
    refine ih (courseOf_wf w t) (settled_of_courses (courses_courseOf t p)
      fun t mem => settled t (List.mem_cons_of_mem _ mem)) fun y hy => ?_
    cases hx : p.plans.get? id with
    | none =>
      rw [courseOf_get? w (settled t List.mem_cons_self), hx] at hy
      cases hy
    | some x =>
      obtain ⟨state, out⟩ := off x hx
      rw [courseOf_releasing w (settled t List.mem_cons_self) hx state] at hy
      split at hy
      · rw [without_one] at hy
        split at hy
        · split at hy
          · cases hy
          · cases hy
            exact ⟨state, fun mem => out (List.mem_of_mem_filter mem)⟩
        · cases hy
          exact ⟨state, out⟩
      · cases hy
        exact ⟨state, out⟩

/-- A DONE reopening of a touched valve has left its plan's release list (R121). -/
theorem planCourse_reopened : ∀ {ts : List Touched} {p : Part}, p.plans.wf 16 = true → (∀ t ∈ ts, settledTouch t p) →
    (∀ x, p.plans.get? id = some x → x.state = .releasing) → (∃ t ∈ ts, t.valve = v) → reopens p v id = true →
    ∀ y, (planCourse ts p).plans.get? id = some y → v ∉ y.releaseList := by
  intro ts
  induction ts with
  | nil => exact fun _ _ _ ⟨t, mem, _⟩ => absurd mem List.not_mem_nil
  | cons t rest ih =>
    intro p w settled releasing ⟨t', mem', same⟩ back
    have course := courses_courseOf t p
    have settled' := settled_of_courses course fun t mem => settled t (List.mem_cons_of_mem _ mem)
    have after : ∀ y, (courseOf t p).plans.get? id = some y → y.state = .releasing ∧ (t.valve = v → v ∉ y.releaseList) := by
      intro y hy
      cases hx : p.plans.get? id with
      | none =>
        rw [courseOf_get? w (settled t List.mem_cons_self), hx] at hy
        cases hy
      | some x =>
        have state := releasing x hx
        rw [courseOf_releasing w (settled t List.mem_cons_self) hx state] at hy
        split at hy
        · rw [without_one] at hy
          split at hy
          · split at hy
            · cases hy
            · cases hy
              refine ⟨state, fun here mem => ?_⟩
              have := (List.mem_filter.mp mem).2
              simp [here] at this
          next stays =>
            cases hy
            exact ⟨state, fun here mem => stays ⟨state, by rw [here]; exact mem⟩⟩
        next none_ =>
          cases hy
          exact ⟨state, fun here => absurd (here ▸ back) none_⟩
    by_cases here : t.valve = v
    · rw [planCourse_cons]
      exact planCourse_off (courseOf_wf w t) settled' fun y hy => ⟨(after y hy).1, (after y hy).2 here⟩
    · exact ih (courseOf_wf w t) settled' (fun y hy => (after y hy).1)
        ⟨t', (List.mem_cons.mp mem').resolve_left fun k => here (k ▸ same), same⟩
        ((reopens_of_courses course v id).trans back)

end

end Sys2Proof.Proofs
end


section
/-!
What a delivery hands on (R46, R61, R62, R137): the pressure states with their marks, the liveness of feeds, and the
pressure confirmations.
-/

namespace Sys2Proof.Proofs

open Sys2Proof Sys2Proof.Machine

section
variable {p q r : Part} {n f id : Nat}

/-! ## Pressure states (R61, R79) -/

theorem writePressure_get? (s : Nat) (p : Part) (n : Nat) : (writePressure s p).1.segments.get? n =
    (p.segments.get? n).map fun x => if n = s then { x with pressure := derivePressure p.points s } else x := by
  unfold writePressure
  cases h : p.segments.get? s with
  | none =>
    dsimp only
    cases hn : p.segments.get? n with
    | none => rfl
    | some x =>
      have other : n ≠ s := fun same => by rw [same, h] at hn; cases hn
      simp [other]
  | some x =>
    dsimp only
    split
    next same =>
      by_cases here : n = s
      · subst here
        simp [h, same]
      · simp [here]
    · rw [get?_set]
      by_cases here : n = s
      · subst here
        simp [h]
      · simp [here]

theorem writePressure_changes (s : Nat) (p : Part) :
    (writePressure s p).2 = true ↔ ∃ x, p.segments.get? s = some x ∧ derivePressure p.points s ≠ x.pressure := by
  unfold writePressure
  cases h : p.segments.get? s with
  | none => simp
  | some x =>
    dsimp only
    split
    next same => simp [same]
    next other => simp [other]

theorem writePressure_frame (s : Nat) (p : Part) :
    (writePressure s p).1 = { p with segments := (writePressure s p).1.segments } := by
  unfold writePressure
  split
  · rfl
  · dsimp only
    split <;> rfl

theorem writePressures_get? (ss : List Nat) (p : Part) (n : Nat) : (writePressures ss p).1.segments.get? n =
    (p.segments.get? n).map fun x => if n ∈ ss then { x with pressure := derivePressure p.points n } else x := by
  rw [writePressures_part]
  induction ss generalizing p with
  | nil => simp
  | cons s rest ih =>
    have points : (writePressure s p).1.points = p.points := by rw [writePressure_frame]
    rw [List.foldl_cons, ih, writePressure_get?, points, Option.map_map]
    refine congrArg (fun g => (p.segments.get? n).map g) (funext fun x => ?_)
    by_cases here : n = s
    · subst here
      simp
    · simp [here]

/-- The segments listed as changed are those whose pressure state has changed. -/
theorem mem_writePressures (ss : List Nat) (p : Part) (n : Nat) : n ∈ (writePressures ss p).2 ↔
    n ∈ ss ∧ ∃ x, p.segments.get? n = some x ∧ derivePressure p.points n ≠ x.pressure := by
  have each : ∀ (ss changed : List Nat) (p : Part), n ∈ (ss.foldl (fun (p, changed) seg =>
      let (p, c) := writePressure seg p
      (p, if c then changed ++ [seg] else changed)) (p, changed)).2 ↔
      n ∈ changed ∨ (n ∈ ss ∧ ∃ x, p.segments.get? n = some x ∧ derivePressure p.points n ≠ x.pressure) := by
    intro ss
    induction ss with
    | nil => simp
    | cons s rest ih =>
      intro changed p
      have points : (writePressure s p).1.points = p.points := by rw [writePressure_frame]
      have later := ih (if (writePressure s p).2 = true then changed ++ [s] else changed) (writePressure s p).1
      have listed : n ∈ (if (writePressure s p).2 = true then changed ++ [s] else changed) ↔
          n ∈ changed ∨ (n = s ∧ ∃ x, p.segments.get? n = some x ∧ derivePressure p.points n ≠ x.pressure) := by
        split
        next c =>
          rw [List.mem_append, List.mem_singleton]
          exact or_congr_right (iff_self_and.mpr fun same => same ▸ (writePressure_changes s p).mp c)
        next c => exact ⟨.inl, fun h => h.elim (fun h => h) fun ⟨same, ch⟩ =>
            absurd ((writePressure_changes s p).mpr (same ▸ ch)) c⟩
      rw [writePressure_get?, points, listed] at later
      refine later.trans ?_
      rw [List.mem_cons]
      by_cases here : n = s
      · subst here
        simp only [if_true, Option.map_eq_some_iff]
        constructor
        · rintro ((h | ⟨-, ch⟩) | ⟨-, y, ⟨x, -, rfl⟩, ch⟩)
          · exact .inl h
          · exact .inr ⟨.inl trivial, ch⟩
          · exact absurd rfl ch
        · rintro (h | ⟨-, ch⟩)
          · exact .inl (.inl h)
          · exact .inl (.inr ⟨trivial, ch⟩)
      · simp [here]
  exact (each ss [] p).trans (by simp)

/-- The part once the pressure states of some segments are derived again, the changed ones marked. -/
def pressured (ss : List Nat) (p : Part) : Part := markSegments (writePressures ss p).2 (writePressures ss p).1

theorem pressured_frame (ss : List Nat) (p : Part) : ∃ link segments,
    pressured ss p = { p with link := link, segments := segments } := by
  obtain ⟨link, segments, frame⟩ := markSegments_frame (writePressures ss p).2 (writePressures ss p).1
  refine ⟨link, segments, ?_⟩
  rw [pressured, frame, writePressures_frame]

theorem pressured_get? (ss : List Nat) (p : Part) (n : Nat) : (pressured ss p).segments.get? n =
    (p.segments.get? n).map fun x => if n ∈ ss then { x with
      pressure := derivePressure p.points n
      changed := x.changed || decide (derivePressure p.points n ≠ x.pressure) } else x := by
  rw [pressured, markSegments_get?, writePressures_get?]
  cases h : p.segments.get? n with
  | none => rfl
  | some x =>
    rw [Option.map_some, Option.map_some, Option.map_some]
    simp only [mem_writePressures, h, Option.some.injEq, exists_eq_left']
    by_cases mem : n ∈ ss <;> simp [mem]

/-! ## Liveness (R62) -/

/-- The part once the liveness of some feeds is derived again. -/
def enlivened (fs : List Nat) (p : Part) : Part := fs.foldl (fun p f => writeLiveness f p) p

theorem writeLiveness_frame (f : Nat) (p : Part) : ∃ feeds pending,
    writeLiveness f p = { p with feeds := feeds, trace := { p.trace with pendingCause := pending } } := by
  unfold writeLiveness
  split
  · exact ⟨_, _, rfl⟩
  · dsimp only
    split
    · exact ⟨_, _, rfl⟩
    · rw [raise_eq]
      exact ⟨_, _, rfl⟩

theorem writeLiveness_get? (f : Nat) (p : Part) (k : Nat) : (writeLiveness f p).feeds.get? k =
    (p.feeds.get? k).map fun fd => if k = f then { fd with live := deriveLive p.points fd } else fd := by
  unfold writeLiveness
  cases h : p.feeds.get? f with
  | none =>
    dsimp only
    cases hk : p.feeds.get? k with
    | none => rfl
    | some fd =>
      have other : k ≠ f := fun same => by rw [same, h] at hk; cases hk
      simp [other]
  | some fd =>
    dsimp only
    split
    next same =>
      by_cases here : k = f
      · subst here
        simp [h, same]
      · simp [here]
    · rw [raise_eq]
      dsimp only
      rw [get?_set]
      by_cases here : k = f
      · subst here
        simp [h]
      · simp [here]

/-- A change of liveness leaves supply-pending set. -/
theorem writeLiveness_pending (f : Nat) (p : Part) (h : p.trace.pendingCause.isSome = true ∨
    ∃ fd, p.feeds.get? f = some fd ∧ deriveLive p.points fd ≠ fd.live) :
    (writeLiveness f p).trace.pendingCause.isSome = true := by
  unfold writeLiveness
  split
  next none_ =>
    rcases h with h | ⟨fd, found, -⟩
    · exact h
    · rw [none_] at found; cases found
  next fd found =>
    dsimp only
    split
    next same =>
      rcases h with h | ⟨fd', found', changes⟩
      · exact h
      · cases found.symm.trans found'
        exact absurd same changes
    · rw [raise_eq]
      rfl

theorem enlivened_frame (fs : List Nat) (p : Part) : ∃ feeds pending,
    enlivened fs p = { p with feeds := feeds, trace := { p.trace with pendingCause := pending } } := by
  unfold enlivened
  induction fs generalizing p with
  | nil => exact ⟨_, _, rfl⟩
  | cons f rest ih =>
    obtain ⟨feeds, pending, first⟩ := writeLiveness_frame f p
    obtain ⟨feeds', pending', later⟩ := ih (writeLiveness f p)
    exact ⟨feeds', pending', by rw [List.foldl_cons, later, first]⟩

theorem enlivened_get? (fs : List Nat) (p : Part) (k : Nat) : (enlivened fs p).feeds.get? k =
    (p.feeds.get? k).map fun fd => if k ∈ fs then { fd with live := deriveLive p.points fd } else fd := by
  unfold enlivened
  induction fs generalizing p with
  | nil => simp
  | cons f rest ih =>
    obtain ⟨feeds, pending, first⟩ := writeLiveness_frame f p
    have points : (writeLiveness f p).points = p.points := by rw [first]
    rw [List.foldl_cons, ih, writeLiveness_get?, points, Option.map_map]
    refine congrArg (fun g => (p.feeds.get? k).map g) (funext fun fd => ?_)
    have idle : ∀ live, deriveLive p.points { fd with live := live } = deriveLive p.points fd := fun _ => rfl
    by_cases here : k = f
    · subst here
      simp [idle]
    · simp [here]

theorem enlivened_pending {fs : List Nat} {p : Part} (h : p.trace.pendingCause.isSome = true ∨
    ∃ f ∈ fs, ∃ fd, p.feeds.get? f = some fd ∧ deriveLive p.points fd ≠ fd.live) :
    (enlivened fs p).trace.pendingCause.isSome = true := by
  unfold enlivened
  induction fs generalizing p with
  | nil => exact h.elim (fun h => h) fun ⟨f, mem, _⟩ => absurd mem List.not_mem_nil
  | cons f rest ih =>
    rw [List.foldl_cons]
    rcases h with h | ⟨g, mem, fd, found, changes⟩
    · exact ih (.inl (writeLiveness_pending f p (.inl h)))
    · by_cases here : g = f
      · subst here
        exact ih (.inl (writeLiveness_pending g p (.inr ⟨fd, found, changes⟩)))
      · obtain ⟨feeds, pending, first⟩ := writeLiveness_frame f p
        have points : (writeLiveness f p).points = p.points := by rw [first]
        refine ih (.inr ⟨g, (List.mem_cons.mp mem).resolve_left here, fd, ?_, by rw [points]; exact changes⟩)
        rw [writeLiveness_get?, found, Option.map_some, if_neg here]

/-! ## Pressure confirmations (R137) -/

theorem raisedFor_iff {i : Incident} : i.RaisedFor n ↔ (decide (i.segment = some n) && i.confirmable) = true := by
  simp only [Incident.RaisedFor, Incident.confirmable, Bool.and_eq_true, Bool.or_eq_true, decide_eq_true_eq, bne_iff_ne]
  tauto

/-- A confirmation raises the lowest incident that it may raise, or, with none, nothing (R137). -/
theorem pressureConfirm_cases (w : p.register.incidents.wf 128 = true) (n point : Nat) :
    (pressureConfirm n point p = p ∧ ∀ k j, p.register.incidents.get? k = some j → ¬j.RaisedFor n) ∨
    ∃ id i, p.register.incidents.get? id = some i ∧ i.RaisedFor n ∧
      pressureConfirm n point p = raiseGrade id .a .pressure (some point) p := by
  unfold pressureConfirm
  cases head : (p.register.incidents.idsWhere fun _ i => decide (i.segment = some n) && i.confirmable).head? with
  | none =>
    refine .inl ⟨rfl, fun k j hj raised => ?_⟩
    have listed := (mem_idsWhere (f := fun _ i => decide (i.segment = some n) && i.confirmable) w).mpr
      ⟨j, hj, raisedFor_iff.mp raised⟩
    rw [List.head?_eq_none_iff.mp head] at listed
    cases listed
  | some id =>
    obtain ⟨⟨i, hi, test⟩, -⟩ := head?_idsWhere w head
    exact .inr ⟨id, i, hi, raisedFor_iff.mpr test, rfl⟩

/-- The incidents after the confirmations of some points, each with its segment. -/
def confirmed (cs : List (Nat × Nat)) (p : Part) : Part := cs.foldl (fun p c => pressureConfirm c.2 c.1 p) p

theorem confirmed_keeps {α : Type} (get : Part → α) (h : ∀ n point p, get (pressureConfirm n point p) = get p)
    (cs : List (Nat × Nat)) (p : Part) : get (confirmed cs p) = get p :=
  Laws.foldl_keeps get (fun p (c : Nat × Nat) => pressureConfirm c.2 c.1 p) (fun p c => h c.2 c.1 p) cs p

/-- The time, the register but for its incidents, and what was not raised are kept by a raise. -/
theorem confirmed_raise {i : Incident} (h : p.register.incidents.get? id = some i) (point : Option Nat) :
    ∃ j, Rewritten p (raiseGrade id .a .pressure point p) id j ∧ p.Followed i j ∧ (∀ m, ¬j.RaisedFor m) ∧ j = { i with
      grade := .a, deadline := min i.deadline (i.openedTime + p.response .a)
      level := j.level, nextEscalation := j.nextEscalation } := by
  obtain ⟨j, written, followed, eq⟩ := raiseGrade_spec h .a .pressure point
  exact ⟨j, written, followed, fun m raised => raised.2.2.2 (by rw [eq]), eq⟩

theorem Rewritten.response {j : Incident} (h : Rewritten p q id j) (g : Grade) : q.response g = p.response g := by
  unfold Part.response
  rw [h.register]

theorem raiseGrade_wf (w : p.register.incidents.wf 128 = true) (id : Nat) (g : Grade) (cause : UpgradeCause)
    (point : Option Nat) : (raiseGrade id g cause point p).register.incidents.wf 128 = true := by
  have followed : ∀ (old : Nat) (q : Part), q.register.incidents.wf 128 = true →
      (followDeadline id old q).register.incidents.wf 128 = true := by
    intro old q w
    unfold followDeadline
    split
    · exact w
    next i hi =>
      split
      · split
        · exact Laws.wf_set_used _ _ _ _ _ w hi
        · rw [escalateAt_of_get? hi]
          exact Laws.wf_set_used _ _ _ _ _ w hi
      · exact w
  unfold raiseGrade
  split
  · exact w
  next i hi => exact followed _ _ (Laws.wf_set_used _ _ _ _ _ w hi)

theorem pressureConfirm_wf (w : p.register.incidents.wf 128 = true) (n point : Nat) :
    (pressureConfirm n point p).register.incidents.wf 128 = true := by
  unfold pressureConfirm
  split
  · exact w
  · exact raiseGrade_wf w _ _ _ _

/-- The incidents after some confirmations (R137, R140). -/
theorem confirmed_spec : ∀ {cs : List (Nat × Nat)} {p : Part}, p.register.incidents.wf 128 = true →
    p.Confirmed (confirmed cs p) fun n => ∃ id, (id, n) ∈ cs := by
  intro cs
  induction cs with
  | nil =>
    intro p w
    exact ⟨rfl, fun _ none_ => none_, fun id i hi => ⟨fun _ => hi, fun n ⟨_, mem⟩ => absurd mem List.not_mem_nil⟩⟩
  | cons c rest ih =>
    intro p w
    obtain ⟨point, n⟩ := c
    obtain ⟨register, none_, spec⟩ := ih (pressureConfirm_wf w n point)
    show p.Confirmed (confirmed rest (pressureConfirm n point p)) _
    rcases pressureConfirm_cases w n point with ⟨same, out⟩ | ⟨k, i', hi', raised', step⟩
    · rw [same] at register none_ spec ⊢
      refine ⟨register, none_, fun id i hi => ⟨fun free => (spec id i hi).1 fun m ⟨a, mem⟩ =>
        free m ⟨a, List.mem_cons_of_mem _ mem⟩, fun m ⟨a, mem⟩ raised only => ?_⟩⟩
      refine (spec id i hi).2 m ⟨a, (List.mem_cons.mp mem).resolve_left fun same => ?_⟩ raised only
      cases same
      exact out id i hi raised
    · rw [step] at register none_ spec ⊢
      obtain ⟨j, written, followed, done, eq⟩ := confirmed_raise hi' (some point)
      generalize raiseGrade k .a .pressure (some point) p = q at written register none_ spec ⊢
      have others : ∀ m, m ≠ k → q.register.incidents.get? m = p.register.incidents.get? m := written.others
      refine ⟨by rw [register, written.register], fun id free => ?_, fun id i hi => ?_⟩
      · by_cases here : id = k
        · subst here
          cases hi'.symm.trans free
        · exact none_ id ((others id here).trans free)
      · by_cases here : id = k
        · subst here
          cases hi'.symm.trans hi
          have stays := (spec id j written.this).1 fun m _ => done m
          refine ⟨fun free => absurd raised' (free n ⟨point, List.mem_cons_self⟩), fun m _ _ _ => ⟨j, stays, followed, eq⟩⟩
        · have hi'' := (others id here).trans hi
          refine ⟨fun free => (spec id i hi'').1 fun m ⟨a, mem⟩ => free m ⟨a, List.mem_cons_of_mem _ mem⟩,
            fun m ⟨a, mem⟩ raised only => ?_⟩
          have later : (a, m) ∈ rest := (List.mem_cons.mp mem).resolve_left fun same => by
            cases same
            exact here (only k i' hi' raised').symm
          obtain ⟨now, found, follows, now_eq⟩ := (spec id i hi'').2 m ⟨a, later⟩ raised fun l x hx rx => by
            by_cases there : l = k
            · subst there
              cases written.this.symm.trans hx
              exact absurd rx (done m)
            · exact only l x ((others l there).symm.trans hx) rx
          refine ⟨now, found, written.followed follows, ?_⟩
          rw [written.response] at now_eq
          exact now_eq

end

end Sys2Proof.Proofs
end


section
/-!
A DATA reply delivered to the points of its outstation (R46, R48, R57), and what it hands on.
-/

namespace Sys2Proof.Proofs

open Sys2Proof Sys2Proof.Machine

section
variable {p q : Part} {id k n os : Nat} {pt : Point} {data : ReplyData} {hand : HandOn}

/-! ## What a point's change hands on (R51) -/

theorem confirming_eq (st : PressureState) :
    (st.falling && decide (st.band = .low ∨ st.band = .lowTrip)) = st.confirming := by
  rw [PressureState.confirming]
  cases st.band <;> simp [Band.isLow]

theorem beginsFor_pressure {before after : Point} {seg seg' : Option Nat} {c c' : PressureSettings} {st st' : PressureState}
    (h : before.body = .pressure seg c st) (h' : after.body = .pressure seg' c' st') :
    before.beginsFor after = if (!st.confirming && st'.confirming) = true then seg else none := by
  simp only [Point.beginsFor, h, h', confirming_eq]

theorem note_confirming (hand : HandOn) (id : Nat) (seg : Option Nat) (st st' : PressureState) :
    (hand.note id seg st st').confirming = hand.confirming ++
      ((if (!st.confirming && st'.confirming) = true then seg else none).map fun n => (id, n)).toList := by
  have kept : (if st.band = st'.band then hand else { hand with entered := hand.entered ++ [id] }).confirming =
      hand.confirming := by split <;> rfl
  unfold HandOn.note
  cases seg with
  | none => simp [kept]
  | some s =>
    dsimp only
    split
    · simp [kept]
    · simp [kept]

theorem note_entered (hand : HandOn) (id : Nat) (seg : Option Nat) (st st' : PressureState) :
    (hand.note id seg st st').entered = if st.band = st'.band then hand.entered else hand.entered ++ [id] := by
  have noted : (hand.note id seg st st').entered =
      (if st.band = st'.band then hand else { hand with entered := hand.entered ++ [id] }).entered := by
    unfold HandOn.note
    cases seg with
    | none => rfl
    | some s => dsimp only; split <;> rfl
  rw [noted]
  split <;> rfl

/-! ## One point -/

/-- A point's delivery: the record, the notices and what it notes to hand on. -/
structure Sampled (data : ReplyData) (id : Nat) (pt : Point) (p : Part) (hand : HandOn) (r : Part × HandOn) : Prop where
  frame : ∃ link points panel, r.1 = { p with link := link, points := points, panel := panel }
  points : ∀ k, r.1.points.get? k = if k = id then some (pt.sampled data p.time) else p.points.get? k
  confirming : r.2.confirming = hand.confirming ++
    ((pt.beginsFor (pt.sampled data p.time)).map fun n => (id, n)).toList
  entered : ∀ k, k ∈ r.2.entered ↔ k ∈ hand.entered ∨ (k = id ∧ pt.band? ≠ (pt.sampled data p.time).band?)

theorem sampled_unheard {seg : Option Nat} {c : PressureSettings} {st : PressureState} (body : pt.body = .pressure seg c st)
    (none_ : data.counts[pt.input]? = none) (now : Nat) : pt.sampled data now = pt := by
  simp only [Point.sampled, body, none_]

theorem beginsFor_self (pt : Point) : pt.beginsFor pt = none := by
  cases body : pt.body with
  | pressure seg c st => rw [beginsFor_pressure body body]; simp
  | discrete d => simp only [Point.beginsFor, body]

theorem deliverPoint_sampled (hpt : p.points.get? id = some pt) (data : ReplyData) (hand : HandOn) :
    Sampled data id pt p hand (deliverPoint data id (p, hand)) := by
  have written : ∀ k, (p.points.set id (pt.sampled data p.time)).get? k =
      if k = id then some (pt.sampled data p.time) else p.points.get? k := fun k => get?_set _ _ _ _
  cases body : pt.body with
  | pressure seg c st =>
    cases got : data.counts[pt.input]? with
    | none =>
      have same := sampled_unheard body got p.time
      have stays : deliverPoint data id (p, hand) = (p, hand) := by simp only [deliverPoint, hpt, body, got]
      rw [stays]
      refine ⟨⟨_, _, _, rfl⟩, fun k => ?_, ?_, fun k => ?_⟩
      · split
        next here => rw [here, same]; exact hpt
        · rfl
      · rw [same, beginsFor_self]; simp
      · rw [same]; simp
    | some count =>
      have after : (pt.sampled data p.time).body = .pressure seg c (pressureSample c p.time pt.quality st count).2 := by
        simp only [Point.sampled, body, got]
      have step := deliverPoint_pressure (h := hand) hpt body got
      dsimp only at step
      rw [step]
      generalize (pressureSample c p.time pt.quality st count).2 = st' at after ⊢
      refine ⟨?_, fun k => ?_, ?_, fun k => ?_⟩
      · dsimp only
        split
        · exact ⟨_, _, _, rfl⟩
        · exact ⟨_, _, _, rfl⟩
      · rw [← written]
        dsimp only
        split <;> rfl
      · rw [beginsFor_pressure body after, note_confirming]
      · have before : pt.band? = some st.band := by rw [Point.band?, body]
        have now : (pt.sampled data p.time).band? = some st'.band := by rw [Point.band?, after]
        dsimp only
        rw [note_entered, before, now]
        split
        next same => simp [same]
        next other => simp [other]
  | discrete d =>
    have after : (pt.sampled data p.time).body = .discrete (discreteSample d (data.word.getLsbD pt.input)).1 := by
      simp only [Point.sampled, body]
    have step := deliverPoint_discrete (data := data) (h := hand) hpt body
    have none_ : pt.beginsFor (pt.sampled data p.time) = none := by simp only [Point.beginsFor, body]
    have band : pt.band? = (pt.sampled data p.time).band? := by simp only [Point.band?, body, after]
    rw [step]
    refine ⟨?_, fun k => ?_, ?_, fun k => ?_⟩
    · dsimp only
      split
      · exact ⟨_, _, _, rfl⟩
      · exact ⟨_, _, _, rfl⟩
    · rw [← written]
      dsimp only
      split <;> rfl
    · rw [none_]; simp
    · simp [band]

/-! ## All the points of an outstation -/

/-- The pressure confirmations that a delivery to some points brings, in their order. -/
def begunBy (data : ReplyData) (p : Part) (ids : List Nat) : List (Nat × Nat) := ids.filterMap fun id =>
  (p.points.get? id).bind fun pt => (pt.beginsFor (pt.sampled data p.time)).map fun n => (id, n)

theorem delivered_spec (data : ReplyData) : ∀ (ids : List Nat) (p : Part) (hand : HandOn), ids.Nodup →
    (∀ id ∈ ids, ∃ pt, p.points.get? id = some pt) →
    let r := ids.foldl (fun acc id => deliverPoint data id acc) (p, hand)
    (∃ link points panel, r.1 = { p with link := link, points := points, panel := panel }) ∧
    (∀ k, r.1.points.get? k = (p.points.get? k).map fun pt => if k ∈ ids then pt.sampled data p.time else pt) ∧
    r.2.confirming = hand.confirming ++ begunBy data p ids ∧
    ∀ k, k ∈ r.2.entered ↔ k ∈ hand.entered ∨
      (k ∈ ids ∧ ∃ pt, p.points.get? k = some pt ∧ pt.band? ≠ (pt.sampled data p.time).band?) := by
  intro ids
  induction ids with
  | nil =>
    intro p hand _ _ r
    exact ⟨⟨_, _, _, rfl⟩, fun k => by simp [r], by simp [r, begunBy], fun k => by simp [r]⟩
  | cons id rest ih =>
    intro p hand once found
    obtain ⟨fresh, once⟩ := List.nodup_cons.mp once
    obtain ⟨pt, hpt⟩ := found id List.mem_cons_self
    obtain ⟨⟨link, points, panel, frame⟩, set_, confirming, entered⟩ := deliverPoint_sampled hpt data hand
    rw [List.foldl_cons]
    generalize deliverPoint data id (p, hand) = step at frame set_ confirming entered ⊢
    obtain ⟨p', hand'⟩ := step
    dsimp only at frame set_ confirming entered
    have time : p'.time = p.time := by rw [frame]; rfl
    have apart : ∀ k ∈ rest, p'.points.get? k = p.points.get? k := fun k mem => by
      rw [set_, if_neg]
      rintro rfl
      exact fresh mem
    have later := ih p' hand' once fun k mem => by
      rw [apart k mem]
      exact found k (List.mem_cons_of_mem _ mem)
    rw [time] at later
    obtain ⟨⟨link', points', panel', frame'⟩, set', confirming', entered'⟩ := later
    refine ⟨⟨link', points', panel', by rw [frame', frame]⟩, fun k => ?_, ?_, fun k => ?_⟩
    · rw [set', set_]
      by_cases here : k = id
      · subst here
        simp [hpt, fresh]
      · simp [here]
    · rw [confirming', confirming, List.append_assoc]
      refine congrArg _ ?_
      have same : begunBy data p' rest = begunBy data p rest :=
        List.filterMap_congr fun k mem => by rw [apart k mem, time]
      rw [same, begunBy, begunBy, List.filterMap_cons, hpt, Option.bind_some]
      cases pt.beginsFor (pt.sampled data p.time) <;> rfl
    · rw [entered', entered, List.mem_cons, or_assoc]
      refine or_congr_right ?_
      by_cases here : k = id
      · subst here
        simp [hpt, fresh]
      · rw [set_, if_neg here]
        simp [here]

theorem mem_pointsOf (w : p.points.wf 256 = true) :
    id ∈ p.pointsOf os ↔ ∃ pt, p.points.get? id = some pt ∧ pt.outstation = os := by
  rw [Part.pointsOf, mem_idsWhere w]
  simp

theorem mem_pressureSegmentsOf (w : p.points.wf 256 = true) : n ∈ p.pressureSegmentsOf os ↔
    ∃ id pt c st, p.points.get? id = some pt ∧ pt.outstation = os ∧ pt.body = .pressure (some n) c st := by
  rw [Part.pressureSegmentsOf, mem_sortIds, List.mem_filterMap]
  constructor
  · rintro ⟨⟨id, pt⟩, mem, test⟩
    dsimp only at test
    split at test
    next here =>
      split at test
      next seg c st body =>
        exact ⟨id, pt, c, st, get?_of_mem w mem, here, by rw [body, test]⟩
      · cases test
    · cases test
  · rintro ⟨id, pt, c, st, found, here, body⟩
    refine ⟨(id, pt), Laws.mem_of_get? _ _ _ found, ?_⟩
    dsimp only
    rw [if_pos here, body]

theorem mem_feedsOn (w : p.feeds.wf 64 = true) {points : List Nat} : n ∈ p.feedsOn points ↔
    ∃ fd pt, p.feeds.get? n = some fd ∧ fd.outlet = some pt ∧ pt ∈ points := by
  rw [Part.feedsOn, mem_idsWhere w]
  refine exists_congr fun fd => ?_
  cases fd.outlet with
  | none => simp
  | some pt => simp

/-- What is handed on, but for the confirmations. -/
def handedOn (ss : List Nat) (entered : List Nat) (p : Part) : Part :=
  enlivened ((pressured ss p).feedsOn entered) (pressured ss p)

theorem handOn_eq (ss : List Nat) (hand : HandOn) (p : Part) :
    handOn ss hand p = confirmed hand.confirming (handedOn ss hand.entered p) := rfl

theorem handedOn_frame (ss entered : List Nat) (p : Part) : ∃ link segments feeds pending, handedOn ss entered p = { p with
    link := link, segments := segments, feeds := feeds, trace := { p.trace with pendingCause := pending } } := by
  obtain ⟨link, segments, first⟩ := pressured_frame ss p
  obtain ⟨feeds, pending, later⟩ := enlivened_frame ((pressured ss p).feedsOn entered) (pressured ss p)
  exact ⟨link, segments, feeds, pending, by rw [handedOn, later, first]⟩

theorem handedOn_segments (ss entered : List Nat) (p : Part) (n : Nat) : (handedOn ss entered p).segments.get? n =
    (p.segments.get? n).map fun x => if n ∈ ss then { x with
      pressure := derivePressure p.points n
      changed := x.changed || decide (derivePressure p.points n ≠ x.pressure) } else x := by
  obtain ⟨feeds, pending, frame⟩ := enlivened_frame ((pressured ss p).feedsOn entered) (pressured ss p)
  rw [handedOn, frame]
  exact pressured_get? ss p n

theorem deriveLive_congr {points points' : Table Point} {fd : Feed} (h : ∀ k, fd.outlet = some k →
    (points'.get? k).bind Point.band? = (points.get? k).bind Point.band?) : deriveLive points' fd = deriveLive points fd := by
  unfold deriveLive
  cases outlet : fd.outlet with
  | none => rfl
  | some k =>
    dsimp only
    rw [h k outlet]

/-- Feeds after what is handed on: each one whose outlet entered a band is live as it gives (R62). -/
theorem handedOn_feeds (ss entered : List Nat) (w : p.feeds.wf 64 = true) (n : Nat) {fd : Feed}
    (h : p.feeds.get? n = some fd) (elsewhere : ∀ k, fd.outlet = some k → k ∉ entered → fd.live = deriveLive p.points fd)
    (free : fd.outlet = none → fd.live = deriveLive p.points fd) :
    (handedOn ss entered p).feeds.get? n = some { fd with live := deriveLive p.points fd } ∧
      (deriveLive p.points fd ≠ fd.live → (handedOn ss entered p).trace.pendingCause.isSome = true) := by
  obtain ⟨link, segments, frame⟩ := pressured_frame ss p
  have feeds : (pressured ss p).feeds = p.feeds := by rw [frame]
  have points : (pressured ss p).points = p.points := by rw [frame]
  have listed : n ∈ (pressured ss p).feedsOn entered ↔ ∃ k, fd.outlet = some k ∧ k ∈ entered := by
    rw [mem_feedsOn (by rw [feeds]; exact w), feeds, h]
    simp
  have stays : n ∉ (pressured ss p).feedsOn entered → fd.live = deriveLive p.points fd := fun out => by
    cases outlet : fd.outlet with
    | none => exact free outlet
    | some k => exact elsewhere k outlet fun mem => out (listed.mpr ⟨k, outlet, mem⟩)
  refine ⟨?_, fun changes => ?_⟩
  · rw [handedOn, enlivened_get?, feeds, h, points, Option.map_some]
    split
    · rfl
    next out => rw [← stays out]
  · by_cases mem : n ∈ (pressured ss p).feedsOn entered
    · exact enlivened_pending (.inr ⟨n, mem, fd, by rw [feeds]; exact h, by rw [points]; exact changes⟩)
    · exact absurd (stays mem).symm changes

end

end Sys2Proof.Proofs
end


section
/-!
The slot reports of a DATA reply from an ACTUATOR (R33, R71, R112, R115): the positions written, and the valves touched.
-/

namespace Sys2Proof.Proofs

open Sys2Proof Sys2Proof.Machine

section
variable {p q : Part} {os u v : Nat} {st : SlotStatus} {x : Valve} {slots : List SlotStatus}

/-! ## Which valve a slot carries -/

theorem valveOn_some (w : p.valves.wf 768 = true) {slot : Nat} (h : p.valveOn os slot = some v) :
    ∃ x, p.valves.get? v = some x ∧ x.actuated = true ∧ x.outstation = os ∧ x.slot = slot := by
  obtain ⟨⟨x, hx, test⟩, -⟩ := head?_idsWhere w h
  simp only [Bool.and_eq_true, decide_eq_true_eq] at test
  exact ⟨x, hx, test.1.1, test.1.2, test.2⟩

theorem valveOn_alone (w : p.valves.wf 768 = true) (h : p.valves.get? v = some x) (actuated : x.actuated = true)
    (here : x.outstation = os) (only : ∀ u y, p.valves.get? u = some y → y.actuated = true → y.outstation = os →
      y.slot = x.slot → u = v) : p.valveOn os x.slot = some v := by
  have listed : v ∈ p.valves.idsWhere fun _ y => y.actuated && decide (y.outstation = os) && decide (y.slot = x.slot) :=
    (mem_idsWhere w).mpr ⟨x, h, by simp [actuated, here]⟩
  cases head : p.valveOn os x.slot with
  | none =>
    rw [List.head?_eq_none_iff.mp head] at listed
    cases listed
  | some u =>
    obtain ⟨y, hy, act, there, slot⟩ := valveOn_some w head
    rw [only u y hy act there slot]

theorem mem_slotReports {e : Nat × SlotStatus} :
    e ∈ p.slotReports os slots ↔ ∃ slot, slots[slot]? = some e.2 ∧ p.valveOn os slot = some e.1 := by
  obtain ⟨v, st⟩ := e
  rw [Part.slotReports, List.mem_filterMap]
  constructor
  · rintro ⟨⟨st', slot⟩, mem, found⟩
    obtain ⟨u, hu, same⟩ := Option.map_eq_some_iff.mp found
    cases same
    exact ⟨slot, List.mem_zipIdx_iff_getElem?.mp mem, hu⟩
  · rintro ⟨slot, got, on⟩
    exact ⟨(st, slot), List.mem_zipIdx_iff_getElem?.mpr got, by rw [on]; rfl⟩

/-- No valve is reported twice. -/
theorem slotReports_once (w : p.valves.wf 768 = true) (os : Nat) (slots : List SlotStatus) :
    ((p.slotReports os slots).map (·.1)).Nodup := by
  have rise : slots.zipIdx.Pairwise fun a b => a.2 ≠ b.2 := by
    have : (slots.zipIdx.map (·.2)).Nodup := by
      rw [List.zipIdx_map_snd]
      exact List.nodup_range'
    exact List.pairwise_map.mp this
  refine List.pairwise_map.mpr (List.pairwise_filterMap.mpr (rise.imp fun {a b} other e he e' he' same => other ?_))
  obtain ⟨v, hv, rfl⟩ := Option.map_eq_some_iff.mp he
  obtain ⟨v', hv', rfl⟩ := Option.map_eq_some_iff.mp he'
  obtain ⟨x, hx, -, -, slot⟩ := valveOn_some w hv
  obtain ⟨x', hx', -, -, slot'⟩ := valveOn_some w hv'
  cases (show v = v' from same)
  cases hx.symm.trans hx'
  exact slot.symm.trans slot'

/-! ## Positions written (R71) -/

/-- A valve's record with a slot report's position, and the end that it gives. -/
def reportedValve (st : SlotStatus) (x : Valve) : Valve :=
  { x with position := st.position.1, lastEnd := st.position.2.getD x.lastEnd }

theorem writePosition_frame (v : Nat) (pos : Position) (reached : Option End) (p : Part) : ∃ valves pending,
    (writePosition v pos reached p).1 = { p with valves := valves, trace := { p.trace with pendingCause := pending } } := by
  unfold writePosition
  split
  · exact ⟨_, _, rfl⟩
  · dsimp only
    split
    · exact ⟨_, _, rfl⟩
    · rw [raise_eq]
      exact ⟨_, _, rfl⟩

theorem writePosition_get? (v : Nat) (st : SlotStatus) (p : Part) (u : Nat) :
    (writePosition v st.position.1 st.position.2 p).1.valves.get? u =
      (p.valves.get? u).map fun x => if u = v then reportedValve st x else x := by
  unfold writePosition
  cases h : p.valves.get? v with
  | none =>
    dsimp only
    cases hu : p.valves.get? u with
    | none => rfl
    | some x =>
      have other : u ≠ v := fun same => by rw [same, h] at hu; cases hu
      simp [other]
  | some x =>
    have written : (p.valves.set v (reportedValve st x)).get? u =
        (p.valves.get? u).map fun x => if u = v then reportedValve st x else x := by
      rw [get?_set]
      by_cases here : u = v
      · subst here
        simp [h]
      · simp [here]
    dsimp only
    split
    · exact written
    · rw [raise_eq]
      exact written

theorem writePosition_changes (v : Nat) (st : SlotStatus) (p : Part) (u : Nat) :
    u ∈ (writePosition v st.position.1 st.position.2 p).2 ↔
      p.lastEnd? u ≠ (writePosition v st.position.1 st.position.2 p).1.lastEnd? u := by
  rw [Part.lastEnd?, Part.lastEnd?, writePosition_get?]
  unfold writePosition
  cases h : p.valves.get? v with
  | none =>
    dsimp only
    cases hu : p.valves.get? u with
    | none => simp
    | some x =>
      have other : u ≠ v := fun same => by rw [same, h] at hu; cases hu
      simp [other]
  | some x =>
    dsimp only
    by_cases here : u = v
    · subst here
      split
      next same => simp [h, reportedValve, same]
      next other => simpa [h, reportedValve] using Ne.symm other
    · split <;> simp [here]

theorem writePosition_pending (v : Nat) (pos : Position) (reached : Option End) (p : Part)
    (h : p.trace.pendingCause.isSome = true ∨ (writePosition v pos reached p).2 ≠ []) :
    (writePosition v pos reached p).1.trace.pendingCause.isSome = true := by
  unfold writePosition at h ⊢
  split
  next none_ =>
    simp only [none_] at h
    exact h.resolve_right fun k => k rfl
  next x hx =>
    simp only [hx] at h
    dsimp only
    split
    next same =>
      rw [if_pos same] at h
      exact h.resolve_right fun k => k rfl
    · rw [raise_eq]
      rfl

/-- A fold over parts and lists, its first step apart. -/
theorem foldl_lists {α β : Type} (f : α → Part → Part × List β) (as : List α) (p : Part) (bs : List β) :
    as.foldl (fun (p, bs) a => let (p, b) := f a p; (p, bs ++ b)) (p, bs) =
      ((as.foldl (fun (p, bs) a => let (p, b) := f a p; (p, bs ++ b)) (p, [])).1,
        bs ++ (as.foldl (fun (p, bs) a => let (p, b) := f a p; (p, bs ++ b)) (p, [])).2) := by
  induction as generalizing p bs with
  | nil => simp
  | cons a rest ih =>
    rw [List.foldl_cons, List.foldl_cons]
    refine (ih (f a p).1 (bs ++ (f a p).2)).trans ?_
    have first := ih (f a p).1 ([] ++ (f a p).2)
    refine Prod.ext (congrArg Prod.fst first).symm ?_
    have second := congrArg Prod.snd first
    dsimp only at second ⊢
    rw [second, List.nil_append, List.append_assoc]

theorem writeSlots_cons (e : Nat × SlotStatus) (rs : List (Nat × SlotStatus)) (p : Part) :
    let first := writePosition e.1 e.2.position.1 e.2.position.2 p
    writeSlots (e :: rs) p = ((writeSlots rs first.1).1, first.2 ++ (writeSlots rs first.1).2) :=
  foldl_lists (fun (e : Nat × SlotStatus) p => writePosition e.1 e.2.position.1 e.2.position.2 p) rs _ _

/-- What the writing of some slot reports, each of another valve, leaves (R71, R85). -/
theorem writeSlots_spec : ∀ {rs : List (Nat × SlotStatus)} {p : Part}, (rs.map (·.1)).Nodup →
    let r := writeSlots rs p
    (∃ valves pending, r.1 = { p with valves := valves, trace := { p.trace with pendingCause := pending } }) ∧
    (∀ e ∈ rs, r.1.valves.get? e.1 = (p.valves.get? e.1).map (reportedValve e.2)) ∧
    (∀ u, (∀ e ∈ rs, e.1 ≠ u) → r.1.valves.get? u = p.valves.get? u) ∧
    (∀ u, u ∈ r.2 ↔ p.lastEnd? u ≠ r.1.lastEnd? u) ∧
    (p.trace.pendingCause.isSome = true ∨ r.2 ≠ [] → r.1.trace.pendingCause.isSome = true) := by
  intro rs
  induction rs with
  | nil =>
    intro p _
    exact ⟨⟨_, _, rfl⟩, fun e mem => absurd mem List.not_mem_nil, fun _ _ => rfl, fun u => by simp [writeSlots],
      fun h => h.resolve_right fun k => k rfl⟩
  | cons e rest ih =>
    intro p once r
    obtain ⟨fresh, once⟩ := List.nodup_cons.mp once
    have set_ := writePosition_get? e.1 e.2 p
    have changes := writePosition_changes e.1 e.2 p
    have pending := writePosition_pending e.1 e.2.position.1 e.2.position.2 p
    obtain ⟨valves₁, pending₁, frame⟩ := writePosition_frame e.1 e.2.position.1 e.2.position.2 p
    have r_eq : r = _ := writeSlots_cons e rest p
    generalize writePosition e.1 e.2.position.1 e.2.position.2 p = first at set_ changes pending frame r_eq
    obtain ⟨⟨valves₂, pending₂, frame'⟩, set', others', changes', pending'⟩ := ih (p := first.1) once
    have apart : ∀ a ∈ rest, a.1 ≠ e.1 := fun a mem same => fresh (List.mem_map.mpr ⟨a, mem, same⟩)
    rw [r_eq]
    dsimp only
    have here : (writeSlots rest first.1).1.valves.get? e.1 = (p.valves.get? e.1).map (reportedValve e.2) := by
      rw [others' e.1 apart, set_]
      simp
    refine ⟨⟨valves₂, pending₂, by rw [frame', frame]⟩, fun a mem => ?_, fun u out => ?_, fun u => ?_, fun h => ?_⟩
    · rcases List.mem_cons.mp mem with rfl | mem
      · exact here
      · rw [set' a mem, set_]
        simp [apart a mem]
    · rw [others' u fun a mem => out a (List.mem_cons_of_mem _ mem), set_]
      simp [Ne.symm (out e List.mem_cons_self)]
    · rw [List.mem_append, changes, changes']
      by_cases same : u = e.1
      · subst same
        have stays : (writeSlots rest first.1).1.lastEnd? e.1 = first.1.lastEnd? e.1 := by
          rw [Part.lastEnd?, Part.lastEnd?, others' e.1 apart]
        rw [stays]
        exact or_iff_left fun k => k rfl
      · have stays : first.1.lastEnd? u = p.lastEnd? u := by
          rw [Part.lastEnd?, Part.lastEnd?, set_]
          simp [same]
        rw [stays]
        exact or_iff_right fun k => k rfl
    · refine pending' ?_
      rcases h with h | h
      · exact .inl (pending (.inl h))
      · by_cases none_ : first.2 = []
        · rw [none_] at h
          exact .inr h
        · exact .inl (pending (.inr none_))

theorem writeSlots_op? {rs : List (Nat × SlotStatus)} (once : (rs.map (·.1)).Nodup) (p : Part) (u : Nat) :
    (writeSlots rs p).1.op? u = p.op? u := by
  obtain ⟨-, set_, others, -⟩ := writeSlots_spec (p := p) once
  by_cases mem : ∃ e ∈ rs, e.1 = u
  · obtain ⟨e, he, rfl⟩ := mem
    rw [Part.op?, Part.op?, set_ e he]
    cases p.valves.get? e.1 <;> rfl
  · rw [Part.op?, Part.op?, others u fun e he same => mem ⟨e, he, same⟩]

/-! ## The operations' reports (R112, R115) -/

theorem works_opSlotReport (v : Nat) (st : SlotStatus) (p : Part) : Works p (opSlotReport v st p).1 := by
  unfold opSlotReport
  split
  · exact .refl p
  · dsimp only
    split
    · split
      · split
        · exact works_finishOp v p
        · split
          · exact (works_failOp v .torque p).trans (works_offerStop v _)
          · exact .refl p
      · exact .refl p
    · split
      · exact works_finishOp v p
      · exact .refl p

theorem opSlotReport_touched (v : Nat) (st : SlotStatus) (p : Part) : (opSlotReport v st p).2.valve = v := by
  unfold opSlotReport
  split
  · rfl
  · dsimp only
    split
    · split
      · split
        · rfl
        · split <;> rfl
      · rfl
    · split <;> rfl

/-- No report leaves an operation PENDING that was not. -/
theorem opSlotReport_settles (v : Nat) (st : SlotStatus) (p : Part) (u : Nat)
    (settled : ∀ o, p.op? u = some o → o.state ≠ .pending) :
    ∀ o, (opSlotReport v st p).1.op? u = some o → o.state ≠ .pending := by
  have ended : ∀ (new : OpState), new ≠ .pending → ∀ o : Operation,
      ((p.op? u).map fun o => if u = v then Operation.ended o new p.time else o) = some o → o.state ≠ .pending := by
    intro new over_ o ho
    obtain ⟨o', ho', rfl⟩ := Option.map_eq_some_iff.mp ho
    split
    · exact over_
    · exact settled o' ho'
  unfold opSlotReport
  split
  · exact settled
  · dsimp only
    split
    · split
      · split
        · intro o ho
          exact ended .done (by simp) o ((finishOp_op? v p u).symm.trans ho)
        · split
          · intro o ho
            rw [op?_of_valves (p := failOp v .torque p) (by simp)] at ho
            exact ended (.failed .torque) (by simp) o ((failOp_op? v .torque p u).symm.trans ho)
          · exact settled
      · exact settled
    · split
      · intro o ho
        exact ended .done (by simp) o ((finishOp_op? v p u).symm.trans ho)
      · exact settled

/-- A valve whose report fails its operation is settled. -/
theorem opSlotReport_settled (v : Nat) (st : SlotStatus) (p : Part) :
    settledTouch (opSlotReport v st p).2 (opSlotReport v st p).1 := by
  intro failed
  rw [opSlotReport_touched]
  unfold opSlotReport at failed ⊢
  split at failed
  · cases failed
  next o ho =>
    dsimp only at failed ⊢
    split at failed
    next field =>
      split at failed
      next acting =>
        split at failed
        · cases failed
        next short =>
          split at failed
          next torque =>
            intro o' ho'
            simp only [acting, if_true, if_neg short, if_pos torque] at ho'
            rw [op?_of_valves (p := failOp v .torque p) (by simp), failOp_op?, ho, Option.map_some, if_pos rfl] at ho'
            cases ho'
            simp [Operation.ended]
          · cases failed
      · cases failed
    · split at failed <;> cases failed

theorem reportSlots_cons (e : Nat × SlotStatus) (rs : List (Nat × SlotStatus)) (p : Part) :
    let first := opSlotReport e.1 e.2 p
    reportSlots (e :: rs) p = ((reportSlots rs first.1).1, first.2 :: (reportSlots rs first.1).2) :=
  foldl_lists (fun (e : Nat × SlotStatus) p => ((opSlotReport e.1 e.2 p).1, [(opSlotReport e.1 e.2 p).2])) rs _ _

/-- What the reports of some slots leave: each touches its valve, and those whose operations failed are settled. -/
theorem reportSlots_spec : ∀ (rs : List (Nat × SlotStatus)) (p : Part), let r := reportSlots rs p
    Works p r.1 ∧ r.2.map (·.valve) = rs.map (·.1) ∧ (∀ t ∈ r.2, settledTouch t r.1) ∧
    ∀ u, (∀ o, p.op? u = some o → o.state ≠ .pending) → ∀ o, r.1.op? u = some o → o.state ≠ .pending := by
  intro rs
  induction rs with
  | nil => exact fun p => ⟨.refl p, rfl, fun t mem => absurd mem List.not_mem_nil, fun _ h => h⟩
  | cons e rest ih =>
    intro p r
    have r_eq : r = _ := reportSlots_cons e rest p
    obtain ⟨works, touched, settled, settles⟩ := ih (opSlotReport e.1 e.2 p).1
    rw [r_eq]
    refine ⟨(works_opSlotReport _ _ p).trans works, ?_, fun t mem => ?_, fun u h => settles u (opSlotReport_settles _ _ p u h)⟩
    · rw [List.map_cons, List.map_cons, touched, opSlotReport_touched]
    · rcases List.mem_cons.mp mem with rfl | mem
      · exact fun failed => settles _ (opSlotReport_settled _ _ p failed)
      · exact settled t mem

end

end Sys2Proof.Proofs
end


section
/-!
A DATA reply delivered whole (R33, R46): the points, what they hand on, and, from an ACTUATOR, the positions, the snoop
and the plans.
-/

namespace Sys2Proof.Proofs

open Sys2Proof Sys2Proof.Machine

section
variable {p q : Part} {id k n os v : Nat} {pt : Point} {data : ReplyData}

/-! ## The points of an outstation -/

theorem sampled_outstation (data : ReplyData) (now : Nat) (pt : Point) :
    (pt.sampled data now).outstation = pt.outstation := by
  unfold Point.sampled
  split
  · split <;> rfl
  · rfl

/-- A sample leaves a point PRESSURE with its segment, or DISCRETE. -/
theorem sampled_watches (data : ReplyData) (now : Nat) (pt : Point) (seg : Option Nat) :
    (∃ c st, (pt.sampled data now).body = .pressure seg c st) ↔ ∃ c st, pt.body = .pressure seg c st := by
  unfold Point.sampled
  cases body : pt.body with
  | pressure seg' c st =>
    dsimp only
    split
    · rw [body]
    · simp
  | discrete d => simp

/-- What a DATA reply leaves when it has been handed on, but for the confirmations. -/
structure Delivered (os : Nat) (data : ReplyData) (p r : Part) : Prop where
  clock : r.clock = p.clock
  register : r.register = p.register
  valves : r.valves = p.valves
  plans : r.plans = p.plans
  trace : r.trace = { p.trace with pendingCause := r.trace.pendingCause }
  points : ∀ k, r.points.get? k =
    (p.points.get? k).map fun pt => if pt.outstation = os then pt.sampled data p.time else pt
  segments : ∀ n x, p.segments.get? n = some x → ∃ b,
    ((∃ id pt c st, p.points.get? id = some pt ∧ pt.outstation = os ∧ pt.body = .pressure (some n) c st) →
      b = derivePressure r.points n) ∧
    ((¬∃ id pt c st, p.points.get? id = some pt ∧ pt.outstation = os ∧ pt.body = .pressure (some n) c st) →
      b = x.pressure) ∧
    r.segments.get? n = some { x with pressure := b, changed := x.changed || decide (b ≠ x.pressure) }
  feeds : (∀ f fd, p.feeds.get? f = some fd → fd.live = deriveLive p.points fd) → ∀ f fd, p.feeds.get? f = some fd →
    r.feeds.get? f = some { fd with live := deriveLive r.points fd } ∧
      (deriveLive r.points fd ≠ fd.live → r.trace.pendingCause.isSome = true)

theorem deliverPoints_spec (w : p.tablesOk) (os : Nat) (data : ReplyData) :
    ∃ r, deliverPoints os data p = confirmed (begunBy data p (p.pointsOf os)) r ∧ Delivered os data p r := by
  have tables := w
  obtain ⟨-, pts, -, -, fds, -⟩ := w
  have once : (p.pointsOf os).Nodup := idsWhere_nodup pts _
  have listed : ∀ id, id ∈ p.pointsOf os ↔ ∃ pt, p.points.get? id = some pt ∧ pt.outstation = os := fun id => mem_pointsOf pts
  have moved : ((p.pointsOf os).foldl (fun acc id => deliverPoint data id acc) (p, {})).1.tablesOk :=
    (Laws.m_foldlWith _ (fun x i => Laws.m_deliverPoint data i x) _ (p, {}) (.refl p)).tables tables
  obtain ⟨⟨link, points, panel, frame⟩, sampled, confirming, entered⟩ := delivered_spec data (p.pointsOf os) p {} once
    fun id mem => let ⟨pt, hpt, _⟩ := (listed id).mp mem; ⟨pt, hpt⟩
  have whole : deliverPoints os data p = handOn
      (((p.pointsOf os).foldl (fun acc id => deliverPoint data id acc) (p, {})).1.pressureSegmentsOf os)
      ((p.pointsOf os).foldl (fun acc id => deliverPoint data id acc) (p, {})).2
      ((p.pointsOf os).foldl (fun acc id => deliverPoint data id acc) (p, {})).1 := rfl
  rw [whole]
  generalize (p.pointsOf os).foldl (fun acc id => deliverPoint data id acc) (p, {}) = step at *
  obtain ⟨s, hand⟩ := step
  dsimp only at *
  rw [handOn_eq, confirming, List.nil_append]
  refine ⟨_, rfl, ?_⟩
  obtain ⟨link', segments, feeds, pending, frame'⟩ := handedOn_frame (s.pressureSegmentsOf os) hand.entered s
  have kept : (handedOn (s.pressureSegmentsOf os) hand.entered s).points = s.points := by rw [frame']
  have old : s.segments = p.segments ∧ s.feeds = p.feeds := by rw [frame]; exact ⟨rfl, rfl⟩
  have now : ∀ k, s.points.get? k =
      (p.points.get? k).map fun pt => if pt.outstation = os then pt.sampled data p.time else pt := fun k => by
    rw [sampled]
    cases h : p.points.get? k with
    | none => rfl
    | some pt =>
      have mem : k ∈ p.pointsOf os ↔ pt.outstation = os := by rw [listed, h]; simp
      simp only [Option.map_some, mem]
  have frame'' := frame'
  rw [frame] at frame''
  refine ⟨by rw [frame, frame''], by rw [frame, frame''], by rw [frame, frame''], by rw [frame, frame''],
    by rw [frame, frame''], fun k => by rw [kept, now], fun n x hx => ?_, fun all f fd hf => ?_⟩
  · have watched : n ∈ s.pressureSegmentsOf os ↔
        ∃ id pt c st, p.points.get? id = some pt ∧ pt.outstation = os ∧ pt.body = .pressure (some n) c st := by
      rw [mem_pressureSegmentsOf moved.2.1]
      refine exists_congr fun id => ?_
      rw [now]
      cases h : p.points.get? id with
      | none => simp
      | some pt =>
        have body := sampled_watches data p.time pt (some n)
        have same := sampled_outstation data p.time pt
        by_cases here : pt.outstation = os
        · simp only [Option.map_some, Option.some.injEq, if_pos here]
          constructor
          · rintro ⟨_, c, st, rfl, -, hb⟩
            obtain ⟨c', st', hb'⟩ := body.mp ⟨c, st, hb⟩
            exact ⟨pt, c', st', rfl, here, hb'⟩
          · rintro ⟨_, c, st, rfl, -, hb⟩
            obtain ⟨c', st', hb'⟩ := body.mpr ⟨c, st, hb⟩
            exact ⟨_, c', st', rfl, same.trans here, hb'⟩
        · simp only [Option.map_some, Option.some.injEq, if_neg here]
    have found := handedOn_segments (s.pressureSegmentsOf os) hand.entered s n
    rw [old.1, hx, Option.map_some] at found
    rw [kept]
    by_cases mem : n ∈ s.pressureSegmentsOf os
    · rw [if_pos mem] at found
      exact ⟨_, fun _ => rfl, fun out => absurd (watched.mp mem) out, found⟩
    · rw [if_neg mem] at found
      exact ⟨_, fun some_ => absurd (watched.mpr some_) mem, fun _ => rfl, by simpa using found⟩
  · rw [kept]
    refine handedOn_feeds _ _ (by rw [old.2]; exact fds) f (by rw [old.2]; exact hf) (fun k outlet out => ?_) fun none_ => ?_
    · rw [all f fd hf]
      refine (deriveLive_congr fun k' outlet' => ?_).symm
      cases outlet.symm.trans outlet'
      rw [now]
      cases h : p.points.get? k with
      | none => rfl
      | some pt =>
        rw [Option.map_some, Option.bind_some, Option.bind_some]
        split
        next here =>
          by_contra changes
          exact out ((entered k).mpr (.inr ⟨(listed k).mpr ⟨pt, h, here⟩, pt, h, Ne.symm changes⟩))
        · rfl
    · rw [all f fd hf]
      refine (deriveLive_congr fun k outlet => ?_).symm
      rw [none_] at outlet
      cases outlet

theorem begunBy_eq (w : p.points.wf 256 = true) (os : Nat) (data : ReplyData) : begunBy data p (p.pointsOf os) =
    p.points.entries.filterMap fun e => if e.2.outstation = os then
      (e.2.beginsFor (e.2.sampled data p.time)).map fun n => (e.1, n) else none := by
  rw [begunBy, Part.pointsOf, Table.idsWhere, List.filterMap_map, List.filterMap_filter]
  refine List.filterMap_congr fun e mem => ?_
  have found : p.points.get? e.1 = some e.2 := get?_of_mem w mem
  simp only [decide_eq_true_eq, Function.comp_apply, found, Option.bind_some]

/-- An ACTUATOR's reply has no counts: no point begins confirming by it. -/
theorem begunBy_actuator (slots : List SlotStatus) (word : BitVec 16) (ids : List Nat) :
    begunBy (.actuator slots word) p ids = [] := by
  refine List.filterMap_eq_nil_iff.mpr fun id _ => ?_
  cases p.points.get? id with
  | none => rfl
  | some pt =>
    rw [Option.bind_some]
    cases body : pt.body with
    | pressure seg c st => rw [sampled_unheard body rfl, beginsFor_self]; rfl
    | discrete d =>
      have none_ : pt.beginsFor (pt.sampled (.actuator slots word) p.time) = none := by simp only [Point.beginsFor, body]
      rw [none_]
      rfl

end

end Sys2Proof.Proofs
end


section
/-!
Ride-through expiries and DATA replies (R46, R55, R61, R62, R137): points, segments, feeds, valves, plans and incidents.
-/

namespace Sys2Proof.Proofs

open Sys2Proof Sys2Proof.Machine

section
variable {p q r : Part} {id k n os v : Nat} {pt : Point} {data : ReplyData}

/-! ## A DATA reply, part by part -/

theorem countGood_frame (os : Nat) (p : Part) : ∃ link outstations,
    countGood os p = { p with link := link, outstations := outstations } := setComm_frame os _ _ p

theorem delivered_counted (w : p.tablesOk) (os : Nat) (data : ReplyData) : ∃ r,
    deliverPoints os data (countGood os p) = confirmed (begunBy data p (p.pointsOf os)) r ∧ Delivered os data p r := by
  obtain ⟨link, outstations, frame⟩ := countGood_frame os p
  obtain ⟨r, eq, delivered⟩ := deliverPoints_spec ((Laws.m_countGood os p).tables w) os data
  rw [frame] at eq delivered
  obtain ⟨clock, register, valves, plans, trace, points, segments, feeds⟩ := delivered
  exact ⟨r, by rw [frame]; exact eq, clock, register, valves, plans, trace, points, segments, feeds⟩

theorem stationReply_eq (w : p.tablesOk) (os : Nat) (counts : List Nat) (word : BitVec 16) : ∃ r,
    dataReply os (.station counts word) p =
      dispatchDecide (confirmed (begunBy (.station counts word) p (p.pointsOf os)) r) ∧
    Delivered os (.station counts word) p r := by
  obtain ⟨r, eq, delivered⟩ := delivered_counted w os (.station counts word)
  exact ⟨r, congrArg dispatchDecide eq, delivered⟩

theorem slotReports_congr (h : q.valves = p.valves) (os : Nat) (slots : List SlotStatus) :
    q.slotReports os slots = p.slotReports os slots := by
  simp only [Part.slotReports, Part.valveOn, h]

theorem actuatorReply_eq (w : p.tablesOk) (os : Nat) (slots : List SlotStatus) (word : BitVec 16) : ∃ r,
    dataReply os (.actuator slots word) p = dispatchDecide (planCourse (takeSlots (p.slotReports os slots) r).2
      (takeSlots (p.slotReports os slots) r).1) ∧
    Delivered os (.actuator slots word) p r := by
  obtain ⟨r, eq, delivered⟩ := delivered_counted w os (.actuator slots word)
  rw [begunBy_actuator] at eq
  have same : deliverPoints os (.actuator slots word) (countGood os p) = r := eq
  refine ⟨r, ?_, delivered⟩
  rw [← slotReports_congr delivered.valves, ← same]
  rfl

/-- What the slot reports of a reply leave before the plans are tested (R33, R71, R107, R112, R115). -/
theorem takeSlots_spec {rs : List (Nat × SlotStatus)} (once : (rs.map (·.1)).Nodup) (w : r.plans.wf 16 = true) :
    let t := takeSlots rs r
    let written := writeSlots rs r
    (t.1.plans.wf 16 = true ∧ (∀ x ∈ t.2, settledTouch x t.1) ∧ t.2.map (·.valve) = rs.map (·.1)) ∧
    (t.1.points = r.points ∧ t.1.segments = r.segments ∧ t.1.feeds = r.feeds ∧ t.1.clock = r.clock) ∧
    (∀ v, t.1.bare v = written.1.bare v) ∧
    (∀ id, t.1.plans.get? id = (r.plans.get? id).map fun x => x.snooped written.2 r.time) ∧
    Trace.Entered written.1.trace t.1.trace written.2 := by
  intro t written
  obtain ⟨⟨valves, pending, frame⟩, -⟩ := writeSlots_spec (p := r) once
  have snooped := snoop_frame written.2 none written.1
  obtain ⟨works, touched, settled, -⟩ := reportSlots_spec rs (snoop written.2 none written.1)
  have wf : written.1.plans.wf 16 = true := by rw [show written.1.plans = r.plans by rw [frame]]; exact w
  have t_eq : t = reportSlots rs (snoop written.2 none written.1) := rfl
  have stays : t.1 = { written.1 with
      link := t.1.link, lines := t.1.lines, outstations := t.1.outstations, valves := t.1.valves
      dispatch := t.1.dispatch, trace := t.1.trace, plans := t.1.plans } := by
    have := works.frame
    rw [← t_eq] at this
    rw [snooped] at this
    rw [this]
  have rest : t.1.points = r.points ∧ t.1.segments = r.segments ∧ t.1.feeds = r.feeds ∧ t.1.clock = r.clock := by
    rw [stays, frame]
    exact ⟨rfl, rfl, rfl, rfl⟩
  have plans : t.1.plans = (snoop written.2 none written.1).plans := by rw [t_eq, works.frame]
  refine ⟨⟨by rw [plans]; exact snoop_wf wf _ _, settled, touched⟩, rest, fun v => ?_, fun id => ?_, ?_⟩
  · exact (works.bare v).trans (bare_of_valves (by rw [snooped]) v)
  · rw [plans, snoop_get? wf, show written.1.plans = r.plans by rw [frame], show written.1.time = r.time by rw [frame]; rfl]
    rfl
  · rw [show t.1.trace = (snoop written.2 none written.1).trace by rw [t_eq, works.frame]]
    exact snoop_entered _ _ _

theorem snooped_congr {x : Plan} {vs vs' : List Nat} (h : ∀ v, v ∈ vs ↔ v ∈ vs') (now : Nat) :
    x.snooped vs now = x.snooped vs' now := by simp only [Plan.snooped, h]

/-- A valve whose slot an ACTUATOR's reply carries, and which has the slot for itself. -/
def aloneOn (p : Part) (os : Nat) (slots : List SlotStatus) (v : Nat) : Prop :=
  ∃ valve, p.valves.get? v = some valve ∧ valve.actuated = true ∧ valve.outstation = os ∧ valve.slot < slots.length ∧
    ∀ u x, p.valves.get? u = some x → x.actuated = true → x.outstation = os → x.slot = valve.slot → u = v

theorem reported_of_alone (w : p.valves.wf 768 = true) {slots : List SlotStatus} (h : aloneOn p os slots v) :
    ∃ e ∈ p.slotReports os slots, e.1 = v := by
  obtain ⟨valve, hv, actuated, here, inside, only⟩ := h
  exact ⟨(v, slots[valve.slot]), mem_slotReports.mpr ⟨valve.slot, List.getElem?_eq_getElem inside,
    valveOn_alone w hv actuated here only⟩, rfl⟩

section
variable {slots : List SlotStatus} {word : BitVec 16} (w : p.tablesOk) (run : q = dataReply os (.actuator slots word) p)
include w run

/-- Where an ACTUATOR's reply takes valves and plans (R71, R107, R117, R121). -/
theorem actuator_spec : let vs := p.valves.idsWhere fun v _ => decide (p.lastEnd? v ≠ q.lastEnd? v)
    (∃ r, Delivered os (.actuator slots word) p r ∧ q.points = r.points ∧ q.segments = r.segments ∧ q.feeds = r.feeds ∧
      q.clock = r.clock ∧ (r.trace.pendingCause.isSome = true → q.trace.pendingCause.isSome = true)) ∧
    (∀ v, v ∈ q.trace.changeSet ↔ v ∈ p.trace.changeSet ∨ (v ∈ vs ∧ ∃ id, p.trace.engine = .planJob id)) ∧
    (∀ id x, p.plans.get? id = some x →
      (x.state = .ready → q.plans.get? id = some (x.snooped vs p.time)) ∧
      ((x.state = .executing ∨ x.state = .blocked) → (∃ v ∈ x.closeList, aloneOn p os slots v) → q.shut x.closeList →
        ∃ y, q.plans.get? id = some y ∧ y.state = .isolated ∧ y.stateTime = p.time) ∧
      (x.state = .isolated → (∃ v ∈ x.closeList, aloneOn p os slots v ∧ q.lastEnd? v = some .opened) →
        ∃ v ∈ x.closeList, q.lastEnd? v = some .opened ∧
          q.plans.get? id = some { x with state := .blocked, stateTime := p.time, blocking := some v }) ∧
      (x.state = .releasing → ∀ v ∈ x.releaseList, aloneOn p os slots v → (∃ o, q.op? v = some o ∧ o.origin = .plan id ∧
        o.action = .toOpen ∧ o.state = .done) → ∀ y, q.plans.get? id = some y → v ∉ y.releaseList)) ∧
    ∀ e ∈ p.slotReports os slots, ∃ x x', p.valves.get? e.1 = some x ∧ q.valves.get? e.1 = some x' ∧
      x'.position = (reportedValve e.2 x).position ∧ x'.lastEnd = (reportedValve e.2 x).lastEnd ∧
      (x'.lastEnd ≠ x.lastEnd → q.trace.pendingCause.isSome = true) := by
  intro vs
  obtain ⟨r, eq, delivered⟩ := actuatorReply_eq w os slots word
  obtain ⟨-, -, -, valves_wf, -, -, plans_wf, -⟩ := w
  have once := slotReports_once valves_wf os slots
  have reported := fun v (h : aloneOn p os slots v) => reported_of_alone valves_wf h
  have found : ∀ e ∈ p.slotReports os slots, ∃ x, p.valves.get? e.1 = some x := fun e mem => by
    obtain ⟨slot, -, on⟩ := mem_slotReports.mp mem
    obtain ⟨x, hx, -⟩ := valveOn_some valves_wf on
    exact ⟨x, hx⟩
  generalize p.slotReports os slots = rs at *
  obtain ⟨⟨wf, settled, touched⟩, ⟨points, segments, feeds, clock⟩, bare, plans, entered⟩ :=
    takeSlots_spec (r := r) once (by rw [delivered.plans]; exact plans_wf)
  obtain ⟨⟨valves', pending', written_frame⟩, set_, -, changed, raised⟩ := writeSlots_spec (p := r) once
  have q_eq := run.trans eq
  have course := courses_planCourse (takeSlots rs r).2 (takeSlots rs r).1
  have time : (takeSlots rs r).1.time = p.time := by rw [Part.time, clock, delivered.clock, ← Part.time]
  have q_plans : q.plans = (planCourse (takeSlots rs r).2 (takeSlots rs r).1).plans := by
    rw [q_eq, Laws.f_dispatchDecide_plans]
  have q_trace : q.trace = (takeSlots rs r).1.trace := by rw [q_eq, Laws.f_dispatchDecide_trace, course.frame]
  have q_bare : ∀ v, q.bare v = (takeSlots rs r).1.bare v := fun v => by
    rw [q_eq, bare_of_valves (Laws.f_dispatchDecide_valves _), course.bare]
  have q_end : ∀ v, q.lastEnd? v = (takeSlots rs r).1.lastEnd? v := fun v => lastEnd?_of_bare (q_bare v)
  have end_written : ∀ v, q.lastEnd? v = (writeSlots rs r).1.lastEnd? v := fun v =>
    lastEnd?_of_bare ((q_bare v).trans (bare v))
  have old_end : ∀ v, r.lastEnd? v = p.lastEnd? v := fun v => by rw [Part.lastEnd?, Part.lastEnd?, delivered.valves]
  have same_changes : ∀ v, v ∈ (writeSlots rs r).2 ↔ v ∈ vs := fun v => by
    rw [changed, old_end, ← end_written, mem_idsWhere valves_wf]
    simp only [decide_eq_true_eq, exists_and_right]
    refine (and_iff_right_of_imp fun other => ?_).symm
    cases h : p.valves.get? v with
    | some x => exact ⟨x, rfl⟩
    | none =>
      refine absurd ?_ other
      rw [end_written, Part.lastEnd?, Part.lastEnd?, h]
      by_cases mem : ∃ e ∈ rs, e.1 = v
      · obtain ⟨e, he, rfl⟩ := mem
        rw [set_ e he, delivered.valves, h]
        rfl
      · obtain ⟨-, -, others, -⟩ := writeSlots_spec (p := r) once
        rw [others v fun e he here => mem ⟨e, he, here⟩, delivered.valves, h]
  have pending : (writeSlots rs r).1.trace.pendingCause.isSome = true → q.trace.pendingCause.isSome = true := fun h => by
    rw [q_trace, entered.1]
    exact h
  have touches : ∀ v, aloneOn p os slots v → ∃ t ∈ (takeSlots rs r).2, t.valve = v := fun v alone => by
    obtain ⟨e, mem, rfl⟩ := reported v alone
    have : e.1 ∈ (takeSlots rs r).2.map (·.valve) := by rw [touched]; exact List.mem_map.mpr ⟨e, mem, rfl⟩
    obtain ⟨t, ht, same⟩ := List.mem_map.mp this
    exact ⟨t, ht, same⟩
  refine ⟨⟨r, delivered, ?_, ?_, ?_, ?_, fun h => pending (raised (.inl h))⟩, fun v => ?_, fun id x hx => ?_, fun e mem => ?_⟩
  · rw [q_eq, Laws.f_dispatchDecide_points, courses_points course, points]
  · rw [q_eq, Laws.f_dispatchDecide_segments, course.frame]; exact segments
  · rw [q_eq, Laws.f_dispatchDecide_feeds, course.frame]; exact feeds
  · rw [q_eq, Laws.f_dispatchDecide_clock, course.frame]; exact clock
  · have engine : (writeSlots rs r).1.trace.engine = p.trace.engine ∧
        (writeSlots rs r).1.trace.changeSet = p.trace.changeSet := by
      rw [written_frame, delivered.trace]
      exact ⟨rfl, rfl⟩
    rw [q_trace, entered.2, engine.1, engine.2, same_changes]
  · have now : (takeSlots rs r).1.plans.get? id = some (x.snooped (writeSlots rs r).2 p.time) := by
      rw [plans, delivered.plans, hx, Part.time, delivered.clock]
      rfl
    have unread : x.state ≠ .ready → (takeSlots rs r).1.plans.get? id = some x := fun other => by
      rw [now, snooped_of_not_ready other]
    rw [q_plans]
    refine ⟨fun ready => ?_, fun state ⟨v, listed, alone⟩ shut => ?_, fun state ⟨v, listed, alone, opened⟩ => ?_,
      fun state v listed alone ⟨o, ho, origin, action, done⟩ => ?_⟩
    · have rests : (x.snooped (writeSlots rs r).2 p.time).state = .ready ∨
          (x.snooped (writeSlots rs r).2 p.time).state = .stale := by
        rcases snooped_state x (writeSlots rs r).2 p.time with same | ⟨-, stale⟩
        · exact .inl (same.trans ready)
        · exact .inr stale
      rw [planCourse_rests (by rcases rests with h | h <;> simp [h]) (by rcases rests with h | h <;> simp [h]) wf settled now,
        snooped_congr same_changes]
    · obtain ⟨t, ht, rfl⟩ := touches v alone
      obtain ⟨y, hy, isolated, since⟩ := planCourse_isolated wf settled (unread (by rcases state with h | h <;> simp [h]))
        (isolates_iff.mpr ⟨state, (shut_of_bare q_bare).mp shut⟩) ⟨t, ht, listed⟩
      exact ⟨y, hy, isolated, since.trans time⟩
    · obtain ⟨t, ht, rfl⟩ := touches v alone
      obtain ⟨u, inList, open_, broken⟩ := planCourse_broken state wf settled (unread (by simp [state]))
        ⟨t, ht, listed, (q_end _).symm.trans opened⟩
      rw [time] at broken
      exact ⟨u, inList, (q_end u).trans open_, broken⟩
    · refine planCourse_reopened wf settled (fun y hy => ?_) (touches v alone) ?_
      · cases (unread (by simp [state])).symm.trans hy
        exact state
      · rw [← reopens_of_courses course, reopens]
        have : (planCourse (takeSlots rs r).2 (takeSlots rs r).1).op? v = some o := by
          rw [← ho, q_eq]
          exact (op?_of_valves (Laws.f_dispatchDecide_valves _) v).symm
        rw [this]
        simp [origin, action, done]
  · obtain ⟨x, hx⟩ := found e mem
    have after : q.bare e.1 = some { reportedValve e.2 x with operation := none } := by
      rw [q_bare, bare, Part.bare, set_ e mem, delivered.valves, hx]
      rfl
    obtain ⟨x', hx', same⟩ := Option.map_eq_some_iff.mp after
    have lastEnd : x'.lastEnd = (reportedValve e.2 x).lastEnd := by simpa using congrArg Valve.lastEnd same
    refine ⟨x, x', hx, hx', by simpa using congrArg Valve.position same, lastEnd, fun changes => pending (raised (.inr ?_))⟩
    refine List.ne_nil_of_mem ((changed e.1).mpr ?_)
    rw [old_end, Part.lastEnd?, Part.lastEnd?, hx, set_ e mem, delivered.valves, hx]
    simp only [Option.map_some, ne_eq, Option.some.injEq]
    rw [← lastEnd]
    exact Ne.symm changes

end

end

end Sys2Proof.Proofs
end


section
/-!
A ride-through that has run, the pressure state of a segment, and one pressure confirmation (R55, R56, R61, R137).
-/

namespace Sys2Proof.Proofs

open Sys2Proof Sys2Proof.Machine

section
variable {p q r : Part} {id n : Nat} {pt : Point}

/-! ## The pressure state of a segment (R61) -/

/-- The band that some GOOD point among some entries gives a segment. -/
def givesAmong (es : List (Nat × Point)) (segment : Nat) (b : Band) : Prop :=
  ∃ e ∈ es, e.2.contributes segment = some b

/-- A band is no less severe than another, the low side before the high. -/
def noLess (a b : Band) : Prop := b.severity < a.severity ∨ (b.severity = a.severity ∧ (b.isLow = true → a.isLow = true))

theorem worstBand_cases (a b : Band) : (worstBand a b = a ∨ worstBand a b = b) ∧
    noLess (worstBand a b) a ∧ noLess (worstBand a b) b := by
  unfold worstBand noLess
  split
  next less => exact ⟨.inr rfl, .inl less, .inr ⟨rfl, fun h => h⟩⟩
  · split
    next less => exact ⟨.inl rfl, .inr ⟨rfl, fun h => h⟩, .inl less⟩
    next noLess noMore =>
      have same : a.severity = b.severity := by omega
      split
      next low => exact ⟨.inr rfl, .inr ⟨same, fun _ => low⟩, .inr ⟨rfl, fun h => h⟩⟩
      next high => exact ⟨.inl rfl, .inr ⟨rfl, fun h => h⟩, .inr ⟨same.symm, fun low => absurd low high⟩⟩

theorem noLess_trans {a b c : Band} (h : noLess a b) (k : noLess b c) : noLess a c := by
  unfold noLess at *
  rcases h with h | ⟨same, low⟩
  · rcases k with k | ⟨same', -⟩
    · exact .inl (by omega)
    · exact .inl (by omega)
  · rcases k with k | ⟨same', low'⟩
    · exact .inl (by omega)
    · exact .inr ⟨by omega, fun h => low (low' h)⟩

/-- The band of some entries folded onto one that has been found. -/
def worstOf (es : List (Nat × Point)) (segment : Nat) (found : Option Band) : Option Band :=
  es.foldl (fun acc e => match acc, e.2.contributes segment with
    | none, b => b
    | some a, none => some a
    | some a, some b => some (worstBand a b)) found

theorem worstOf_some (segment : Nat) : ∀ (es : List (Nat × Point)) (a : Band), ∃ b, worstOf es segment (some a) = some b ∧
    (b = a ∨ givesAmong es segment b) ∧ noLess b a ∧ ∀ b', givesAmong es segment b' → noLess b b' := by
  intro es
  induction es with
  | nil => exact fun a => ⟨a, rfl, .inl rfl, .inr ⟨rfl, fun h => h⟩, fun b' ⟨e, mem, _⟩ => absurd mem List.not_mem_nil⟩
  | cons e rest ih =>
    intro a
    cases given : e.2.contributes segment with
    | none =>
      obtain ⟨b, found, from_, least, others⟩ := ih a
      have step : worstOf (e :: rest) segment (some a) = worstOf rest segment (some a) := by
        simp only [worstOf, List.foldl_cons, given]
      refine ⟨b, step.trans found, from_.imp_right fun ⟨e', mem, h⟩ => ⟨e', List.mem_cons_of_mem _ mem, h⟩, least,
        fun b' ⟨e', mem, h⟩ => others b' ⟨e', (List.mem_cons.mp mem).resolve_left fun same => ?_, h⟩⟩
      rw [same, given] at h
      cases h
    | some c =>
      obtain ⟨b, found, from_, least, others⟩ := ih (worstBand a c)
      obtain ⟨which, overA, overC⟩ := worstBand_cases a c
      have step : worstOf (e :: rest) segment (some a) = worstOf rest segment (some (worstBand a c)) := by
        simp only [worstOf, List.foldl_cons, given]
      refine ⟨b, step.trans found, ?_, noLess_trans least overA, fun b' ⟨e', mem, h⟩ => ?_⟩
      · rcases from_ with rfl | ⟨e', mem, h⟩
        · exact which.imp_right fun same => ⟨e, List.mem_cons_self, by rw [given, same]⟩
        · exact .inr ⟨e', List.mem_cons_of_mem _ mem, h⟩
      · rcases List.mem_cons.mp mem with rfl | mem
        · cases given.symm.trans h
          exact noLess_trans least overC
        · exact others b' ⟨e', mem, h⟩

theorem worstOf_none (segment : Nat) : ∀ es : List (Nat × Point),
    (worstOf es segment none = none ↔ ∀ b, ¬givesAmong es segment b) ∧
    ∀ b, worstOf es segment none = some b → givesAmong es segment b ∧ ∀ b', givesAmong es segment b' → noLess b b' := by
  intro es
  induction es with
  | nil => exact ⟨⟨fun _ b ⟨e, mem, _⟩ => absurd mem List.not_mem_nil, fun _ => rfl⟩, fun b h => by cases h⟩
  | cons e rest ih =>
    cases given : e.2.contributes segment with
    | none =>
      have step : worstOf (e :: rest) segment none = worstOf rest segment none := by
        simp only [worstOf, List.foldl_cons, given]
      have same : ∀ b, givesAmong (e :: rest) segment b ↔ givesAmong rest segment b := fun b =>
        ⟨fun ⟨e', mem, h⟩ => ⟨e', (List.mem_cons.mp mem).resolve_left fun same => absurd h (by rw [same, given]; simp), h⟩,
          fun ⟨e', mem, h⟩ => ⟨e', List.mem_cons_of_mem _ mem, h⟩⟩
      rw [step]
      simp only [same]
      exact ih
    | some a =>
      obtain ⟨b, found, from_, least, others⟩ := worstOf_some segment rest a
      have step : worstOf (e :: rest) segment none = worstOf rest segment (some a) := by
        simp only [worstOf, List.foldl_cons, given]
      have first : givesAmong (e :: rest) segment a := ⟨e, List.mem_cons_self, given⟩
      rw [step, found]
      refine ⟨⟨fun h => absurd h (by simp), fun none_ => absurd first (none_ a)⟩, fun b' same => ?_⟩
      cases same
      refine ⟨?_, fun b' ⟨e', mem, h⟩ => ?_⟩
      · rcases from_ with rfl | ⟨e', mem, h⟩
        · exact first
        · exact ⟨e', List.mem_cons_of_mem _ mem, h⟩
      · rcases List.mem_cons.mp mem with rfl | mem
        · cases given.symm.trans h
          exact least
        · exact others b' ⟨e', mem, h⟩

theorem contributes_iff {b : Band} : pt.contributes n = some b ↔
    ∃ c st, pt.quality = .good ∧ pt.body = .pressure (some n) c st ∧ st.band = b := by
  unfold Point.contributes
  cases body : pt.body with
  | discrete d => simp
  | pressure seg c st =>
    dsimp only
    constructor
    · intro h
      split at h
      next both =>
        rw [Bool.and_eq_true, decide_eq_true_eq, decide_eq_true_eq] at both
        exact ⟨c, st, both.2, by rw [both.1], Option.some.inj h⟩
      · cases h
    · rintro ⟨c', st', good, same, rfl⟩
      cases same
      simp [good]

theorem derivePressure_spec {points : Table Point} (w : points.wf 256 = true) (segment : Nat) :
    let gives := fun (b : Band) => ∃ id pt c st, points.get? id = some pt ∧ pt.quality = .good ∧
      pt.body = .pressure (some segment) c st ∧ st.band = b
    (derivePressure points segment = none ↔ ∀ b, ¬ gives b) ∧
    (∀ b, derivePressure points segment = some b → gives b ∧ ∀ b', gives b' →
      b'.severity < b.severity ∨ (b'.severity = b.severity ∧ (b'.isLow = true → b.isLow = true))) := by
  intro gives
  have same : ∀ b, givesAmong points.entries segment b ↔ gives b := fun b =>
    ⟨fun ⟨e, mem, h⟩ => let ⟨c, st, good, body, band⟩ := contributes_iff.mp h
      ⟨e.1, e.2, c, st, get?_of_mem w mem, good, body, band⟩,
    fun ⟨id, pt, c, st, found, good, body, band⟩ =>
      ⟨(id, pt), Laws.mem_of_get? _ _ _ found, contributes_iff.mpr ⟨c, st, good, body, band⟩⟩⟩
  have spec := worstOf_none segment points.entries
  have eq : worstOf points.entries segment none = derivePressure points segment := rfl
  simp only [same, eq, noLess] at spec
  exact spec

/-! ## One confirmation (R137, R140) -/

theorem pressureConfirm_raises {i : Incident} (w : p.register.incidents.wf 128 = true)
    (h : p.register.incidents.get? id = some i) (raised : i.RaisedFor n)
    (only : ∀ k j, p.register.incidents.get? k = some j → j.RaisedFor n → k = id) (point : Nat) :
    pressureConfirm n point p = raiseGrade id .a .pressure (some point) p := by
  rcases pressureConfirm_cases w n point with ⟨-, none_⟩ | ⟨k, j, hj, raised', eq⟩
  · exact absurd raised (none_ id i h)
  · rw [eq, only k j hj raised']

theorem confirmation_cases {i : Incident} (w : p.register.incidents.wf 128 = true)
    (h : p.register.incidents.get? id = some i) (raised : i.RaisedFor n)
    (only : ∀ k j, p.register.incidents.get? k = some j → j.RaisedFor n → k = id) (point : Nat) :
    let put := fun (i : Incident) (q : Part) => refreshLamps { q with register := { q.register with
      incidents := q.register.incidents.set id i } }
    let deadline := min i.deadline (i.openedTime + p.response .a)
    let raised := { i with grade := .a, deadline := deadline }
    let told := place (.incidentUpgraded id i.grade .a .pressure (some point) deadline) (put raised p)
    let next := p.time + 60 * p.register.interval
    let follows := deadline < i.deadline ∧ i.level = 0 ∧ (i.state = .opened ∨ i.state = .assigned)
    (¬ follows → pressureConfirm n point p = told) ∧
    (follows → p.time < deadline → pressureConfirm n point p = put { raised with nextEscalation := some deadline } told) ∧
    (follows → deadline ≤ p.time → pressureConfirm n point p = place (.incidentEscalated id 1 i.state deadline (some next))
      (put { raised with level := 1, nextEscalation := some next } told)) := by
  intro put deadline raised' told next follows
  have found : told.register.incidents.get? id = some raised' := Laws.get?_set_same _ _ _
  have step : pressureConfirm n point p = followDeadline id i.deadline told := by
    rw [pressureConfirm_raises w h raised only]
    simp only [raiseGrade, Part.incident?, h]
    rfl
  have test : (decide (raised'.deadline < i.deadline) && raised'.unreached && decide (raised'.level = 0)) = true ↔ follows := by
    simp only [Bool.and_eq_true, decide_eq_true_eq, unreached_iff, follows, raised', deadline]
    tauto
  rw [step]
  simp only [followDeadline, Part.incident?, found]
  refine ⟨fun no => if_neg (test.not.mpr no), fun yes later => ?_, fun yes came => ?_⟩
  · exact (if_pos (test.mpr yes)).trans (if_pos later)
  · refine ((if_pos (test.mpr yes)).trans (if_neg (Nat.not_lt.mpr came))).trans ?_
    rw [escalateAt_of_get? found]
    have zero : raised'.level = 0 := yes.2.1
    simp only [zero]
    rfl

/-! ## A ride-through that has run (R55, R56) -/

theorem confirmed_congr {p' q' : Part} {S S' : Nat → Prop} (register : p'.register = p.register) (time : p'.time = p.time)
    (register' : q'.register = q.register) (same : ∀ n, S' n ↔ S n) (h : p'.Confirmed q' S') : p.Confirmed q S := by
  have response : ∀ g, p'.response g = p.response g := fun g => by
    unfold Part.response
    rw [register]
  have followed : ∀ old now, p'.Followed old now ↔ p.Followed old now := fun old now => by
    rw [Part.Followed, Part.Followed, time, register]
  simpa only [Part.Confirmed, register, register', response, followed, same] using h

section
variable {seg : Option Nat} {c : PressureSettings} {st : PressureState} {k : Candidate}

/-- The part as the point has entered its candidate's band. -/
def enteredBand (p : Part) (id : Nat) (pt : Point) (st st' : PressureState) : Part :=
  enterBand id pt st.band st' .rideThrough p

theorem enteredBand_frame (p : Part) (id : Nat) (pt : Point) (st st' : PressureState) : ∃ link panel,
    enteredBand p id pt st st' = { p with link := link, points := p.points.set id pt, panel := panel } := ⟨_, _, rfl⟩

variable (hpt : p.points.get? id = some pt) (body : pt.body = .pressure seg c st) (cand : st.candidate = some k)
include hpt body cand

theorem rideThrough_early (early : p.time < k.expiry) : rideThroughEnds id p = p := by
  simp only [rideThroughEnds, hpt, body, cand]
  exact if_neg (Nat.not_le.mpr early)

/-- An expiry whose moment has come: what it hands on. -/
theorem rideThrough_due (due : k.expiry ≤ p.time) :
    let st' : PressureState := { st with
      candidate := none, band := k.band, lowSeen := st.lowSeen || decide (k.band = .lowTrip) }
    let pt' : Point := { pt with body := .pressure seg c st' }
    rideThroughEnds id p = confirmed ((pt.beginsFor pt').map fun n => (id, n)).toList
      (handedOn seg.toList (if st.band = k.band then [] else [id]) (enteredBand p id pt' st st')) := by
  intro st' pt'
  have after : pt'.body = .pressure seg c st' := rfl
  simp only [rideThroughEnds, hpt, body, cand]
  rw [if_pos due, handOn_eq, note_confirming, note_entered, List.nil_append, List.nil_append, beginsFor_pressure body after]
  rfl

end

end

end Sys2Proof.Proofs
end


section
/-!
Ride-through expiries and DATA replies: O33.
-/

namespace Sys2Proof.Proofs

open Sys2Proof Sys2Proof.Machine

section
variable {p q r : Part} {id n : Nat} {pt : Point} {seg : Option Nat} {c : PressureSettings} {st : PressureState}
  {k : Candidate}

/-- What confirmations and the arbiter leave: every record but those of the link, the incidents, the crews and the
lamps. -/
theorem confirmed_frame (cs : List (Nat × Nat)) (r : Part) : let q := dispatchDecide (confirmed cs r)
    q.clock = r.clock ∧ q.points = r.points ∧ q.segments = r.segments ∧ q.feeds = r.feeds ∧ q.valves = r.valves ∧
    q.lines = r.lines ∧ q.outstations = r.outstations ∧ q.plans = r.plans ∧ q.districts = r.districts ∧
    q.outages = r.outages ∧ q.trace = r.trace := by
  have keeps : ∀ {α : Type} (get : Part → α), (∀ n point p, get (pressureConfirm n point p) = get p) →
      (∀ p, get (dispatchDecide p) = get p) → get (dispatchDecide (confirmed cs r)) = get r := fun get h h' =>
    (h' _).trans (confirmed_keeps get h cs r)
  exact ⟨keeps (·.clock) (by simp) (by simp), keeps (·.points) (by simp) (by simp), keeps (·.segments) (by simp) (by simp),
    keeps (·.feeds) (by simp) (by simp), keeps (·.valves) (by simp) (by simp), keeps (·.lines) (by simp) (by simp),
    keeps (·.outstations) (by simp) (by simp), keeps (·.plans) (by simp) (by simp),
    keeps (·.districts) (by simp) (by simp), keeps (·.outages) (by simp) (by simp), keeps (·.trace) (by simp) (by simp)⟩

/-- An expiry that has come, part by part (R55, R56, R61, R62, R137). -/
theorem rideThrough_spec (hpt : p.points.get? id = some pt) (body : pt.body = .pressure seg c st)
    (cand : st.candidate = some k) (due : k.expiry ≤ p.time) :
    let st' := { st with candidate := none, band := k.band, lowSeen := st.lowSeen || decide (k.band = .lowTrip) }
    let points := p.points.set id { pt with body := .pressure seg c st' }
    let q := dispatchDecide (rideThroughEnds id p)
    q.points = points ∧ q.clock = p.clock ∧
      q.valves = p.valves ∧ q.lines = p.lines ∧ q.outstations = p.outstations ∧ q.plans = p.plans ∧
      q.districts = p.districts ∧ q.outages = p.outages ∧
      (∀ n x, p.segments.get? n = some x → ∃ b, (seg = some n → b = derivePressure points n) ∧
        (seg ≠ some n → b = x.pressure) ∧ q.segments.get? n = some { x with
          pressure := b, changed := x.changed || decide (b ≠ x.pressure) }) ∧
      (p.feeds.wf 64 = true → (∀ f fd, p.feeds.get? f = some fd → fd.live = deriveLive p.points fd) →
        ∀ f fd, p.feeds.get? f = some fd → q.feeds.get? f = some { fd with live := deriveLive points fd }) ∧
      let begins := pt.beginsFor { pt with body := .pressure seg c st' }
      (p.register.incidents.wf 128 = true → p.Confirmed q fun n => begins = some n) ∧
      ∃ r : Part, r.register = p.register ∧ q = dispatchDecide (match begins with
        | none => r
        | some n => pressureConfirm n id r) := by
  intro st' points q
  have q_eq : q = _ := congrArg dispatchDecide (rideThrough_due hpt body cand due)
  obtain ⟨link, panel, entered⟩ := enteredBand_frame p id { pt with body := .pressure seg c st' } st st'
  generalize enteredBand p id { pt with body := .pressure seg c st' } st st' = e at entered q_eq
  obtain ⟨link', segments, feeds, pending, handed⟩ := handedOn_frame seg.toList (if st.band = k.band then [] else [id]) e
  have segs := handedOn_segments seg.toList (if st.band = k.band then [] else [id]) e
  have fds : e.feeds.wf 64 = true → _ := fun w f fd => handedOn_feeds (n := f) (fd := fd) seg.toList
    (if st.band = k.band then [] else [id]) w
  have e_points : e.points = points := by rw [entered]
  have e_segments : e.segments = p.segments := by rw [entered]
  have e_feeds : e.feeds = p.feeds := by rw [entered]
  generalize handedOn seg.toList (if st.band = k.band then [] else [id]) e = h at handed segs fds q_eq
  rw [entered] at handed
  obtain ⟨clock, pts, sgs, fd_, valves, lines, outstations, plans, districts, outages, -⟩ := confirmed_frame
    ((pt.beginsFor { pt with body := .pressure seg c st' }).map fun n => (id, n)).toList h
  rw [← q_eq] at clock pts sgs fd_ valves lines outstations plans districts outages
  have register : h.register = p.register := by rw [handed]
  refine ⟨by rw [pts, handed], by rw [clock, handed], by rw [valves, handed], by rw [lines, handed],
    by rw [outstations, handed], by rw [plans, handed], by rw [districts, handed], by rw [outages, handed],
    fun n x hx => ?_, fun w all f fd hf => ?_, fun w => ?_, h, register, ?_⟩
  · have found := segs n
    rw [e_segments, hx, Option.map_some, e_points] at found
    rw [sgs]
    by_cases mem : seg = some n
    · rw [if_pos (by simp [mem])] at found
      exact ⟨_, fun _ => rfl, fun other => absurd mem other, found⟩
    · rw [if_neg (by simpa using mem)] at found
      exact ⟨_, fun same => absurd same mem, fun _ => rfl, by simpa using found⟩
  · rw [fd_]
    rw [e_feeds, e_points] at fds
    refine (fds w f fd hf (fun j outlet out => ?_) fun none_ => ?_).1
    · rw [all f fd hf]
      refine (deriveLive_congr fun j' outlet' => ?_).symm
      cases outlet.symm.trans outlet'
      rw [get?_set]
      by_cases here : j = id
      · subst here
        have band : st.band = k.band := by
          by_contra other
          exact out (by rw [if_neg other]; exact List.mem_singleton_self _)
        rw [if_pos rfl, hpt]
        simp only [Option.bind_some, Point.band?, body, st', band]
      · rw [if_neg here]
    · rw [all f fd hf]
      exact (deriveLive_congr fun j outlet => absurd outlet (by simp [none_])).symm
  · have spec := confirmed_spec (cs := ((pt.beginsFor { pt with body := .pressure seg c st' }).map fun n => (id, n)).toList)
      (p := h) (by rw [register]; exact w)
    refine confirmed_congr register (by rw [Part.time, handed]; rfl) ?_ (fun n => ?_) spec
    · rw [q_eq, Laws.f_dispatchDecide_register]
    · cases pt.beginsFor { pt with body := .pressure seg c st' } with
      | none => simp
      | some m => simp [eq_comm]
  · rw [q_eq]
    cases pt.beginsFor { pt with body := .pressure seg c st' } <;> rfl

/-- A point that names no segment and is no feed's outlet hands nothing on. -/
theorem rideThrough_alone (hpt : p.points.get? id = some pt) (body : pt.body = .pressure seg c st)
    (cand : st.candidate = some k) (due : k.expiry ≤ p.time) (none_ : seg = none)
    (free : ∀ f fd, p.feeds.get? f = some fd → fd.outlet ≠ some id) (w : p.feeds.wf 64 = true) :
    let st' := { st with candidate := none, band := k.band, lowSeen := st.lowSeen || decide (k.band = .lowTrip) }
    rideThroughEnds id p = refreshLamps (place (.pointBand id st.band k.band (st.filtered.getD 0) st.falling .rideThrough)
      { p with points := p.points.set id { pt with body := .pressure seg c st' } }) := by
  intro st'
  have begins : pt.beginsFor { pt with body := .pressure seg c st' } = none := by
    rw [beginsFor_pressure (after := { pt with body := .pressure seg c st' }) body rfl, none_, ite_self]
  have still : ∀ e : Part, e.feeds = p.feeds → handedOn seg.toList (if st.band = k.band then [] else [id]) e = e := fun e same => by
    have first : pressured seg.toList e = e := by rw [none_]; rfl
    have nobody : e.feedsOn (if st.band = k.band then [] else [id]) = [] := by
      refine List.eq_nil_iff_forall_not_mem.mpr fun f mem => ?_
      obtain ⟨fd, o, hf, outlet, listed⟩ := (mem_feedsOn (by rw [same]; exact w)).mp mem
      rw [same] at hf
      split at listed
      · cases listed
      · exact free f fd hf (outlet.trans (congrArg some (List.mem_singleton.mp listed)))
    rw [handedOn, first, nobody]
    rfl
  have eq := rideThrough_due hpt body cand due
  dsimp only at eq
  rw [eq, begins, still (enteredBand p id { pt with body := .pressure seg c st' } st st') rfl]
  rfl

end

/-- What a DATA reply leaves of points, segments and feeds, from what has been delivered. -/
theorem delivered_reads {os : Nat} {data : ReplyData} {p q r : Part} (delivered : Delivered os data p r)
    (points : q.points = r.points) (segments : q.segments = r.segments) (feeds : q.feeds = r.feeds) (clock : q.clock = r.clock)
    (pending : r.trace.pendingCause.isSome = true → q.trace.pendingCause.isSome = true) :
    q.clock = p.clock ∧
    (∀ id pt, p.points.get? id = some pt →
      q.points.get? id = some (if pt.outstation = os then pt.sampled data p.time else pt)) ∧
    (∀ n x, p.segments.get? n = some x → ∃ b,
      ((∃ id pt c st, p.points.get? id = some pt ∧ pt.outstation = os ∧ pt.body = .pressure (some n) c st) →
        b = derivePressure q.points n) ∧
      ((¬ ∃ id pt c st, p.points.get? id = some pt ∧ pt.outstation = os ∧ pt.body = .pressure (some n) c st) →
        b = x.pressure) ∧
      q.segments.get? n = some { x with pressure := b, changed := x.changed || decide (b ≠ x.pressure) }) ∧
    ((∀ f fd, p.feeds.get? f = some fd → fd.live = deriveLive p.points fd) → ∀ f fd, p.feeds.get? f = some fd →
      q.feeds.get? f = some { fd with live := deriveLive q.points fd } ∧
      (deriveLive q.points fd ≠ fd.live → q.trace.pendingCause.isSome = true)) := by
  rw [points, segments, feeds]
  refine ⟨clock.trans delivered.clock, fun id pt hpt => by rw [delivered.points, hpt]; rfl, delivered.segments,
    fun all f fd hf => ?_⟩
  obtain ⟨found, raises⟩ := delivered.feeds all f fd hf
  exact ⟨found, fun changes => pending (raises changes)⟩

theorem position_of_byte (b : Byte) (x : Valve) :
    (reportedValve (slotStatus b) x).position = (match b.getLsbD 0, b.getLsbD 1 with
      | true, false => .opened
      | false, true => .closed
      | false, false => .moving
      | true, true => .unknown) ∧
    (reportedValve (slotStatus b) x).lastEnd = (match b.getLsbD 0, b.getLsbD 1 with
      | true, false => .opened
      | false, true => .closed
      | _, _ => x.lastEnd) := by
  simp only [reportedValve, SlotStatus.position, slotStatus]
  cases b.getLsbD 0 <;> cases b.getLsbD 1 <;> exact ⟨rfl, rfl⟩

/-- Settles O33: an expiry, the pressure states, a DATA reply from a STATION and from an ACTUATOR, and a confirmation. -/
theorem rideThroughExpiryEntersTheBand : Obligations.RideThroughExpiryEntersTheBand := by
  refine ⟨⟨fun id pt seg c st k s hpt body cand => ?_, fun points segment w => derivePressure_spec w segment,
    fun os o d p w ho => ?_⟩, fun n point id i p h raised only w => confirmation_cases w h raised only point,
    fun n point p w none_ => ?_⟩
  · have run : exec (.rideThroughExpiry id) s = .next (s.withPart (dispatchDecide (rideThroughEnds id s.part))) := rfl
    intro p st' points
    refine ⟨fun early => by rw [run, rideThrough_early hpt body cand early], fun due => ⟨⟨_, run, ?_⟩, fun none_ free w => ?_⟩⟩
    · exact rideThrough_spec hpt body cand due
    · rw [run, rideThrough_alone hpt body cand due none_ free w]
  · intro q
    have tables := w
    obtain ⟨-, pts, -, valves, -, -, -, -, incidents, -⟩ := tables
    cases d with
    | station counts word =>
      obtain ⟨r, eq, delivered⟩ := stationReply_eq w os counts word
      obtain ⟨clock, points, segments, feeds, vs, -, -, plans, -, -, trace⟩ :=
        confirmed_frame (begunBy (.station counts word) p (p.pointsOf os)) r
      rw [← eq] at clock points segments feeds vs plans trace
      obtain ⟨clock', points', segments', feeds'⟩ := delivered_reads delivered points segments feeds clock
        fun h => by rw [trace]; exact h
      refine ⟨clock', points', segments', feeds', fun cs w' same => ?_, fun _ _ same => absurd same (by simp),
        fun _ _ _ _ _ same => absurd same (by simp)⟩
      cases same
      refine ⟨vs.trans delivered.valves, plans.trans delivered.plans, ?_⟩
      rw [← begunBy_eq pts]
      have spec := confirmed_spec (cs := begunBy (.station counts word) p (p.pointsOf os)) (p := r)
        (by rw [delivered.register]; exact incidents)
      refine ⟨confirmed_congr delivered.register (by rw [Part.time, delivered.clock, ← Part.time]) ?_ (fun n => Iff.rfl) spec,
        r, delivered.register, eq⟩
      simp only [q, eq, Laws.f_dispatchDecide_register]
    | actuator slots word =>
      obtain ⟨⟨r, delivered, points, segments, feeds, clock, pending⟩, changeSet, plans, reports⟩ :=
        actuator_spec w (rfl : q = _)
      obtain ⟨clock', points', segments', feeds'⟩ := delivered_reads delivered points segments feeds clock pending
      refine ⟨clock', points', segments', feeds', fun _ _ same => absurd same (by simp), fun slots' w' same => ?_,
        fun slots' w' v valve b same hv actuated here got only => ?_⟩
      · cases same
        exact ⟨changeSet, plans⟩
      · cases same
        obtain ⟨x, x', hx, hx', position, lastEnd, raises⟩ := reports (v, slotStatus b)
          (mem_slotReports.mpr ⟨valve.slot, got, valveOn_alone valves hv actuated here only⟩)
        cases hv.symm.trans hx
        obtain ⟨position', lastEnd'⟩ := position_of_byte b valve
        exact ⟨x', hx', position.trans position', lastEnd.trans lastEnd', raises⟩
  · exact (pressureConfirm_cases w n point).elim (fun h => h.1) fun ⟨id, i, hi, raised, _⟩ => absurd raised (none_ id i hi)

end Sys2Proof.Proofs
end

section
/-!
Calls: the incident that a call joins or opens, its slot and its reply (R126–R131, R136–R138).
-/

namespace Sys2Proof.Proofs

open Sys2Proof Sys2Proof.Machine

section
variable {p q r : Part} {id : Nat} {i now : Incident} {c : TakenCall} {slot : Option Nat}

/-! ## The body of a CALL (R126) -/

theorem optAt_segmentBytes (segment : Option Nat) (spare : Byte × Byte) (a b : Byte) (rest : List Byte)
    (range : ∀ x, segment = some x → x < 512) :
    let body := [a, b] ++ segmentBytes segment spare ++ rest
    optAt (u8 body 2) (u16 body 3) = segment ∧ u8 body 2 ≤ 1 ∧ ¬(u8 body 2 = 1 ∧ 511 < u16 body 3) := by
  cases segment with
  | none => exact ⟨rfl, Nat.zero_le _, fun h => absurd (show 0 = 1 from h.1) (by decide)⟩
  | some x =>
    have fits := range x rfl
    have value : u16 ([a, b] ++ segmentBytes (some x) spare ++ rest) 3 = x := by
      simp only [segmentBytes, u16, u8, be16, List.cons_append, List.nil_append, List.getD_cons_succ,
        List.getD_cons_zero, toNat_byte]
      omega
    refine ⟨?_, Nat.le_refl 1, fun h => absurd h.2 (by omega)⟩
    rw [value]
    rfl

/-- What CALL's body says, whatever its segment bytes are. -/
structure CallBody (b : List Byte) (kind grade district reference : Nat) (segment : Option Nat) : Prop where
  length : b.length = 10
  kind : u8 b 0 = kind
  grade : u8 b 1 = grade
  segment : optAt (u8 b 2) (u16 b 3) = segment
  presence : u8 b 2 ≤ 1
  range : ¬(u8 b 2 = 1 ∧ 511 < u16 b 3)
  district : u8 b 5 = district
  reference : u32 b 6 = reference

theorem callBody {kind grade district reference : Nat} {segment : Option Nat} (spare : Byte × Byte) (k : kind ≤ 2)
    (g : grade ≤ 2) (d : district < 32) (r : reference < 4294967296) (range : ∀ x, segment = some x → x < 512) :
    CallBody ([byte kind, byte grade] ++ segmentBytes segment spare ++ byte district :: be32 reference) kind grade
      district reference segment := by
  obtain ⟨seg, presence, range⟩ := optAt_segmentBytes segment spare (byte kind) (byte grade)
    (byte district :: be32 reference) range
  refine ⟨?_, u8_of_byte (by omega), u8_of_byte (by omega), seg, presence, range, ?_, ?_⟩
  · cases segment <;> rfl
  · cases segment <;> exact u8_of_byte (n := district) (by omega)
  · cases segment <;>
      (simp only [segmentBytes, u32, u16, u8, be32, be16, List.cons_append, List.nil_append, List.getD_cons_succ,
        List.getD_cons_zero, toNat_byte]
       omega)

/-- CALL with every operand in its range, of a known district and segment (R126). -/
theorem callRule_act {b : List Byte} {kind grade district reference : Nat} {segment : Option Nat}
    (says_ : CallBody b kind grade district reference segment) (k : kind ≤ 2) (g : grade ≤ 2) (d : district < 32)
    (known : p.districts.has district = true)
    (defined : ∀ x, segment = some x → p.segments.has x = true ∧ p.districtOf x = district) :
    (∀ x, kind = 2 → segment = some x → callRule.act b p = takeNoGas x p) ∧
    (kind < 2 → callRule.act b p = takeCall
      { kind := if kind = 0 then .smell else .damage
        grade := if kind = 0 then gradeOf grade else .a
        segment := segment, district := district, reference := reference } p) := by
  have has : segment.any (fun s => !p.segments.has s) = false := by
    cases segment with
    | none => rfl
    | some x => simp [(defined x rfl).1]
  have home : segment.any (fun s => p.districtOf s != district) = false := by
    cases segment with
    | none => rfl
    | some x => simp [(defined x rfl).2]
  have inRange : ¬((decide (2 < kind) || decide (2 < grade) || decide (1 < u8 b 2) ||
      (decide (u8 b 2 = 1) && decide (511 < u16 b 3)) || decide (31 < district)) = true) := by
    have presence := says_.presence
    have range := says_.range
    simp only [Bool.or_eq_true, Bool.and_eq_true, decide_eq_true_eq]
    omega
  constructor
  · rintro x rfl rfl
    simp only [callRule, says_.kind, says_.grade, says_.segment, says_.district, says_.reference]
    rw [if_neg inRange, known, has, home, if_neg (by decide), if_neg (by decide)]
    rfl
  · intro lt
    simp only [callRule, says_.kind, says_.grade, says_.segment, says_.district, says_.reference]
    rw [if_neg inRange, known, has, home, if_neg (by decide), if_neg (by decide), if_neg (by omega)]

/-! ## The incident and the slot of a call (R128, R130) -/

theorem candidateFor_eq (p : Part) (c : TakenCall) : p.candidateFor c = (p.register.incidents.idsWhere fun _ i =>
    decide (i.state ≠ .closed ∧ i.segment = c.segment ∧ (c.segment = none → i.district = c.district))).head? := by
  have test : (fun (_ : Nat) (i : Incident) => i.state != .closed && decide (i.segment = c.segment) &&
      (c.segment.isSome || decide (i.district = c.district))) = fun _ i =>
      decide (i.state ≠ .closed ∧ i.segment = c.segment ∧ (c.segment = none → i.district = c.district)) := by
    funext _ i
    rw [Bool.eq_iff_iff]
    cases c.segment <;> simp [and_assoc]
  rw [Part.candidateFor, test]

theorem takeCall_merge (candidate : p.candidateFor c = some id) (h : p.register.incidents.get? id = some i) :
    takeCall c p = mergeCall id i c p := by
  simp [takeCall, candidate, Part.incident?, h]

theorem takeCall_open (candidate : p.candidateFor c = none) (entry : p.entryToOpen = some id) :
    takeCall c p = openIncident id c p := by
  simp [takeCall, candidate, entry]

theorem takeCall_full (candidate : p.candidateFor c = none) (entry : p.entryToOpen = none) :
    takeCall c p = refuse .full p := by
  simp [takeCall, candidate, entry]

theorem entryToOpen_free (free : p.register.incidents.firstFree 128 = some id) : p.entryToOpen = some id := by
  simp [Part.entryToOpen, free]

/-- The CLOSED incidents with their state times. -/
def closedTimes (p : Part) : List (Nat × Nat) := p.register.incidents.entries.filterMap fun e =>
  if e.2.state = .closed then some (e.1, e.2.stateTime) else none

theorem entryToOpen_of_full (full : p.register.incidents.firstFree 128 = none) :
    p.entryToOpen = (pickBy (fun r e => decide (r < e)) (closedTimes p)).map (·.1) := by
  simp [Part.entryToOpen, full, closedTimes]

theorem mem_closedTimes (w : p.register.incidents.wf 128 = true) {e : Nat × Nat} : e ∈ closedTimes p ↔
    ∃ i, p.register.incidents.get? e.1 = some i ∧ i.state = .closed ∧ i.stateTime = e.2 := by
  simp only [closedTimes, List.mem_filterMap]
  constructor
  · rintro ⟨a, ha, found⟩
    split at found
    next closed =>
      cases found
      exact ⟨a.2, get?_of_mem w ha, closed, rfl⟩
    next => cases found
  · rintro ⟨i, hi, closed, time⟩
    exact ⟨(e.1, i), Laws.mem_of_get? _ _ _ hi, by simp [closed, time]⟩

theorem closedTimes_rise (w : p.register.incidents.wf 128 = true) : (closedTimes p).Pairwise fun a b => a.1 < b.1 := by
  refine List.pairwise_filterMap.mpr ((entries_rise w).imp fun {a b} lt x hx y hy => ?_)
  split at hx <;> split at hy <;> simp_all
  subst hx hy
  exact lt

/-- With no entry FREE, an opening takes the CLOSED incident of earliest state time and then lowest id (R129). -/
theorem entryToOpen_earliest (w : p.register.incidents.wf 128 = true)
    (full : p.register.incidents.firstFree 128 = none) {old : Incident} (h : p.register.incidents.get? id = some old)
    (closed : old.state = .closed)
    (first : ∀ k j, p.register.incidents.get? k = some j → j.state = .closed →
      old.stateTime < j.stateTime ∨ (old.stateTime = j.stateTime ∧ id ≤ k)) : p.entryToOpen = some id := by
  have listed : (id, old.stateTime) ∈ closedTimes p := (mem_closedTimes w).mpr ⟨old, h, closed, rfl⟩
  rw [entryToOpen_of_full full]
  cases picked : pickBy (fun r e => decide (r < e)) (closedTimes p) with
  | none => simp [pickBy_eq_none picked] at listed
  | some r =>
    have earliest := pickBy_earliest (closedTimes_rise w) picked (id, old.stateTime) listed
    obtain ⟨j, hj, shut, time⟩ := (mem_closedTimes w).mp (Laws.pickBy_mem _ _ _ picked)
    have := first r.1 j hj shut
    simp only [Option.map_some, Option.some.injEq]
    omega

theorem entryToOpen_none (w : p.register.incidents.wf 128 = true) (full : p.register.incidents.firstFree 128 = none)
    (open_ : ∀ k j, p.register.incidents.get? k = some j → j.state ≠ .closed) : p.entryToOpen = none := by
  rw [entryToOpen_of_full full]
  cases picked : pickBy (fun r e => decide (r < e)) (closedTimes p) with
  | none => rfl
  | some r =>
    obtain ⟨j, hj, shut, _⟩ := (mem_closedTimes w).mp (Laws.pickBy_mem _ _ _ picked)
    exact absurd shut (open_ r.1 j hj)

/-- A call that takes its slot writes the calls, and nothing else. -/
theorem fillSlot_eq (slot : Option Nat) (id : Nat) (c : TakenCall) (p : Part) : ∃ calls, fillSlot slot id c p =
    { p with register := { p.register with calls := calls } } ∧ ∀ n, slot = some n →
      calls.get? n = some ⟨id, c.kind, c.grade, c.segment, c.district, c.reference, p.time⟩ := by
  cases slot with
  | none => exact ⟨p.register.calls, rfl, fun n h => absurd h (by simp)⟩
  | some n =>
    refine ⟨_, rfl, fun n' h => ?_⟩
    cases h
    exact Laws.get?_set_same _ _ _

theorem callReply_of_get? (h : q.register.incidents.get? id = some now) (outcome : Nat) (slot : Option Nat) :
    callReply outcome id slot q = ⟨if slot.isSome then .ok else .okUnlisted,
      [byte outcome, byte id] ++ opt8 slot ++ [byte now.grade.code], q⟩ := by
  simp [callReply, Part.incident?, h]

/-! ## What a call leaves (R128–R130) -/

/-- A call has been taken: its incident and its slot as they are afterwards, and what else stays. -/
structure TakenFor (c : TakenCall) (p q : Part) (id : Nat) (slot : Option Nat) (now : Incident) : Prop where
  incident : q.register.incidents.get? id = some now
  slot : ∀ n, slot = some n → q.register.calls.get? n =
    some ⟨id, c.kind, c.grade, c.segment, c.district, c.reference, p.time⟩
  clock : q.clock = p.clock
  points : q.points = p.points
  segments : q.segments = p.segments
  valves : q.valves = p.valves
  plans : q.plans = p.plans
  outages : q.outages = p.outages

/-- The part with a call in its slot and its incident written. -/
def listed (slot : Option Nat) (id : Nat) (i : Incident) (c : TakenCall) (p : Part) : Part :=
  putIncident id i (fillSlot slot id c p)

theorem listed_rewritten (slot : Option Nat) (id : Nat) (i : Incident) (c : TakenCall) (p : Part) :
    Rewritten (fillSlot slot id c p) (listed slot id i c p) id i := rewritten_putIncident _ _ _

/-- A call's incident, raised or not after the call is listed, and then the arbiter. -/
theorem takenFor_of_rewritten (slot : Option Nat) (written : Rewritten (fillSlot slot id c p) r id now)
    (points : r.points = p.points) (segments : r.segments = p.segments) (valves : r.valves = p.valves)
    (plans : r.plans = p.plans) (outages : r.outages = p.outages) :
    TakenFor c p (dispatchDecide r) id slot now := by
  obtain ⟨calls, filled, slots⟩ := fillSlot_eq slot id c p
  have kept : r.register.calls = calls := by rw [written.register, filled]
  refine ⟨?_, ?_, ?_, ?_, ?_, ?_, ?_, ?_⟩
  · rw [Laws.f_dispatchDecide_register]; exact written.this
  · rw [Laws.f_dispatchDecide_register, kept]; exact slots
  · rw [Laws.f_dispatchDecide_clock, written.clock, filled]
  · rw [Laws.f_dispatchDecide_points, points]
  · rw [Laws.f_dispatchDecide_segments, segments]
  · rw [Laws.f_dispatchDecide_valves, valves]
  · rw [Laws.f_dispatchDecide_plans, plans]
  · rw [Laws.f_dispatchDecide_outages, outages]

/-- An incident with one more call, before any rise of its grade (R128, R130). -/
def mergedIncident (i : Incident) (c : TakenCall) (slot : Option Nat) : Incident :=
  { i.withSlot slot with total := bump i.total, kind := if c.kind = .damage then .damage else i.kind }

theorem withSlot_eq (i : Incident) (slot : Option Nat) : i.withSlot slot =
    { i with calls := (i.withSlot slot).calls, unlisted := (i.withSlot slot).unlisted } := by
  cases slot <;> rfl

/-- A call that merges into an incident (R128, R136, R140). -/
theorem mergeCall_spec (_ : p.register.incidents.get? id = some i) (c : TakenCall) :
    let slot := p.slotFor i.calls.length
    ∃ now q, mergeCall id i c p = ⟨if slot.isSome then .ok else .okUnlisted,
        [byte 1, byte id] ++ opt8 slot ++ [byte now.grade.code], q⟩ ∧
      TakenFor c p q id slot now ∧ q.districts = p.districts ∧ p.Followed i now ∧ now = { mergedIncident i c slot with
        grade := if c.grade.code < i.grade.code then c.grade else i.grade
        deadline := if c.grade.code < i.grade.code then min i.deadline (i.openedTime + p.response c.grade) else i.deadline
        level := now.level, nextEscalation := now.nextEscalation } := by
  intro slot
  have put := rewritten_place (.incidentMerged id c.kind c.grade c.reference slot (mergedIncident i c slot).kind
    (mergedIncident i c slot).total (mergedIncident i c slot).unlisted)
    (listed_rewritten slot id (mergedIncident i c slot) c p)
  obtain ⟨calls, filled, _⟩ := fillSlot_eq slot id c p
  have followed_iff (j : Incident) : (fillSlot slot id c p).Followed (mergedIncident i c slot) j → p.Followed i j := by
    intro f
    have f := followed_congr (p := p) (by rw [Part.time, filled]; rfl) (by rw [filled]) f
    rw [mergedIncident, withSlot_eq] at f
    exact f
  have merged : mergedIncident i c slot = { i with
      calls := (mergedIncident i c slot).calls, unlisted := (mergedIncident i c slot).unlisted
      total := (mergedIncident i c slot).total, kind := (mergedIncident i c slot).kind } := by
    rw [mergedIncident, withSlot_eq]
  generalize told_eq : place _ (listed slot id (mergedIncident i c slot) c p) = told at put
  have points : told.points = p.points := by subst told_eq; simp [listed, filled]
  have segments : told.segments = p.segments := by subst told_eq; simp [listed, filled]
  have valves : told.valves = p.valves := by subst told_eq; simp [listed, filled]
  have plans : told.plans = p.plans := by subst told_eq; simp [listed, filled]
  have outages : told.outages = p.outages := by subst told_eq; simp [listed, filled]
  have districts : told.districts = p.districts := by subst told_eq; simp [listed, filled]
  have run : mergeCall id i c p = callReply 1 id slot (dispatchDecide
      (if c.grade.moreUrgent i.grade then raiseGrade id c.grade .call none told else told)) := by
    rw [← told_eq]
    rfl
  by_cases urgent : c.grade.code < i.grade.code
  · obtain ⟨now, written, followed, eq⟩ := raiseGrade_spec put.this c.grade .call none
    have response : told.response c.grade = p.response c.grade := by
      rw [put.response, filled]
      cases c.grade <;> rfl
    have taken := takenFor_of_rewritten (c := c) slot (put.trans written) (by simp [points]) (by simp [segments])
      (by simp [valves]) (by simp [plans]) (by simp [outages])
    refine ⟨now, _, ?_, taken, by simp [districts], followed_iff now (put.followed followed), ?_⟩
    · rw [run, if_pos (show c.grade.moreUrgent i.grade = true from decide_eq_true urgent), callReply_of_get? taken.incident]
    · rw [eq, if_pos urgent, if_pos urgent, response, merged]
  · have taken := takenFor_of_rewritten (c := c) slot put points segments valves plans outages
    refine ⟨mergedIncident i c slot, _, ?_, taken, by simp [districts], ?_, ?_⟩
    · rw [run, if_neg (by simpa [Grade.moreUrgent] using urgent), callReply_of_get? taken.incident]
    · rw [merged]
      exact ⟨fun _ => ⟨rfl, rfl⟩, fun f => absurd f.1 (Nat.lt_irrefl _), fun f => absurd f.1 (Nat.lt_irrefl _)⟩
    · rw [if_neg urgent, if_neg urgent, merged]

/-! ## An opening (R129, R137, R138) -/

/-- A confirming point of a segment there is (R137). -/
theorem confirmingPoint_isSome (w : p.points.wf 256 = true) (x : Nat) : (∃ k, p.confirmingPoint x = some k) ↔
    ∃ k pt c st, p.points.get? k = some pt ∧ pt.body = .pressure (some x) c st ∧ st.confirming = true := by
  constructor
  · rintro ⟨k, hk⟩
    obtain ⟨⟨pt, hpt, test⟩, _⟩ := head?_idsWhere w hk
    refine ⟨k, pt, ?_⟩
    cases body : pt.body with
    | pressure seg c st =>
      simp only [body, Bool.and_eq_true, decide_eq_true_eq] at test
      obtain ⟨rfl, confirming⟩ := test
      exact ⟨c, st, hpt, rfl, confirming⟩
    | discrete d => simp [body] at test
  · rintro ⟨k, pt, c, st, hpt, body, confirming⟩
    have listed := (mem_idsWhere (f := fun _ (pt : Point) => match pt.body with
      | .pressure seg _ st => decide (seg = some x) && st.confirming
      | .discrete _ => false) w).mpr ⟨pt, hpt, by simp [body, confirming]⟩
    obtain ⟨k', _, first⟩ := List.exists_cons_of_ne_nil (List.ne_nil_of_mem listed)
    exact ⟨k', congrArg List.head? first⟩

theorem confirmAtOpening_of_none (h : p.register.incidents.get? id = some i)
    (none_ : i.segment.bind p.confirmingPoint = none ∨ i.confirmable = false) : confirmAtOpening id p = p := by
  simp only [confirmAtOpening, Part.incident?, h]
  split
  next pt found => rw [if_neg (by simp [none_.resolve_left (by simp [found])])]
  next => rfl

theorem confirmAtOpening_of_some (h : p.register.incidents.get? id = some i) {pt : Nat}
    (found : i.segment.bind p.confirmingPoint = some pt) (able : i.confirmable = true) :
    confirmAtOpening id p = raiseGrade id .a .pressure (some pt) p := by
  simp [confirmAtOpening, Part.incident?, h, found, able]

/-- Pressure confirms an incident that is opened now: a LEAK with a segment of a confirming point, and not of grade A
yet (R129, R137). -/
def confirmedNow (c : TakenCall) (p : Part) : Prop := c.kind = .smell ∧ c.grade ≠ .a ∧ ∃ x k pt s st, c.segment = some x ∧
  p.points.get? k = some pt ∧ pt.body = .pressure (some x) s st ∧ st.falling = true ∧ (st.band = .low ∨ st.band = .lowTrip)

theorem confirmedNow_iff (w : p.points.wf 256 = true) (same : q.points = p.points) (seg : i.segment = c.segment)
    (grade : i.grade = c.grade) (kind : i.kind = c.kind.incidentKind) (state : i.state = .opened) :
    confirmedNow c p ↔ (∃ k, i.segment.bind q.confirmingPoint = some k) ∧ i.confirmable = true := by
  have able : i.confirmable = true ↔ c.kind = .smell ∧ c.grade ≠ .a := by
    rw [Incident.confirmable, kind, state, grade]
    cases c.kind <;> simp [CallKind.incidentKind]
  rw [able, seg, confirmedNow]
  cases c.segment with
  | none => simp
  | some x =>
    have point := confirmingPoint_isSome (p := q) (same ▸ w) x
    simp only [Option.bind_some]
    rw [point, same]
    constructor
    · rintro ⟨smell, below, x', k, pt, s, st, hx, hpt, body, falling, low⟩
      cases hx
      exact ⟨⟨k, pt, s, st, hpt, body, by rw [← confirming_eq, falling, decide_eq_true low]; rfl⟩, smell, below⟩
    · rintro ⟨⟨k, pt, s, st, hpt, body, confirming⟩, smell, below⟩
      rw [← confirming_eq, Bool.and_eq_true, decide_eq_true_eq] at confirming
      exact ⟨smell, below, x, k, pt, s, st, rfl, hpt, body, confirming.1, confirming.2⟩

/-- An opened incident keeps no earlier deadline, unless pressure confirms it (R136–R138). -/
theorem confirmAtOpening_spec (h : q.register.incidents.get? id = some i) (state : i.state = .opened)
    (level : i.level = 0) (next : i.nextEscalation = some i.deadline) (opened : i.openedTime = q.time) :
    ∃ now, Rewritten q (confirmAtOpening id q) id now ∧
      now = { i with grade := now.grade, deadline := now.deadline, level := now.level
                     nextEscalation := now.nextEscalation } ∧
      (0 < q.response .a → let sure := (∃ k, i.segment.bind q.confirmingPoint = some k) ∧
          i.confirmable = true
        now.level = 0 ∧ now.nextEscalation = some now.deadline ∧ (¬sure → now.grade = i.grade ∧ now.deadline = i.deadline) ∧
        (sure → now.grade = .a ∧ now.deadline = min i.deadline (q.time + q.response .a))) := by
  by_cases sure : (∃ k, i.segment.bind q.confirmingPoint = some k) ∧ i.confirmable = true
  · obtain ⟨⟨pt, found⟩, able⟩ := sure
    obtain ⟨now, written, ⟨stays, follows, _⟩, eq⟩ := raiseGrade_spec h .a .pressure (some pt)
    rw [confirmAtOpening_of_some h found able]
    have grade : now.grade = .a := by rw [eq]
    have deadline : now.deadline = min i.deadline (q.time + q.response .a) := by rw [eq, opened]
    refine ⟨now, written, ?_, fun some_ => ⟨?_, ?_, fun no => absurd ⟨⟨pt, found⟩, able⟩ no, fun _ => ⟨grade, deadline⟩⟩⟩
    · rw [eq]
    · by_cases f : now.deadline < i.deadline ∧ i.level = 0 ∧ (i.state = .opened ∨ i.state = .assigned)
      · exact (follows f (by omega)).1
      · exact (stays f).1.trans level
    · by_cases f : now.deadline < i.deadline ∧ i.level = 0 ∧ (i.state = .opened ∨ i.state = .assigned)
      · exact (follows f (by omega)).2
      · have same : now.deadline = i.deadline := by
          have : ¬now.deadline < i.deadline := fun sooner => f ⟨sooner, level, .inl state⟩
          omega
        rw [(stays f).2, next, same]
  · have stays : confirmAtOpening id q = q := confirmAtOpening_of_none h <| by
      cases found : i.segment.bind q.confirmingPoint with
      | none => exact .inl rfl
      | some k => exact .inr (Bool.eq_false_iff.mpr fun able => sure ⟨⟨k, found⟩, able⟩)
    rw [stays]
    exact ⟨i, rewritten_refl h, rfl, fun _ => ⟨level, next, fun _ => ⟨rfl, rfl⟩, fun yes => absurd yes sure⟩⟩

theorem confirmAtOpening_keeps {γ : Type} (get : Part → γ)
    (keeps : ∀ g cause point p, get (raiseGrade id g cause point p) = get p) (p : Part) :
    get (confirmAtOpening id p) = get p := by
  simp only [confirmAtOpening]
  split
  · rfl
  · split
    · split
      · exact keeps _ _ _ _
      · rfl
    · rfl

/-- A call that opens an incident (R129, R130, R136–R138). -/
theorem openIncident_spec (id : Nat) (c : TakenCall) (p : Part) :
    let slot := p.register.calls.firstFree 256
    ∃ now q, openIncident id c p = ⟨if slot.isSome then .ok else .okUnlisted,
        [byte 0, byte id] ++ opt8 slot ++ [byte now.grade.code], q⟩ ∧
      TakenFor c p q id slot now ∧
      q.districts = p.districts.modify c.district (fun d => { d with openIncidents := d.openIncidents + 1 }) ∧
      now = { (openedIncident c p).withSlot slot with
        grade := now.grade, deadline := now.deadline, level := now.level, nextEscalation := now.nextEscalation } ∧
      (p.points.wf 256 = true → 0 < p.response .a →
        now.level = 0 ∧ now.nextEscalation = some now.deadline ∧
        (¬confirmedNow c p → now.grade = c.grade ∧ now.deadline = p.time + p.response c.grade) ∧
        (confirmedNow c p → now.grade = .a ∧
          now.deadline = min (p.time + p.response c.grade) (p.time + p.response .a))) := by
  intro slot
  obtain ⟨calls, filled, slots⟩ := fillSlot_eq slot id c p
  have opened : (openedIncident c p).withSlot slot = { openedIncident c p with
      calls := ((openedIncident c p).withSlot slot).calls
      unlisted := ((openedIncident c p).withSlot slot).unlisted } := withSlot_eq _ _
  generalize start : (openedIncident c p).withSlot slot = i at opened
  have written : Rewritten (fillSlot slot id c p) ((listed slot id i c p).onDistrict c.district fun d =>
      { d with openIncidents := d.openIncidents + 1 }) id i := (listed_rewritten slot id i c p).of_eq rfl rfl
  have put := rewritten_place (.incidentOpened id i.kind i.grade i.segment i.district i.deadline c.reference slot) written
  generalize told_eq : place _ ((listed slot id i c p).onDistrict c.district _) = told at put
  have points : told.points = p.points := by subst told_eq; simp [listed, filled, Part.onDistrict]
  have segments : told.segments = p.segments := by subst told_eq; simp [listed, filled, Part.onDistrict]
  have valves : told.valves = p.valves := by subst told_eq; simp [listed, filled, Part.onDistrict]
  have plans : told.plans = p.plans := by subst told_eq; simp [listed, filled, Part.onDistrict]
  have outages : told.outages = p.outages := by subst told_eq; simp [listed, filled, Part.onDistrict]
  have districts : told.districts = p.districts.modify c.district
      (fun d => { d with openIncidents := d.openIncidents + 1 }) := by
    subst told_eq; simp [listed, filled, Part.onDistrict]
  have time : told.time = p.time := by rw [put.time, Part.time, Part.time, filled]
  have response (g : Grade) : told.response g = p.response g := by
    rw [put.response, filled]
    cases g <;> rfl
  have run : openIncident id c p = callReply 0 id slot (dispatchDecide (confirmAtOpening id told)) := by
    rw [← told_eq, ← start]
    rfl
  obtain ⟨now, raised, eq, course⟩ := confirmAtOpening_spec put.this (by rw [opened]; rfl) (by rw [opened]; rfl)
    (by rw [opened]; rfl) (by rw [opened, time]; rfl)
  have taken := takenFor_of_rewritten (c := c) slot (put.trans raised)
    (by rw [confirmAtOpening_keeps (·.points) (by simp), points])
    (by rw [confirmAtOpening_keeps (·.segments) (by simp), segments])
    (by rw [confirmAtOpening_keeps (·.valves) (by simp), valves])
    (by rw [confirmAtOpening_keeps (·.plans) (by simp), plans])
    (by rw [confirmAtOpening_keeps (·.outages) (by simp), outages])
  refine ⟨now, _, run.trans (callReply_of_get? taken.incident _ _), taken, ?_, ?_, fun w some_ => ?_⟩
  · rw [Laws.f_dispatchDecide_districts, confirmAtOpening_keeps (·.districts) (by simp), districts]
  · exact eq
  · obtain ⟨level, next, stays, rises⟩ := course (response .a ▸ some_)
    have sure := confirmedNow_iff (c := c) (i := i) (q := told) w points (by rw [opened]; rfl) (by rw [opened]; rfl)
      (by rw [opened]; rfl) (by rw [opened]; rfl)
    have grade : i.grade = c.grade := by rw [opened]; rfl
    have deadline : i.deadline = p.time + p.response c.grade := by rw [opened]; rfl
    rw [sure]
    rw [grade, deadline] at stays
    rw [deadline, time, response] at rises
    exact ⟨level, next, stays, rises⟩

end

/-- Settles O48: the no-gas call, the call that merges into the lowest candidate, and the one that opens an incident. -/
theorem callsOpenAndMerge : Obligations.CallsOpenAndMerge := by
  intro tag kind grade district reference segment spare s ready k g d r known defined w body p gr ck answer matching
  have says_ : CallBody body kind grade district reference segment :=
    callBody spare k g d r fun x hx => (defined x hx).1
  obtain ⟨noGas, taken⟩ := callRule_act (p := p) says_ k g d known fun x hx => (defined x hx).2
  have reply {st : Status} {result : List Byte} {q : Part} (act : callRule.act body p = ⟨st, result, q⟩) :
      exec (.call tag body) s = .next (s.answered q st result) :=
    request_of_admitted (h := callRule) rfl tag ready.1 (decide_eq_true says_.length) (decide_eq_true ready.2) act
  generalize call_eq : (⟨if kind = 0 then .smell else .damage, if kind = 0 then gradeOf grade else .a, segment, district,
    reference⟩ : TakenCall) = c at taken
  have candidate : p.candidateFor c = matching.head? := by
    rw [candidateFor_eq, ← call_eq]
  refine ⟨fun x is_ hx => ?_, fun lt id rest i first hi => ?_, fun lt none_ => ⟨fun id entry => ?_, fun full shut => ?_⟩⟩
  · exact reply (noGas x is_ hx)
  · obtain ⟨now, q, merged, ⟨incident, slots, clock, points, segments, valves, plans, outages⟩, districts,
      ⟨stays, follows, came⟩, eq⟩ := mergeCall_spec hi c
    have slot_eq : p.slotFor i.calls.length =
        if i.calls.length < 16 then p.register.calls.firstFree 256 else none := by
      by_cases room : i.calls.length < 16
      · rw [Part.slotFor, if_neg (Nat.not_le.mpr room), if_pos room]
      · rw [Part.slotFor, if_pos (Nat.not_lt.mp room), if_neg room]
    rw [slot_eq] at merged slots eq
    generalize (if i.calls.length < 16 then p.register.calls.firstFree 256 else none) = slot at merged slots eq
    have act := (taken lt).trans ((takeCall_merge (by rw [candidate, first]; rfl) hi).trans merged)
    subst call_eq
    refine ⟨now, q, ⟨reply act, incident, slots, clock, points, segments, valves, plans, outages⟩, ?_⟩
    rw [mergedIncident, withSlot_eq] at eq
    refine ⟨by rw [eq]; rfl, ?_, by rw [eq], by rw [eq], by rw [eq], by rw [eq], districts, stays, follows, came⟩
    rw [eq]
    by_cases damage : kind = 1
    · simp [damage]
    · have smell : kind = 0 := by omega
      simp [smell]
  · have entry : p.entryToOpen = some id := by
      rcases entry with free | ⟨full, old, hold, closed, earliest⟩
      · exact entryToOpen_free free
      · exact entryToOpen_earliest w full hold closed earliest
    obtain ⟨now, q, opened, ⟨incident, slots, clock, points, segments, valves, plans, outages⟩, districts, eq, course⟩ :=
      openIncident_spec id c p
    have act := (taken lt).trans ((takeCall_open (by rw [candidate, none_]; rfl) entry).trans opened)
    rw [withSlot_eq] at eq
    subst call_eq
    refine ⟨now, q, ⟨reply act, incident, slots, clock, points, segments, valves, plans, outages⟩, by rw [eq]; rfl,
      by rw [eq]; rfl, by rw [eq]; rfl, by rw [eq]; rfl, ?_, ?_, fun wp some_ => ?_, fun d' hd => ?_⟩
    · rw [eq]
      generalize p.register.calls.firstFree 256 = slot
      cases slot <;> rfl
    · rw [eq]
      by_cases damage : kind = 1
      · simp [damage, openedIncident, CallKind.incidentKind]
      · have smell : kind = 0 := by omega
        simp [smell, openedIncident, CallKind.incidentKind]
    · obtain ⟨level, next, stays, rises⟩ := course wp some_
      have sure : confirmedNow ⟨if kind = 0 then .smell else .damage, if kind = 0 then gradeOf grade else .a, segment,
          district, reference⟩ p ↔ kind = 0 ∧ gr ≠ .a ∧ ∃ x k pt c st, segment = some x ∧ p.points.get? k = some pt ∧
            pt.body = .pressure (some x) c st ∧ st.falling = true ∧ (st.band = .low ∨ st.band = .lowTrip) :=
        and_congr_left' (by simp)
      rw [sure] at stays rises
      exact ⟨level, next, stays, rises⟩
    · rw [districts]
      exact modify_of_get? hd _
  · exact reply ((taken lt).trans (takeCall_full (by rw [candidate, none_]; rfl) (entryToOpen_none w full shut)))

end Sys2Proof.Proofs
end

section
/-!
Tables seen through a view of their records: what the view shows is the same in two tables when it is the same of each
record.
-/

namespace Sys2Proof.Proofs

open Sys2Proof Sys2Proof.Machine

/-- A table of what a view shows of its records. -/
def viewed {α β : Type} (v : α → β) (t : Table α) : Table β := ⟨t.entries.map fun e => (e.1, v e.2)⟩

section
variable {α β : Type} {t u : Table α} {v : α → β} {room : Nat}

theorem viewed_get? (v : α → β) (t : Table α) (k : Nat) : (viewed v t).get? k = (t.get? k).map v := by
  obtain ⟨es⟩ := t
  simp only [Table.get?, viewed]
  induction es with
  | nil => rfl
  | cons e rest ih =>
    by_cases at_ : e.1 = k
    · simp [findEntry, at_]
    · simp only [List.map_cons, findEntry, at_, if_false, ih]

theorem viewed_wf (v : α → β) (w : t.wf room = true) : (viewed v t).wf room = true := by
  have ids : (viewed v t).ids = t.ids := by simp [viewed, Table.ids, Function.comp_def]
  rw [Table.wf, ids]
  exact w

/-- Two tables in canonical form with the same records are the same. -/
theorem table_ext {t u : Table α} (w : t.wf room = true) (w' : u.wf room = true) (h : ∀ k, t.get? k = u.get? k) :
    t = u := by
  have nodup {t : Table α} (w : t.wf room = true) : t.entries.Nodup :=
    (entries_rise w).imp fun {a b} lt same => absurd lt (by rw [same]; exact Nat.lt_irrefl _)
  have same : t.entries.Perm u.entries := (List.perm_ext_iff_of_nodup (nodup w) (nodup w')).mpr fun e =>
    ⟨fun he => Laws.mem_of_get? _ _ _ ((h e.1).symm.trans (get?_of_mem w he)),
      fun he => Laws.mem_of_get? _ _ _ ((h e.1).trans (get?_of_mem w' he))⟩
  obtain ⟨es⟩ := t
  exact congrArg Table.mk (same.eq_of_pairwise (fun a b _ _ lt gt => absurd lt (Nat.not_lt.mpr gt.le))
    (entries_rise w) (entries_rise w'))

theorem viewed_eq (w : t.wf room = true) (w' : u.wf room = true) (h : ∀ k, (u.get? k).map v = (t.get? k).map v) :
    viewed v u = viewed v t :=
  table_ext (viewed_wf v w') (viewed_wf v w) fun k => by rw [viewed_get?, viewed_get?, h]

theorem any_viewed (f : Nat → β → Bool) : (viewed v t).any f = t.any fun k x => f k (v x) := by
  simp [Table.any, viewed, Function.comp_def]

theorem idsWhere_viewed (f : Nat → β → Bool) : (viewed v t).idsWhere f = t.idsWhere fun k x => f k (v x) := by
  simp [Table.idsWhere, viewed, List.filter_map, Function.comp_def]

theorem tally_viewed (f : Nat → β → Nat) : tally (viewed v t) f = tally t fun k x => f k (v x) := by
  simp [tally, viewed, Function.comp_def]

theorem count_viewed (f : Nat → β → Bool) : (viewed v t).count f = t.count fun k x => f k (v x) := by
  simp [Table.count, viewed, List.filter_map, Function.comp_def]

/-- A view that shows less shows the same where another does. -/
theorem view_of_view {γ : Type} {k : Nat} {w : α → γ} (f : β → γ) (shows : ∀ x, w x = f (v x))
    (h : (u.get? k).map v = (t.get? k).map v) : (u.get? k).map w = (t.get? k).map w := by
  have step (o : Option α) : o.map w = (o.map v).map f := by cases o <;> simp [shows]
  rw [step, step, h]

/-! ## What writes leave of a view -/

theorem view_set {k : Nat} {x y : α} (h : t.get? k = some x) (same : v y = v x) (n : Nat) :
    ((t.set k y).get? n).map v = (t.get? n).map v := by
  rw [get?_set]
  split
  next here => rw [here, h, Option.map_some, Option.map_some, same]
  next => rfl

theorem view_modify {k : Nat} {f : α → α} (same : ∀ x, t.get? k = some x → v (f x) = v x) (n : Nat) :
    ((t.modify k f).get? n).map v = (t.get? n).map v := by
  rw [get?_modify]
  split
  next here =>
    rw [here]
    cases h : t.get? k with
    | none => rfl
    | some x => simp [same x h]
  next => rw [Option.map_id']

theorem view_map {f : Nat → α → α} (same : ∀ k x, v (f k x) = v x) (n : Nat) :
    ((t.map f).get? n).map v = (t.get? n).map v := by
  rw [Laws.get?_map]
  cases t.get? n <;> simp [same]

end

end Sys2Proof.Proofs
end

section
/-!
The lamp conditions as records change (R175, R178): what the conditions depend on, and what every operation keeps of
them and of the horn.
-/

namespace Sys2Proof.Proofs

open Sys2Proof Sys2Proof.Machine

/-! ## What the conditions depend on (R175) -/

/-- What the lamps show of a segment: its outage, its district and its suspicion. -/
def lampSegment (x : Segment) : Option Nat × Nat × Bool := (x.outage, x.district, x.suspect)

/-- What the lamps show of an incident. -/
def lampIncident (i : Incident) : Nat × IncidentState × Grade × Nat := (i.district, i.state, i.grade, i.level)

/-- What the lamps show of an outage: whether it is ACTIVE, and its priority premises off. -/
def lampOutage (o : Outage) : Bool × Nat := (o.ended.isNone, o.priorityOff)

/-- What the lamps show of a point: its district, and of a PRESSURE point LOW_SEEN and the band. -/
def lampPoint (pt : Point) : Nat × Option (Bool × Band) := (pt.district, match pt.body with
  | .pressure _ _ st => some (st.lowSeen, st.band)
  | .discrete _ => none)

section
variable {p q : Part}

theorem memberIn_viewed (o d : Nat) : p.memberIn o d =
    (viewed lampSegment p.segments).any fun _ s => s.1 = some o && s.2.1 = d := by
  rw [any_viewed]
  rfl

theorem pressureIn_viewed (d : Nat) (f : Bool → Band → Bool) : (p.pressureIn d fun st => f st.lowSeen st.band) =
    (viewed lampPoint p.points).any fun _ pt => pt.1 = d && (pt.2.any fun st => f st.1 st.2) := by
  rw [any_viewed, Part.pressureIn]
  congr 1
  funext _ pt
  simp only [lampPoint]
  cases pt.body <;> rfl

/-- The part's records that the lamps show are the same in another part. -/
structure SameLamps (p q : Part) : Prop where
  segments : viewed lampSegment q.segments = viewed lampSegment p.segments
  incidents : viewed lampIncident q.register.incidents = viewed lampIncident p.register.incidents
  outages : ∀ f : Nat → Bool × Nat → Bool, (∀ k n, f k (false, n) = false) →
    (viewed lampOutage q.outages).any f = (viewed lampOutage p.outages).any f
  points : viewed lampPoint q.points = viewed lampPoint p.points
  districts : viewed (·.lamp) q.districts = viewed (·.lamp) p.districts
  state : q.link.partState = p.link.partState

theorem SameLamps.districtCondition (h : SameLamps p q) (d : Nat) : q.districtCondition d = p.districtCondition d := by
  have member (o : Nat) : q.memberIn o d = p.memberIn o d := by rw [memberIn_viewed, memberIn_viewed, h.segments]
  have incidents (f : Nat × IncidentState × Grade × Nat → Bool) : (q.register.incidents.any fun _ i => f (lampIncident i)) =
      p.register.incidents.any fun _ i => f (lampIncident i) := by
    rw [← any_viewed fun _ i => f i, h.incidents, any_viewed]
  have outages (f : Nat → Bool) : (q.outages.any fun id o => o.ended.isNone && f o.priorityOff && q.memberIn id d) =
      p.outages.any fun id o => o.ended.isNone && f o.priorityOff && p.memberIn id d := by
    have same := h.outages (fun id o => o.1 && f o.2 && p.memberIn id d) fun _ _ => rfl
    rw [any_viewed, any_viewed] at same
    simp only [member]
    exact same
  have segments : (q.segments.any fun _ s => decide (s.district = d) && s.suspect) =
      p.segments.any fun _ s => decide (s.district = d) && s.suspect := by
    have same := congrArg (fun t => t.any fun _ (s : Option Nat × Nat × Bool) => decide (s.2.1 = d) && s.2.2) h.segments
    simp only [any_viewed] at same
    exact same
  have pressure (f : Bool → Band → Bool) :
      (q.pressureIn d fun st => f st.lowSeen st.band) = p.pressureIn d fun st => f st.lowSeen st.band := by
    rw [pressureIn_viewed, pressureIn_viewed, h.points]
  have early : (q.register.incidents.any fun _ i => decide (i.district = d) && (i.unreached && decide (1 ≤ i.level))) = _ :=
    incidents fun i => decide (i.1 = d) &&
      ((decide (i.2.1 = .opened) || decide (i.2.1 = .assigned)) && decide (1 ≤ i.2.2.2))
  have graded : (q.register.incidents.any fun _ i => decide (i.district = d) && (i.unreached && decide (i.grade = .a))) = _ :=
    incidents fun i => decide (i.1 = d) && ((decide (i.2.1 = .opened) || decide (i.2.1 = .assigned)) && decide (i.2.2.1 = .a))
  have open_ : (q.register.incidents.any fun _ i => decide (i.district = d) && (i.state != .closed)) = _ :=
    incidents fun i => decide (i.1 = d) && (i.2.1 != .closed)
  have high := pressure fun seen band => seen || decide (band = .highTrip)
  have off := pressure fun _ band => decide (band = .low) || decide (band = .high)
  have priority := outages fun n => decide (0 < n)
  have active := outages fun _ => true
  simp only [Part.districtCondition]
  simp only [early, graded, open_, high, off, priority, active, segments]
  rfl

theorem SameLamps.conditions (h : SameLamps p q) : q.lampConditions = p.lampConditions := by
  have running : q.isRunning = p.isRunning := by rw [Part.isRunning, Part.isRunning, h.state]
  have lamps (lamp : Nat) : q.districtOfLamp lamp = p.districtOfLamp lamp := by
    have same := congrArg (fun t => (t.idsWhere fun _ (l : Nat) => decide (l = lamp)).head?) h.districts
    simp only [idsWhere_viewed] at same
    exact same
  have each : q.lampCondition = p.lampCondition := by
    funext lamp
    simp only [Part.lampCondition, running, lamps, h.districtCondition]
  rw [Part.lampConditions, each]
  rfl

theorem conditions_at_rest (h : p.link.partState ≠ .running) : p.lampConditions = List.replicate 32 .off := by
  have off : p.lampCondition = fun _ => .off := by
    funext lamp
    simp [Part.lampCondition, Part.isRunning, h]
  rw [Part.lampConditions, off]
  rfl

end

end Sys2Proof.Proofs
end

section
/-!
Mild operations: those that leave the districts, the calls and the outages, and of the segments, the incidents and the
crews what the records say of one another; the lamp conditions follow them. The operations over points, valves, plans
and field lines are such.
-/

namespace Sys2Proof.Proofs

open Sys2Proof Sys2Proof.Machine

/-! ## The conditions and the horn -/

/-- The lamp conditions are those of the records. -/
def Lit (p : Part) : Prop := p.panel.conditions = p.lampConditions

/-- A part and the same part later, with 32 conditions each: the horn is not silenced, and sounds when a condition has
risen into FAST (R178). -/
structure Shines (p q : Part) : Prop where
  length : p.panel.conditions.length = 32 → q.panel.conditions.length = 32
  horn : p.panel.horn = true → q.panel.horn = true
  rise : p.panel.conditions.length = 32 → ∀ n, n < 32 → p.panel.conditions.getD n .off ≠ .fast →
    q.panel.conditions.getD n .off = .fast → q.panel.horn = true

section
variable {p q r : Part}

theorem shines_of_eq (h : q.panel.conditions = p.panel.conditions) (horn : p.panel.horn = true → q.panel.horn = true) :
    Shines p q where
  length := by rw [h]; exact id
  horn := horn
  rise _ n _ slow fast := absurd (h ▸ fast) slow

theorem Shines.trans (h : Shines p q) (k : Shines q r) : Shines p r where
  length := k.length ∘ h.length
  horn := k.horn ∘ h.horn
  rise len n lt slow fast := by
    by_cases between : q.panel.conditions.getD n .off = .fast
    · exact k.horn (h.rise len n lt slow between)
    · exact k.rise (h.length len) n lt between fast

theorem lampConditions_length (p : Part) : p.lampConditions.length = 32 := by simp [Part.lampConditions]

theorem risesToFast_of_getD {a b : List Lamp} {n : Nat} (ha : n < a.length) (hb : n < b.length)
    (slow : a.getD n .off ≠ .fast) (fast : b.getD n .off = .fast) : risesToFast a b = true := by
  rw [List.getD_eq_getElem _ _ ha] at slow
  rw [List.getD_eq_getElem _ _ hb] at fast
  refine List.any_eq_true.mpr ⟨(a[n], b[n]), ?_, by simp [slow, fast]⟩
  have inZip : n < (a.zip b).length := by rw [List.length_zip]; omega
  exact List.mem_of_getElem (i := n) (h := inZip) (by simp)

theorem lit_refreshLamps (p : Part) : Lit (refreshLamps p) := rfl

theorem shines_refreshLamps (p : Part) : Shines p (refreshLamps p) where
  length _ := lampConditions_length p
  horn sounding := by simp [refreshLamps, sounding]
  rise len n lt slow fast := by
    have rises := risesToFast_of_getD (b := p.lampConditions) (n := n) (by omega)
      (by rw [lampConditions_length]; exact lt) slow fast
    simp [refreshLamps, rises]

/-- The lamps brought up to date after changes that left the panel. -/
theorem shines_refresh (h : q.panel = p.panel) : Shines p (refreshLamps q) :=
  (shines_of_eq (by rw [h]) (by rw [h]; exact id)).trans (shines_refreshLamps q)

theorem SameLamps.lit (h : SameLamps p q) (panel : q.panel.conditions = p.panel.conditions) (lit : Lit p) : Lit q :=
  panel.trans (lit.trans h.conditions.symm)

/-! ## Mild operations -/

/-- What the records say of a segment: all but its marks, its pressure, its feeds and its no-gas calls. -/
def segmentCore (x : Segment) : Nat × Option Nat × SupplyState × Nat × Nat × Nat × Bool :=
  (x.district, x.outage, x.supply, x.relit, x.customers, x.priority, x.suspect)

/-- What the records say of an incident: its place, its calls, and whether it is CLOSED. -/
def incidentCore (i : Incident) : Option Nat × Nat × List Nat × Bool :=
  (i.segment, i.district, i.calls, decide (i.state = .closed))

/-- A part and the same part after mild operations. -/
structure Mild (p q : Part) : Prop where
  tables : p.tablesOk → q.tablesOk
  state : q.link.partState = p.link.partState
  districts : q.districts = p.districts
  calls : q.register.calls = p.register.calls
  outages : q.outages = p.outages
  segments : ∀ n, (q.segments.get? n).map segmentCore = (p.segments.get? n).map segmentCore
  incidents : ∀ n, (q.register.incidents.get? n).map incidentCore = (p.register.incidents.get? n).map incidentCore
  crews : p.tablesOk → p.CrewsAgree → q.CrewsAgree
  shines : Shines p q
  lit : p.tablesOk → Lit p → Lit q

theorem Mild.refl (p : Part) : Mild p p :=
  ⟨fun h => h, rfl, rfl, rfl, rfl, fun _ => rfl, fun _ => rfl, fun _ h => h, shines_of_eq rfl id, fun _ h => h⟩

theorem Mild.trans (h : Mild p q) (k : Mild q r) : Mild p r where
  tables := k.tables ∘ h.tables
  state := k.state.trans h.state
  districts := k.districts.trans h.districts
  calls := k.calls.trans h.calls
  outages := k.outages.trans h.outages
  segments n := (k.segments n).trans (h.segments n)
  incidents n := (k.incidents n).trans (h.incidents n)
  crews t a := k.crews (h.tables t) (h.crews t a)
  shines := h.shines.trans k.shines
  lit t l := k.lit (h.tables t) (h.lit t l)

/-- A mild operation after mild operations. -/
theorem Mild.then (h : Mild p q) {f : Part → Part} (hf : ∀ q, Mild q (f q)) : Mild p (f q) := h.trans (hf q)

theorem mild_foldl {α : Type} (f : Part → α → Part) (hf : ∀ q a, Mild q (f q a)) (as : List α) (p : Part) :
    Mild p (as.foldl f p) := by
  induction as generalizing p with
  | nil => exact .refl p
  | cons a as ih => exact (hf p a).trans (ih _)

theorem mild_foldlWith {α γ : Type} (f : Part × γ → α → Part × γ) (hf : ∀ x a, Mild x.1 (f x a).1) (as : List α)
    (x : Part × γ) : Mild x.1 (as.foldl f x).1 := by
  induction as generalizing x with
  | nil => exact .refl _
  | cons a as ih => exact (hf x a).trans (ih _)

theorem crewsAgree_of (h : p.CrewsAgree) (crews : q.dispatch.crews = p.dispatch.crews)
    (leaks : ∀ i x, p.register.incidents.get? i = some x → x.state = .opened →
      ∃ y, q.register.incidents.get? i = some y ∧ y.state = .opened)
    (relights : ∀ i x, p.segments.get? i = some x → x.supply = .purged →
      ∃ y, q.segments.get? i = some y ∧ y.supply = .purged) : q.CrewsAgree where
  one a b c d j hc hd := h.one a b c d j (crews ▸ hc) (crews ▸ hd)
  busy a c hc := h.busy a c (crews ▸ hc)
  leaks a c i hc offered job := by
    obtain ⟨x, hx, opened⟩ := h.leaks a c i (crews ▸ hc) offered job
    exact leaks i x hx opened
  relights a c i hc offered job := by
    obtain ⟨x, hx, purged⟩ := h.relights a c i (crews ▸ hc) offered job
    exact relights i x hx purged

theorem purged_of_core (h : ∀ n, (q.segments.get? n).map segmentCore = (p.segments.get? n).map segmentCore) (i : Nat)
    (x : Segment) (hx : p.segments.get? i = some x) (purged : x.supply = .purged) :
    ∃ y, q.segments.get? i = some y ∧ y.supply = .purged := by
  have same := h i
  rw [hx] at same
  obtain ⟨y, hy, core⟩ := Option.map_eq_some_iff.mp same
  exact ⟨y, hy, (congrArg (fun c => c.2.2.1) core).trans purged⟩

/-- What the lamps show of the segments is part of what the records say of them. -/
theorem lampSegments_of_core (t : p.tablesOk) (t' : q.tablesOk)
    (h : ∀ n, (q.segments.get? n).map segmentCore = (p.segments.get? n).map segmentCore) :
    viewed lampSegment q.segments = viewed lampSegment p.segments := by
  obtain ⟨_, _, w, _⟩ := t
  obtain ⟨_, _, w', _⟩ := t'
  exact viewed_eq w w' fun n => view_of_view (v := segmentCore) (fun c => (c.2.1, c.1, c.2.2.2.2.2.2)) (fun _ => rfl) (h n)

/-- An operation that leaves the districts, the register, the outages, the points, the crews and the panel, and of the
segments what the records say. -/
theorem mild_of_segments (tables : p.tablesOk → q.tablesOk)
    (state : q.link.partState = p.link.partState) (districts : q.districts = p.districts)
    (register : q.register = p.register) (outages : q.outages = p.outages) (points : q.points = p.points)
    (dispatch : q.dispatch = p.dispatch) (panel : q.panel = p.panel)
    (segments : ∀ n, (q.segments.get? n).map segmentCore = (p.segments.get? n).map segmentCore) : Mild p q where
  tables := tables
  state := state
  districts := districts
  calls := by rw [register]
  outages := outages
  segments := segments
  incidents _ := by rw [register]
  crews _ h := crewsAgree_of h (by rw [dispatch]) (fun i x hx opened => ⟨x, by rw [register]; exact hx, opened⟩)
    (purged_of_core segments)
  shines := shines_of_eq (by rw [panel]) (by rw [panel]; exact id)
  lit t := SameLamps.lit ⟨lampSegments_of_core t (tables t) segments, by rw [register], fun _ _ => by rw [outages],
    by rw [points], by rw [districts], state⟩ (by rw [panel])

/-- An operation that leaves all the records but those of valves, plans, feeds and the field. -/
theorem mild_of_eq (tables : p.tablesOk → q.tablesOk)
    (state : q.link.partState = p.link.partState) (districts : q.districts = p.districts) (register : q.register = p.register)
    (outages : q.outages = p.outages) (points : q.points = p.points) (dispatch : q.dispatch = p.dispatch)
    (panel : q.panel = p.panel) (segments : q.segments = p.segments) : Mild p q :=
  mild_of_segments tables state districts register outages points dispatch panel fun _ => by rw [segments]

/-- An operation that changes the crews, in agreement with the items they have. -/
theorem mild_of_crews (tables : p.tablesOk → q.tablesOk)
    (state : q.link.partState = p.link.partState) (districts : q.districts = p.districts) (register : q.register = p.register)
    (outages : q.outages = p.outages) (points : q.points = p.points) (panel : q.panel = p.panel)
    (segments : q.segments = p.segments) (crews : p.tablesOk → p.CrewsAgree → q.CrewsAgree) : Mild p q where
  tables := tables
  state := state
  districts := districts
  calls := by rw [register]
  outages := outages
  segments _ := by rw [segments]
  incidents _ := by rw [register]
  crews := crews
  shines := shines_of_eq (by rw [panel]) (by rw [panel]; exact id)
  lit _ := SameLamps.lit ⟨by rw [segments], by rw [register], fun _ _ => by rw [outages], by rw [points],
    by rw [districts], state⟩ (by rw [panel])

/-- An operation that changes the points, and then brings the lamps up to date. -/
theorem mild_of_refresh (tables : p.tablesOk → q.tablesOk)
    (state : q.link.partState = p.link.partState) (districts : q.districts = p.districts) (register : q.register = p.register)
    (outages : q.outages = p.outages) (dispatch : q.dispatch = p.dispatch) (segments : q.segments = p.segments)
    (lit : Lit q) (shines : Shines p q) : Mild p q where
  tables := tables
  state := state
  districts := districts
  calls := by rw [register]
  outages := outages
  segments _ := by rw [segments]
  incidents _ := by rw [register]
  crews _ h := crewsAgree_of h (by rw [dispatch]) (fun i x hx opened => ⟨x, by rw [register]; exact hx, opened⟩)
    (fun i x hx purged => ⟨x, by rw [segments]; exact hx, purged⟩)
  shines := shines
  lit _ _ := lit

/-- A point's record is written with the same to show. -/
theorem mild_putPoint {id : Nat} {pt pt' : Point} (h : p.points.get? id = some pt) (same : lampPoint pt' = lampPoint pt) :
    Mild p (putPoint id pt' p) where
  tables := (Laws.m_putPoint (.refl p) _ _ _ h).tables
  state := rfl
  districts := rfl
  calls := rfl
  outages := rfl
  segments _ := rfl
  incidents _ := rfl
  crews _ h := crewsAgree_of h rfl (fun i x hx opened => ⟨x, hx, opened⟩) (fun i x hx purged => ⟨x, hx, purged⟩)
  shines := shines_of_eq rfl (fun h => h)
  lit t := by
    have t' := (Laws.m_putPoint (.refl p) id pt' pt h).tables t
    obtain ⟨_, w, _⟩ := t
    obtain ⟨_, w', _⟩ := t'
    exact SameLamps.lit ⟨rfl, rfl, fun _ _ => rfl, viewed_eq w w' fun n => view_set h same n, rfl, rfl⟩ rfl

/-- An incident's record is written: of the same place and calls, and CLOSED or OPEN as it was. -/
theorem mild_putIncident {id : Nat} {i j : Incident} (h : p.register.incidents.get? id = some i)
    (same : incidentCore j = incidentCore i) (opened : i.state = .opened → j.state = .opened) :
    Mild p (putIncident id j p) where
  tables := (Laws.m_putIncident (.refl p) _ _ (.inr ⟨i, h⟩)).tables
  state := rfl
  districts := rfl
  calls := rfl
  outages := rfl
  segments _ := rfl
  incidents n := view_set h same n
  crews _ agree := crewsAgree_of agree rfl (fun k x hx was => by
      by_cases here : k = id
      · subst here
        cases h.symm.trans hx
        exact ⟨j, Laws.get?_set_same _ _ _, opened was⟩
      · exact ⟨x, (Laws.get?_set_other _ _ _ _ here).trans hx, was⟩)
    (fun k x hx purged => ⟨x, hx, purged⟩)
  shines := shines_refresh rfl
  lit _ _ := lit_refreshLamps _

end

end Sys2Proof.Proofs
end

section
/-!
The shared operations that are mild: those of the arbiter, of the incidents and of the segments' pressure and marks.
-/

namespace Sys2Proof.Proofs

open Sys2Proof Sys2Proof.Machine

section
variable {p q : Part} {id : Nat} {j : Job} {c d : Crew}

/-! ## The crews and their items -/

/-- A crew is at work, or under offer. -/
def atWork (c : Crew) : Prop := c.state = .offered ∨ c.state = .assigned ∨ c.state = .onSite

/-- An item under offer waits for a crew: an OPEN incident, or a PURGED segment (R147). -/
def awaits (p : Part) (j : Job) : Prop :=
  (j.cls = .leak → ∃ x, p.register.incidents.get? j.item = some x ∧ x.state = .opened) ∧
    (j.cls = .relight → ∃ x, p.segments.get? j.item = some x ∧ x.supply = .purged)

theorem crewsAgree_iff : p.CrewsAgree ↔ OneCrew p ∧
    (∀ a c, p.dispatch.crews.get? a = some c → (c.job.isSome = true ↔ atWork c)) ∧
    ∀ a c j, p.dispatch.crews.get? a = some c → c.state = .offered → c.job = some j → awaits p j := by
  constructor
  · rintro ⟨one, busy, leaks, relights⟩
    refine ⟨one, busy, fun a c j hc offered job => ⟨fun leak => ?_, fun relight => ?_⟩⟩
    · exact leaks a c j.item hc offered (by rw [job, ← leak])
    · exact relights a c j.item hc offered (by rw [job, ← relight])
  · rintro ⟨one, busy, waits⟩
    exact ⟨one, busy, fun a c i hc offered job => (waits a c _ hc offered job).1 rfl,
      fun a c i hc offered job => (waits a c _ hc offered job).2 rfl⟩

/-- One crew's record is written, in agreement with the others and with its item. -/
theorem crewsAgree_set (h : p.CrewsAgree) (crews : q.dispatch.crews = p.dispatch.crews.set id c)
    (busy : c.job.isSome = true ↔ atWork c)
    (alone : ∀ j, c.job = some j → ∀ k d, k ≠ id → p.dispatch.crews.get? k = some d → d.job ≠ some j)
    (waits : ∀ j, c.state = .offered → c.job = some j → awaits q j)
    (others : ∀ j k d, k ≠ id → p.dispatch.crews.get? k = some d → d.state = .offered → d.job = some j → awaits p j →
      awaits q j) : q.CrewsAgree := by
  obtain ⟨one, busy', waits'⟩ := crewsAgree_iff.mp h
  have get (k : Nat) (d : Crew) (hd : q.dispatch.crews.get? k = some d) :
      (k = id ∧ d = c) ∨ (k ≠ id ∧ p.dispatch.crews.get? k = some d) := by
    rw [crews, get?_set] at hd
    split at hd
    next here => exact .inl ⟨here, (Option.some.inj hd).symm⟩
    next other => exact .inr ⟨other, hd⟩
  refine crewsAgree_iff.mpr ⟨fun a b d e j hd he jd je => ?_, fun a d hd => ?_, fun a d j hd offered job => ?_⟩
  · rcases get a d hd with ⟨rfl, rfl⟩ | ⟨na, hd⟩ <;> rcases get b e he with ⟨rfl, rfl⟩ | ⟨nb, he⟩
    · rfl
    · exact absurd je (alone j jd b e nb he)
    · exact absurd jd (alone j je a d na hd)
    · exact one a b d e j hd he jd je
  · rcases get a d hd with ⟨rfl, rfl⟩ | ⟨_, hd⟩
    · exact busy
    · exact busy' a d hd
  · rcases get a d hd with ⟨rfl, rfl⟩ | ⟨na, hd⟩
    · exact waits j offered job
    · exact others j a d na hd offered job (waits' a d j hd offered job)

theorem freed_idle (c : Crew) : ¬atWork (freed c) := by
  unfold freed atWork
  split <;> simp

/-- A crew without a job that is at no work. -/
theorem crewsAgree_jobless (h : p.CrewsAgree) (crews : q.dispatch.crews = p.dispatch.crews.set id c) (none_ : c.job = none)
    (idle : ¬atWork c) (others : ∀ j k d, k ≠ id → p.dispatch.crews.get? k = some d → d.state = .offered →
      d.job = some j → awaits p j → awaits q j) : q.CrewsAgree :=
  crewsAgree_set h crews (by simp [none_, idle]) (fun j job => by rw [none_] at job; cases job)
    (fun j _ job => by rw [none_] at job; cases job) others

/-- Items have ended, and the crews with them are freed: the other items under offer wait as they did. -/
theorem crewsAgree_gone (h : p.CrewsAgree) (gone : Job → Bool)
    (crews : ∀ k, q.dispatch.crews.get? k = (p.dispatch.crews.get? k).map fun c => if c.job.any gone then freed c else c)
    (waits : ∀ i, gone i = false → awaits p i → awaits q i) : q.CrewsAgree := by
  obtain ⟨one, busy, waits'⟩ := crewsAgree_iff.mp h
  have get (k : Nat) (d : Crew) (hd : q.dispatch.crews.get? k = some d) :
      (d.job = none ∧ ¬atWork d) ∨ (p.dispatch.crews.get? k = some d ∧ d.job.any gone = false) := by
    rw [crews] at hd
    obtain ⟨c, hc, eq⟩ := Option.map_eq_some_iff.mp hd
    split at eq
    next => exact .inl (eq ▸ ⟨freed_job c, freed_idle c⟩)
    next other => exact .inr (eq ▸ ⟨hc, Bool.eq_false_iff.mpr other⟩)
  refine crewsAgree_iff.mpr ⟨fun a b d e i hd he jd je => ?_, fun a d hd => ?_, fun a d i hd offered job => ?_⟩
  · rcases get a d hd with ⟨none_, _⟩ | ⟨hd, _⟩
    · rw [none_] at jd; cases jd
    · rcases get b e he with ⟨none_, _⟩ | ⟨he, _⟩
      · rw [none_] at je; cases je
      · exact one a b d e i hd he jd je
  · rcases get a d hd with ⟨none_, idle⟩ | ⟨hd, _⟩
    · simp [none_, idle]
    · exact busy a d hd
  · rcases get a d hd with ⟨none_, _⟩ | ⟨hd, other⟩
    · rw [none_] at job; cases job
    · rw [job, Option.any_some] at other
      exact waits i other (waits' a d i hd offered job)

theorem crewsAgree_ended (h : p.CrewsAgree) (j : Job)
    (crews : ∀ k, q.dispatch.crews.get? k = (p.dispatch.crews.get? k).map fun c => if c.job = some j then freed c else c)
    (waits : ∀ i, i ≠ j → awaits p i → awaits q i) : q.CrewsAgree := by
  refine crewsAgree_gone h (fun i => decide (i = j)) (fun k => ?_) fun i other => waits i (of_decide_eq_false other)
  rw [crews]
  congr 1
  funext c
  cases c.job <;> simp

theorem awaits_congr (incidents : q.register.incidents = p.register.incidents) (segments : q.segments = p.segments) :
    awaits q j ↔ awaits p j := by rw [awaits, awaits, incidents, segments]

theorem mild_endJob (j : Job) (p : Part) : Mild p (endJob j p) :=
  mild_of_crews (Laws.m_endJob j p).tables (Laws.m_endJob j p).link.partState (by simp) (by simp) (by simp) (by simp)
    (by simp) (by simp) fun t agree => by
      obtain ⟨_, _, _, _, _, _, _, _, _, w, _⟩ := t
      rcases endJob_cases j w with ⟨_, same⟩ | ⟨id, c, hc, job, crews⟩
      · rw [same]; exact agree
      · exact crewsAgree_jobless agree crews (freed_job c) (freed_idle c) fun i k d _ _ _ _ =>
          (awaits_congr (by simp) (by simp)).mpr

/-- An item of demand waits for a crew. -/
theorem awaits_of_demand {cls : JobClass} {i : Nat} (h : i ∈ p.demand cls) : awaits p ⟨cls, i⟩ := by
  obtain ⟨qualifies, _⟩ := mem_demand.mp h
  constructor
  · rintro rfl
    exact qualifies_leak.mp qualifies
  · rintro rfl
    obtain ⟨x, hx, purged, _⟩ := qualifies_relight.mp qualifies
    exact ⟨x, hx, purged⟩

theorem makeOffer_agree (w : p.dispatch.crews.wf 48 = true) (agree : p.CrewsAgree)
    (hc : p.dispatch.crews.get? id = some c) (wanted : j.item ∈ p.demand j.cls) : (makeOffer j id p).CrewsAgree := by
  have alone := (crewOn_none w).mp (mem_demand.mp wanted).2
  have same {i : Job} : awaits (makeOffer j id p) i ↔ awaits p i := awaits_congr (by simp) (by simp)
  refine crewsAgree_set agree (makeOffer_crews hc) (by simp [atWork]) (fun i hi k d _ hd => ?_) (fun i _ hi => ?_)
    fun i k d _ _ _ _ => same.mpr
  · cases hi
    exact alone k d hd
  · cases hi
    exact same.mpr (awaits_of_demand wanted)

theorem decideLoop_agree (n : Nat) : ∀ {p : Part}, p.dispatch.crews.wf 48 = true → p.CrewsAgree →
    (decideLoop n p).CrewsAgree := by
  induction n with
  | zero => exact fun _ agree => agree
  | succ n ih =>
    intro p w agree
    cases hw : p.winner with
    | none => rw [decideLoop_none _ hw]; exact agree
    | some j =>
      obtain ⟨crew, c, choice, hc, _, _, _, wanted⟩ := chosen w hw
      rw [decideLoop_some n hw choice]
      exact ih (makeOffer_wf w hc) (makeOffer_agree w agree hc wanted)

theorem mild_dispatchDecide (p : Part) : Mild p (dispatchDecide p) :=
  mild_of_crews (Laws.m_dispatchDecide p).tables (Laws.m_dispatchDecide p).link.partState (by simp) (by simp) (by simp)
    (by simp) (by simp) (by simp) fun t agree => by
      obtain ⟨_, _, _, _, _, _, _, _, _, w, _⟩ := t
      unfold dispatchDecide
      split
      · exact decideLoop_agree _ w agree
      · exact agree

/-! ## What leaves the records -/

/-- The districts, the register, the outages, the points, the crews, the panel and the segments are as they were. -/
def KeepsRecords (p q : Part) : Prop :=
  q.districts = p.districts ∧ q.register = p.register ∧ q.outages = p.outages ∧ q.points = p.points ∧
    q.dispatch = p.dispatch ∧ q.panel = p.panel ∧ q.segments = p.segments

theorem mild_of_keeps (k : KeepsRecords p q) (m : Laws.Moves p q) : Mild p q := by
  obtain ⟨districts, register, outages, points, dispatch, panel, segments⟩ := k
  exact mild_of_eq m.tables m.link.partState districts register outages points dispatch panel segments

theorem mild_place (n : Notice) (p : Part) : Mild p (place n p) := mild_of_keeps (by simp [KeepsRecords]) (Laws.m_place (.refl p) n)

theorem mild_markSegments (is : List Nat) (p : Part) : Mild p (markSegments is p) :=
  mild_of_segments (Laws.m_markSegments is p).tables (Laws.m_markSegments is p).link.partState (by simp) (by simp)
    (by simp) (by simp) (by simp) (by simp) fun n => by
      rw [markSegments_get?]
      cases p.segments.get? n <;> rfl

theorem mild_markSegment (i : Nat) (p : Part) : Mild p (markSegment i p) :=
  mild_of_segments (Laws.m_markSegment i p).tables (Laws.m_markSegment i p).link.partState (by simp) (by simp)
    (by simp) (by simp) (by simp) (by simp) fun n => by
      rw [markSegment_get?]
      cases p.segments.get? n <;> rfl

theorem mild_onSegment {seg : Nat} {f : Segment → Segment} (same : ∀ x, segmentCore (f x) = segmentCore x) (p : Part) :
    Mild p (p.onSegment seg f) :=
  mild_of_segments (Laws.m_onSegment (.refl p) seg f).tables rfl rfl rfl rfl rfl rfl rfl fun n =>
    view_modify (fun x _ => same x) n

theorem mild_writePressure (s : Nat) (p : Part) : Mild p (writePressure s p).1 := by
  have moves := Laws.m_writePressure s p
  unfold writePressure at moves ⊢
  split
  · exact .refl p
  · next seg hseg =>
    dsimp only at moves ⊢
    split
    · exact .refl p
    · next other =>
      simp only [hseg, other, if_false] at moves
      exact mild_of_segments moves.tables moves.link.partState rfl rfl rfl rfl rfl rfl fun n => view_set hseg (by rfl) n

/-- The panel changes, but not its conditions, and the horn is not silenced. -/
theorem mild_onPanel {f : Panel → Panel} (conditions : (f p.panel).conditions = p.panel.conditions)
    (horn : (f p.panel).horn = p.panel.horn) (forces : p.panel.forces.wf 36 = true → (f p.panel).forces.wf 36 = true) :
    Mild p (p.onPanel f) where
  tables := (Laws.m_panel (.refl p) _ forces).tables
  state := rfl
  districts := rfl
  calls := rfl
  outages := rfl
  segments _ := rfl
  incidents _ := rfl
  crews _ h := crewsAgree_of h rfl (fun _ x hx opened => ⟨x, hx, opened⟩) (fun _ x hx purged => ⟨x, hx, purged⟩)
  shines := shines_of_eq conditions fun h => horn.trans h
  lit _ := SameLamps.lit ⟨rfl, rfl, fun _ _ => rfl, rfl, rfl, rfl⟩ conditions

/-- A crew's record is written without a job, at no work. -/
theorem mild_onCrew {f : Crew → Crew} (none_ : ∀ c, (f c).job = none) (idle : ∀ c, ¬atWork (f c)) (p : Part) (id : Nat) :
    Mild p (p.onCrew id f) :=
  mild_of_crews (Laws.m_onCrew (.refl p) id f).tables rfl rfl rfl rfl rfl rfl rfl fun _ agree => by
    cases hc : p.dispatch.crews.get? id with
    | none =>
      have same : p.onCrew id f = p := by simp [Part.onCrew, Table.modify, hc]
      rw [same]
      exact agree
    | some c =>
      have crews : (p.onCrew id f).dispatch.crews = p.dispatch.crews.set id (f c) := modify_of_get? hc f
      exact crewsAgree_jobless agree crews (none_ c) (idle c) fun j k d _ _ _ _ => (awaits_congr rfl rfl).mpr

/-! ## Incidents -/

section
variable {i : Incident}

theorem mild_escalateAt (id t : Nat) (p : Part) : Mild p (escalateAt id t p) := by
  unfold escalateAt
  split
  · exact .refl p
  · next i hi =>
    refine Mild.trans ?_ (mild_place _ _)
    exact mild_putIncident hi rfl (fun h => h)

theorem mild_followDeadline (id old : Nat) (p : Part) : Mild p (followDeadline id old p) := by
  unfold followDeadline
  split
  · exact .refl p
  · next i hi =>
    split
    · split
      · exact mild_putIncident hi (by rfl) (fun h => h)
      · exact mild_escalateAt _ _ _
    · exact .refl p

theorem mild_raiseGrade (id : Nat) (g : Grade) (cause : UpgradeCause) (point : Option Nat) (p : Part) :
    Mild p (raiseGrade id g cause point p) := by
  unfold raiseGrade
  split
  · exact .refl p
  · next i hi =>
    refine Mild.trans (Mild.trans ?_ (mild_place _ _)) (mild_followDeadline _ _ _)
    exact mild_putIncident hi rfl (fun h => h)

theorem mild_bringForward (id : Nat) (p : Part) : Mild p (bringForward id p) := by
  unfold bringForward
  split
  · exact .refl p
  · next i hi =>
    split
    · exact .refl p
    · refine Mild.trans ?_ (mild_followDeadline _ _ _)
      exact mild_putIncident hi rfl (fun h => h)

theorem mild_pressureConfirm (s pt : Nat) (p : Part) : Mild p (pressureConfirm s pt p) := by
  unfold pressureConfirm
  split
  · exact .refl p
  · exact mild_raiseGrade _ _ _ _ _

theorem shines_putIncident (id : Nat) (i : Incident) (p : Part) : Shines p (putIncident id i p) :=
  shines_refresh (q := { p with register := { p.register with incidents := p.register.incidents.set id i } }) rfl

theorem lit_place (n : Notice) (h : Lit p) : Lit (place n p) :=
  SameLamps.lit ⟨by simp, by simp, fun _ _ => by simp, by simp, by simp, (mild_place n p).state⟩ (by simp) h

/-- An incident that is CLOSED neither before nor after changes its state; if it was OPEN, its item ends (R132, R134). -/
theorem setIncidentState_mildly (hi : p.register.incidents.get? id = some i) (open_ : i.state ≠ .closed) {new : IncidentState}
    (stays : new ≠ .closed) (cause : IncidentCause) : let r := setIncidentState id new cause p
    let q := if i.state = .opened then endJob ⟨.leak, id⟩ r else r
    Mild p q := by
  intro r q
  have written : r = place (.incidentState id i.state new cause i.crew) (putIncident id { i with
      state := new, stateTime := p.time, nextEscalation := if new.endsEscalation then none else i.nextEscalation } p) := by
    simp [r, setIncidentState, Part.incident?, hi]
  have core (n : Nat) : (r.register.incidents.get? n).map incidentCore = (p.register.incidents.get? n).map incidentCore := by
    rw [written]
    simp only [Laws.place_register]
    exact view_set hi (by simp [incidentCore, open_, stays]) n
  have others (k : Nat) (x : Incident) (other : k ≠ id) (hx : p.register.incidents.get? k = some x) :
      r.register.incidents.get? k = some x := by
    rw [written]
    simp only [Laws.place_register]
    exact (Laws.get?_set_other _ _ _ _ other).trans hx
  have told : Mild p r ∨ i.state = .opened := by
    by_cases opened : i.state = .opened
    · exact .inr opened
    · rw [written]
      refine .inl (Mild.trans ?_ (mild_place _ _))
      exact mild_putIncident hi (by simp [incidentCore, open_, stays]) (fun h => absurd h opened)
  by_cases opened : i.state = .opened
  · have q_eq : q = endJob ⟨.leak, id⟩ r := if_pos opened
    have tables : p.tablesOk → r.tablesOk := (Laws.m_setIncidentState id new cause p).tables
    have ended : Mild r q := q_eq ▸ mild_endJob _ _
    have shines : Shines p r := by
      rw [written]
      exact (shines_putIncident _ _ _).trans (mild_place _ _).shines
    have lit : Lit r := written ▸ lit_place _ (lit_refreshLamps _)
    exact {
      tables := fun t => ended.tables (tables t)
      state := ended.state.trans (Laws.m_setIncidentState id new cause p).link.partState
      districts := ended.districts.trans (by simp [r])
      calls := ended.calls.trans (by rw [written]; simp [putIncident, refreshLamps])
      outages := ended.outages.trans (by simp [r])
      segments := fun n => (ended.segments n).trans (by simp [r])
      incidents := fun n => (ended.incidents n).trans (core n)
      crews := fun t agree => by
        have dispatch : r.dispatch = p.dispatch := by simp [r]
        obtain ⟨_, _, _, _, _, _, _, _, _, w, _⟩ := t
        have one : OneCrew r := by rw [OneCrew, dispatch]; exact agree.one
        refine crewsAgree_ended agree ⟨.leak, id⟩ (fun k => ?_) fun k other waits => ⟨fun leak => ?_, fun relight => ?_⟩
        · rw [q_eq, endJob_get? (dispatch ▸ w) one, dispatch]
        · obtain ⟨x, hx, was⟩ := waits.1 leak
          refine ⟨x, ?_, was⟩
          rw [q_eq, Laws.f_endJob_register]
          exact others k.item x (fun same => other (by cases k; cases leak; cases same; rfl)) hx
        · obtain ⟨x, hx, purged⟩ := waits.2 relight
          exact ⟨x, by rw [q_eq, Laws.f_endJob_segments]; simpa [r] using hx, purged⟩
      shines := shines.trans ended.shines
      lit := fun t _ => ended.lit (tables t) lit }
  · have q_eq : q = r := if_neg opened
    rw [q_eq]
    exact told.resolve_right opened

theorem mild_makeSafe (id : Nat) (cause : IncidentCause) (open_ : ∀ i, p.register.incidents.get? id = some i → i.state ≠ .closed) :
    Mild p (makeSafe id cause p) := by
  unfold makeSafe
  split
  · exact .refl p
  · next i hi => exact setIncidentState_mildly hi (open_ i hi) (by decide) cause

end

end

end Sys2Proof.Proofs
end

section
/-!
Quiet operations: calm in the plans and the valves, and mild in the other records. All shared operations over lines,
points, valve operations and the course of plans are such.
-/

namespace Sys2Proof.Proofs

open Sys2Proof Sys2Proof.Machine

/-- A part and the same part after quiet operations. -/
structure Quiet (p q : Part) : Prop where
  calm : Calm p q
  mild : Mild p q

theorem Quiet.refl (p : Part) : Quiet p p := ⟨.refl p, .refl p⟩

theorem Quiet.trans {p q r : Part} (h : Quiet p q) (k : Quiet q r) : Quiet p r := ⟨h.calm.trans k.calm, h.mild.trans k.mild⟩

/-- A quiet operation after quiet operations. -/
theorem Quiet.then {p q : Part} (h : Quiet p q) {f : Part → Part} (hf : ∀ q, Quiet q (f q)) : Quiet p (f q) := h.trans (hf q)

theorem quiet_foldl {α : Type} (f : Part → α → Part) (hf : ∀ q a, Quiet q (f q a)) (as : List α) (p : Part) :
    Quiet p (as.foldl f p) :=
  ⟨calm_foldl f (fun q a => (hf q a).calm) as p, mild_foldl f (fun q a => (hf q a).mild) as p⟩

theorem quiet_foldlWith {α γ : Type} (f : Part × γ → α → Part × γ) (hf : ∀ x a, Quiet x.1 (f x a).1) (as : List α)
    (x : Part × γ) : Quiet x.1 (as.foldl f x).1 :=
  ⟨calm_foldlWith f (fun x a => (hf x a).calm) as x, mild_foldlWith f (fun x a => (hf x a).mild) as x⟩

/-! ### Single updates -/

section
variable {p : Part}

/-- A calm operation that leaves the records. -/
theorem Calm.quiet {q : Part} (c : Calm p q) (m : Laws.Moves p q) (k : KeepsRecords p q) : Quiet p q := ⟨c, mild_of_keeps k m⟩

/-- An operation that leaves the plans, the valves and the trace engine as well. -/
theorem quiet_of_keeps {q : Part} (m : Laws.Moves p q) (k : KeepsRecords p q)
    (rest : q.valves = p.valves ∧ q.plans = p.plans ∧ q.trace = p.trace) : Quiet p q :=
  (calm_of_eq rest.1 rest.2.1 rest.2.2).quiet m k

theorem quiet_place (n : Notice) (p : Part) : Quiet p (place n p) := ⟨calm_place n p, mild_place n p⟩

theorem quiet_raise (c : Cause) (p : Part) : Quiet p (raise c p) :=
  (calm_raise c p).quiet (Laws.m_raise c p) (by simp [KeepsRecords])

theorem quiet_markSegments (is : List Nat) (p : Part) : Quiet p (markSegments is p) :=
  ⟨calm_markSegments is p, mild_markSegments is p⟩

theorem quiet_endJob (j : Job) (p : Part) : Quiet p (endJob j p) := ⟨calm_endJob j p, mild_endJob j p⟩

theorem quiet_dispatchDecide (p : Part) : Quiet p (dispatchDecide p) := ⟨calm_dispatchDecide p, mild_dispatchDecide p⟩

theorem quiet_makeSafe (i : Nat) (c : IncidentCause)
    (open_ : ∀ x, p.register.incidents.get? i = some x → x.state ≠ .closed) : Quiet p (makeSafe i c p) :=
  ⟨calm_makeSafe i c p, mild_makeSafe i c open_⟩

theorem quiet_pressureConfirm (s pt : Nat) (p : Part) : Quiet p (pressureConfirm s pt p) :=
  ⟨calm_pressureConfirm s pt p, mild_pressureConfirm s pt p⟩

theorem quiet_offerCommand (c : Command) (p : Part) : Quiet p (offerCommand c p).1 :=
  quiet_of_keeps (Laws.m_offerCommand c p) (by simp [KeepsRecords]) (by simp)

theorem quiet_offerStop (v : Nat) (p : Part) : Quiet p (offerStop v p) :=
  quiet_of_keeps (Laws.m_offerStop v p) (by simp [KeepsRecords]) (by simp)

theorem quiet_withdrawCommand (v : Nat) (p : Part) : Quiet p (withdrawCommand v p) :=
  quiet_of_keeps (Laws.m_withdrawCommand v p) (by simp [KeepsRecords]) (by simp)

/-- One line's record changed. -/
theorem quiet_onLine (n : Nat) (f : Line → Line) (p : Part) : Quiet p (p.onLine n f) :=
  ⟨calm_onLine n f p, mild_of_eq (fun t => t) rfl rfl rfl rfl rfl rfl rfl rfl⟩

theorem quiet_popCommand (n : Nat) (p : Part) : Quiet p (popCommand n p) := quiet_onLine _ _ _

theorem quiet_onOutstation (os : Nat) (f : Outstation → Outstation) (p : Part) : Quiet p (p.onOutstation os f) :=
  quiet_of_keeps (Laws.m_onOutstation (.refl p) os f) ⟨rfl, rfl, rfl, rfl, rfl, rfl, rfl⟩ ⟨rfl, rfl, rfl⟩

theorem quiet_snoop (vs : List Nat) (except : Option Nat) (p : Part) : Quiet p (snoop vs except p) :=
  (calm_snoop vs except p).quiet (Laws.m_snoop vs except p) (by simp [KeepsRecords])

theorem quiet_setOpState {v : Nat} {st : OpState} {e : Option Nat}
    (h : (st ≠ .pending ∧ st ≠ .acting) ∨ ∀ o, p.op? v = some o → o.live = true) : Quiet p (setOpState v st e p) :=
  (calm_setOpState h).quiet (Laws.m_setOpState v st e p) (by simp [KeepsRecords])

theorem quiet_setPlanState {id : Nat} {new : PlanState} {valve : Option Nat}
    (h : p.plans.wf 16 = true → ∀ x, p.plans.get? id = some x → phaseOf new = phaseOf x.state)
    (hn : new ≠ .releasing := by decide) : Quiet p (setPlanState id new valve p) :=
  (calm_setPlanState h hn).quiet (Laws.m_setPlanState id new valve p) (by simp [KeepsRecords])

theorem quiet_onValve {v : Nat} {f : Valve → Valve}
    (hf : ∀ x, p.valves.get? v = some x → (f x).holders = x.holders ∧ (isOpening (f x) → isOpening x)) :
    Quiet p (p.onValve v f) :=
  (calm_onValve hf).quiet (Laws.m_onValve (.refl p) v f) ⟨rfl, rfl, rfl, rfl, rfl, rfl, rfl⟩

theorem mild_freePlan (id : Nat) (p : Part) : Mild p (freePlan id p) := by
  have erased : Mild p { p with plans := p.plans.erase id } :=
    mild_of_keeps ⟨rfl, rfl, rfl, rfl, rfl, rfl, rfl⟩ (Laws.m_plans (.refl p) _ (Laws.wf_erase _ _ _))
  unfold freePlan
  split
  · exact .refl p
  · have told (n : Notice) := erased.trans (mild_place n _)
    dsimp only
    split
    · next i inc found =>
      split
      · refine (told _).trans (mild_putIncident (i := inc) ?_ rfl (fun h => h))
        obtain ⟨k, _, hk⟩ := Option.bind_eq_some_iff.mp found
        obtain ⟨x, hx, eq⟩ := Option.map_eq_some_iff.mp hk
        cases eq
        simpa [Part.incident?] using hx
      · exact told _
    · exact told _

theorem quiet_freePlan {id : Nat} (h : ∀ x, p.plans.get? id = some x → x.state = .releasing) : Quiet p (freePlan id p) :=
  ⟨calm_freePlan h, mild_freePlan id p⟩

end

/-! ### Valve operations and the course of plans -/

theorem quiet_finishOp (v : Nat) (p : Part) : Quiet p (finishOp v p) := by
  unfold finishOp
  split
  · exact .refl p
  · have done (n : Notice) : Quiet p (place n (setOpState v .done none p)) :=
      (quiet_setOpState (.inl (by decide))).trans (quiet_place _ _)
    dsimp only
    split
    · exact (done _).trans (quiet_endJob _ _)
    · exact done _

theorem quiet_failOp (v : Nat) (r : OpFailure) (p : Part) : Quiet p (failOp v r p) := by
  unfold failOp
  split
  · exact .refl p
  · have failed (n : Notice) : Quiet p (place n (setOpState v (.failed r) none p)) :=
      (quiet_setOpState (.inl (by simp))).trans (quiet_place _ _)
    dsimp only
    split
    · exact (failed _).trans (quiet_endJob _ _)
    · exact failed _

theorem quiet_cancelOp (v : Nat) (p : Part) : Quiet p (cancelOp v p) := by
  unfold cancelOp
  split
  · exact .refl p
  · split
    · dsimp only
      split
      · exact (quiet_failOp _ _ _).trans (quiet_withdrawCommand _ _)
      · exact (quiet_failOp _ _ _).trans (quiet_offerStop _ _)
      · exact quiet_failOp _ _ _
    · exact .refl p

/-- A CLOSE is ordered (R110). -/
theorem quiet_orderClose (v : Nat) (origin : Origin) (p : Part) : Quiet p (orderOp v .toClose origin p) := by
  unfold orderOp
  split
  · exact .refl p
  · dsimp only
    have written (m : Mode) : Quiet p (p.onValve v fun valve => { valve with
        operation := some (Operation.mk .toClose origin m .pending p.time p.time none) }) :=
      quiet_onValve fun _ _ => ⟨rfl, by rintro ⟨o, ho, open_, _⟩; cases ho; cases open_⟩
    split
    · exact written _
    · split
      · exact ((written _).trans (quiet_offerCommand _ _)).trans (quiet_failOp _ _ _)
      · exact (written _).trans (quiet_offerCommand _ _)

theorem quiet_cancelPending (id : Nat) (p : Part) : Quiet p (cancelPending id p) := by
  unfold cancelPending
  split
  · exact .refl p
  · split
    · exact quiet_foldl _ (fun q v => quiet_cancelOp v q) _ _
    · exact .refl p

theorem quiet_isolationTest (id : Nat) (p : Part) : Quiet p (isolationTest id p) := by
  unfold isolationTest
  split
  · exact .refl p
  · rename_i x hx
    split
    · rename_i isolates
      have entered : Quiet p (setPlanState id .isolated none p) := quiet_setPlanState fun _ y hy => by
        rw [hx] at hy; cases hy; exact isolates_phase isolates
      unfold enterIsolated
      split
      · exact .refl p
      · dsimp only
        split
        · next k inc found =>
          split
          · next able =>
            refine entered.trans (quiet_makeSafe _ _ fun y hy closed => ?_)
            obtain ⟨_, _, hk⟩ := Option.bind_eq_some_iff.mp found
            obtain ⟨_, hinc, eq⟩ := Option.map_eq_some_iff.mp hk
            cases eq
            have known : p.register.incidents.get? k = some inc := by simpa [Part.incident?] using hinc
            rw [Laws.f_setPlanState_register, known] at hy
            cases hy
            simp [closed] at able
          · exact entered
        · exact entered
    · exact .refl p

theorem quiet_failureTest (id : Nat) (t : Touched) (p : Part) : Quiet p (failureTest id t p) := by
  unfold failureTest
  split
  · rename_i x o hx ho
    split
    · rename_i test
      refine quiet_setPlanState fun _ y hy => ?_
      rw [hx] at hy; cases hy
      simp only [Bool.and_eq_true, decide_eq_true_eq] at test
      rw [test.2]; rfl
    · exact .refl p
  · exact .refl p

theorem quiet_breakTest (id v : Nat) (p : Part) : Quiet p (breakTest id v p) := by
  unfold breakTest
  split
  · exact .refl p
  · rename_i x hx
    split
    · rename_i test
      refine quiet_setPlanState fun _ y hy => ?_
      rw [hx] at hy; cases hy
      simp only [Bool.and_eq_true, decide_eq_true_eq] at test
      rw [test.1]; rfl
    · exact .refl p

theorem quiet_leaveReleaseOf (id v : Nat) (p : Part) : Quiet p (leaveReleaseOf id v p) := by
  unfold leaveReleaseOf
  split
  · exact .refl p
  · rename_i x hx
    split
    · rename_i test
      simp only [Bool.and_eq_true, decide_eq_true_eq] at test
      dsimp only
      rw [onPlan_of_get? hx]
      have left : Quiet p { p with plans := p.plans.set id { x with releaseList := x.releaseList.filter (· != v) } } :=
        Calm.quiet (calm_setPlan hx (fun _ => rfl) fun _ => ⟨test.1, List.filter_subset_self _⟩)
          (Laws.m_plans (.refl p) _ fun w => Laws.wf_set_used _ _ _ _ _ w hx) ⟨rfl, rfl, rfl, rfl, rfl, rfl, rfl⟩
      split
      · refine left.trans (quiet_freePlan fun y hy => ?_)
        simp only [Laws.get?_set_same, Option.some.injEq] at hy
        subst hy
        exact test.1
      · exact left
    · exact .refl p

theorem quiet_leaveReleases (v : Nat) (e : Option Nat) (p : Part) : Quiet p (leaveReleases v e p) :=
  quiet_foldl _ (fun q i => quiet_leaveReleaseOf i v q) _ _

theorem quiet_testPlan (i : Nat) (t : Touched) (p : Part) : Quiet p (testPlan i t p) :=
  (((quiet_breakTest _ _ _).trans (quiet_cancelPending _ _)).trans (quiet_failureTest _ _ _)).trans (quiet_isolationTest _ _)

theorem quiet_courseOf (t : Touched) (p : Part) : Quiet p (courseOf t p) := by
  unfold courseOf
  refine Quiet.trans ?_ (quiet_foldl _ (fun q i => quiet_testPlan i t q) _ _)
  split
  · split
    · exact quiet_leaveReleaseOf _ _ _
    · exact .refl p
  · exact .refl p

theorem quiet_planCourse (ts : List Touched) (p : Part) : Quiet p (planCourse ts p) :=
  quiet_foldl _ (fun q t => quiet_courseOf t q) _ _

/-! ### Valve positions -/

theorem quiet_writePosition (v : Nat) (pos : Position) (r : Option End) (p : Part) :
    Quiet p (writePosition v pos r p).1 := by
  unfold writePosition
  split
  · exact .refl p
  · rename_i x hx
    have written (y : Valve) (h : y.holders = x.holders) (ho : y.operation = x.operation) :
        Quiet p { p with valves := p.valves.set v y } := by
      rw [setValve_eq_onValve hx]
      refine quiet_onValve fun z hz => ?_
      rw [hx] at hz; cases hz
      exact ⟨h, fun ⟨o, h1, h2⟩ => ⟨o, ho ▸ h1, h2⟩⟩
    dsimp only
    split
    · exact written _ rfl rfl
    · refine Quiet.trans ?_ (quiet_raise _ _)
      exact written _ rfl rfl

theorem quiet_opSlotReport (v : Nat) (s : SlotStatus) (p : Part) : Quiet p (opSlotReport v s p).1 := by
  unfold opSlotReport
  split
  · exact .refl p
  · dsimp only
    split
    · split
      · split
        · exact quiet_finishOp _ _
        · split
          · exact (quiet_failOp _ _ _).trans (quiet_offerStop _ _)
          · exact .refl p
      · exact .refl p
    · split
      · exact quiet_finishOp _ _
      · exact .refl p

theorem quiet_takeSlots (rs : List (Nat × SlotStatus)) (p : Part) : Quiet p (takeSlots rs p).1 := by
  unfold takeSlots writeSlots reportSlots
  refine Quiet.trans ?_ (quiet_foldlWith _ (fun x r => ?_) rs (_, []))
  · refine Quiet.trans ?_ (quiet_snoop _ _ _)
    refine quiet_foldlWith _ (fun x r => ?_) rs (p, [])
    exact quiet_writePosition _ _ _ _
  · exact quiet_opSlotReport _ _ _

theorem quiet_opEndReport (v : Nat) (e : End) (p : Part) : Quiet p (opEndReport v e p) := by
  unfold opEndReport
  split
  · exact .refl p
  · split
    · exact quiet_finishOp _ _
    · exact .refl p

theorem quiet_opSeizedReport (v : Nat) (p : Part) : Quiet p (opSeizedReport v p).1 := by
  unfold opSeizedReport
  split
  · exact .refl p
  · split
    · exact quiet_failOp _ _ _
    · exact .refl p

theorem quiet_changeInoperable (v : Nat) (b : Bool) (c : Cause) (p : Part) : Quiet p (changeInoperable v b c p) := by
  unfold changeInoperable
  split
  · exact .refl p
  · rename_i x hx
    split
    · exact .refl p
    · dsimp only
      rw [setValve_eq_onValve hx]
      refine Quiet.trans (Quiet.trans (Quiet.trans (quiet_onValve fun z hz => ?_) (quiet_markSegments _ _)) (quiet_raise _ _))
        (quiet_snoop _ _ _)
      rw [hx] at hz; cases hz
      exact ⟨rfl, fun h => h⟩

theorem quiet_losePositions (os : Nat) (p : Part) : Quiet p (losePositions os p) :=
  (calm_mapValves fun v x => by split <;> exact ⟨rfl, fun h => h⟩ : Calm p (losePositions os p)).quiet
    (Laws.m_losePositions os p) ⟨rfl, rfl, rfl, rfl, rfl, rfl, rfl⟩

theorem quiet_failField (v : Nat) (p : Part) : Quiet p (failField v p).1 := by
  unfold failField
  split
  · exact .refl p
  · split
    · exact quiet_failOp _ _ _
    · exact .refl p

theorem quiet_failFields (vs : List Nat) (p : Part) : Quiet p (failFields vs p).1 :=
  quiet_foldlWith (fun (x : Part × List Touched) v => ((failField v x.1).1, x.2 ++ (failField v x.1).2))
    (fun x v => quiet_failField v x.1) vs (p, [])

theorem quiet_opAccepted (v : Nat) (p : Part) : Quiet p (opAccepted v p) := by
  unfold opAccepted
  split
  · rename_i x o hx ho
    split
    · rename_i test
      simp only [Bool.and_eq_true, decide_eq_true_eq] at test
      refine quiet_setOpState (.inr fun o' ho' => ?_)
      rw [ho] at ho'; cases ho'
      simp [Operation.live, test.2]
    · exact .refl p
  · exact .refl p

theorem quiet_opRejected (v : Nat) (p : Part) : Quiet p (opRejected v p).1 := by
  unfold opRejected
  split
  · exact .refl p
  · split
    · exact quiet_failOp _ _ _
    · exact .refl p

/-! ### Points -/

/-- A sample that leaves the band leaves LOW_SEEN. -/
theorem lowSeen_of_sample {c : PressureSettings} {now count : Nat} {q : Quality} {st : PressureState}
    (same : (pressureSample c now q st count).2.band = st.band) : (pressureSample c now q st count).2.lowSeen = st.lowSeen := by
  unfold pressureSample at same ⊢
  split
  · dsimp only
    split <;> rfl
  · next heq =>
    rw [heq] at same
    dsimp only at same ⊢
    split
    · rfl
    · next other => rw [if_neg other] at same; exact absurd same other

theorem mild_enterBand {id : Nat} {pt : Point} {p : Part} (h : p.points.get? id = some pt) (pt' : Point) (b : Band)
    (st : PressureState) (c : BandCause) : Mild p (enterBand id pt' b st c p) :=
  mild_of_refresh (Laws.m_enterBand id pt' pt b st c p h).tables (Laws.m_enterBand id pt' pt b st c p h).link.partState
    rfl rfl rfl rfl rfl (lit_refreshLamps _) (shines_refresh (by simp [putPoint]))

theorem mild_deliverPoint (d : ReplyData) (i : Nat) (x : Part × HandOn) : Mild x.1 (deliverPoint d i x).1 := by
  obtain ⟨p, hd⟩ := x
  unfold deliverPoint
  dsimp only
  split
  · exact .refl p
  · next pt hpt =>
    split
    · next seg c st body =>
      split
      · exact .refl p
      · next count _ =>
        dsimp only
        split
        · next same =>
          exact mild_putPoint hpt (by simp [lampPoint, body, ← same, lowSeen_of_sample same.symm])
        · exact mild_enterBand hpt _ _ _ _
    · next d' body =>
      have written : Mild p (putPoint i { pt with
          quality := .good, body := .discrete (discreteSample d' (d.word.getLsbD pt.input)).1 } p) :=
        mild_putPoint hpt (by simp [lampPoint, body])
      split
      · exact written
      · exact written.then (mild_place _)

theorem quiet_deliverPoint (d : ReplyData) (i : Nat) (x : Part × HandOn) : Quiet x.1 (deliverPoint d i x).1 := by
  refine ⟨?_, mild_deliverPoint d i x⟩
  obtain ⟨p, hd⟩ := x
  unfold deliverPoint
  dsimp only
  split
  · exact .refl p
  · split
    · split
      · exact .refl p
      · dsimp only
        split <;> exact calm_of_eq rfl rfl rfl
    · split <;> exact calm_of_eq rfl rfl rfl

theorem quiet_writePressure (s : Nat) (p : Part) : Quiet p (writePressure s p).1 := by
  refine ⟨?_, mild_writePressure s p⟩
  unfold writePressure
  split
  · exact .refl p
  · dsimp only
    split
    · exact .refl p
    · exact calm_of_eq rfl rfl rfl

theorem quiet_writePressures (ss : List Nat) (p : Part) : Quiet p (writePressures ss p).1 :=
  quiet_foldlWith (fun (x : Part × List Nat) seg =>
    ((writePressure seg x.1).1, if (writePressure seg x.1).2 then x.2 ++ [seg] else x.2))
    (fun x s => quiet_writePressure s x.1) ss (p, [])

theorem quiet_writeLiveness (f : Nat) (p : Part) : Quiet p (writeLiveness f p) := by
  refine Calm.quiet ?_ (Laws.m_writeLiveness f p) (by simp [KeepsRecords])
  unfold writeLiveness
  split
  · exact .refl p
  · dsimp only
    split
    · exact .refl p
    · refine Calm.trans ?_ (calm_raise _ _)
      exact calm_of_eq rfl rfl rfl

theorem quiet_handOn (ss : List Nat) (hd : HandOn) (p : Part) : Quiet p (handOn ss hd p) := by
  unfold handOn
  dsimp only
  refine Quiet.trans ?_ (quiet_foldl _ (fun q (c : Nat × Nat) => quiet_pressureConfirm c.2 c.1 q) _ _)
  refine Quiet.trans ?_ (quiet_foldl _ (fun q f => quiet_writeLiveness f q) _ _)
  exact (quiet_writePressures ss p).trans (quiet_markSegments _ _)

theorem quiet_deliverPoints (os : Nat) (d : ReplyData) (p : Part) : Quiet p (deliverPoints os d p) := by
  unfold deliverPoints
  exact (quiet_foldlWith _ (fun x i => quiet_deliverPoint d i x) _ (p, {})).trans (quiet_handOn _ _ _)

theorem lampPoint_lost (pt : Point) : lampPoint pt.lost = lampPoint pt := by
  unfold Point.lost
  split
  · rfl
  · cases body : pt.body with
    | pressure seg c st =>
      simp only [lampPoint, body]
      split <;> rfl
    | discrete d => simp only [lampPoint, body]

/-- Every point changed, with the same to show. -/
theorem mild_mapPoints {f : Nat → Point → Point} {p : Part} (same : ∀ k pt, lampPoint (f k pt) = lampPoint pt) :
    Mild p { p with points := p.points.map f } where
  tables := (Laws.m_points (.refl p) _ (Laws.wf_map _ _ f)).tables
  state := rfl
  districts := rfl
  calls := rfl
  outages := rfl
  segments _ := rfl
  incidents _ := rfl
  crews _ h := crewsAgree_of h rfl (fun i x hx opened => ⟨x, hx, opened⟩) (fun i x hx purged => ⟨x, hx, purged⟩)
  shines := shines_of_eq rfl (fun h => h)
  lit t := by
    obtain ⟨_, w, _⟩ := t
    exact SameLamps.lit ⟨rfl, rfl, fun _ _ => rfl, viewed_eq w (Laws.wf_map _ _ f w) (view_map same), rfl, rfl⟩ rfl

theorem quiet_losePoints (os : Nat) (p : Part) : Quiet p (losePoints os p).1 := by
  unfold losePoints
  refine Quiet.trans ?_ (quiet_writePressures _ _)
  refine ⟨calm_of_eq rfl rfl rfl, mild_mapPoints fun _ pt => ?_⟩
  split
  · exact lampPoint_lost pt
  · rfl

theorem quiet_rideThroughEnds (i : Nat) (p : Part) : Quiet p (rideThroughEnds i p) := by
  unfold rideThroughEnds
  split
  · exact .refl p
  · split
    · exact .refl p
    · split
      · exact .refl p
      · split
        · refine Quiet.trans ?_ (quiet_handOn _ _ _)
          exact ⟨calm_of_eq rfl rfl rfl, mild_enterBand (by assumption) _ _ _ _⟩
        · exact .refl p

/-! ### Field transactions -/

theorem quiet_setComm (os : Nat) (f : Outstation → Outstation) (c : CommCause) (p : Part) : Quiet p (setComm os f c p) := by
  refine quiet_of_keeps (Laws.m_setComm os f c p) ?_ ?_ <;> unfold setComm <;> split
  · exact ⟨rfl, rfl, rfl, rfl, rfl, rfl, rfl⟩
  · dsimp only
    split <;> exact ⟨rfl, rfl, rfl, rfl, rfl, rfl, rfl⟩
  · exact ⟨rfl, rfl, rfl⟩
  · dsimp only
    split <;> exact ⟨rfl, rfl, rfl⟩

theorem quiet_loseOutstation (os : Nat) (b : Bool) (p : Part) : Quiet p (loseOutstation os b p).1 := by
  unfold loseOutstation
  dsimp only
  have lost := ((quiet_onLine (lineOf os) (fun l => { l with queue := l.queue.filter fun c => c.outstation != os }) p).trans
    (quiet_failFields (reportedValves ((p.line (lineOf os)).queue.filter fun c => c.outstation = os)) _)).trans
    (quiet_losePoints os _)
  split
  · exact ((lost.trans (quiet_markSegments _ _)).trans (quiet_losePositions _ _)).trans (quiet_failFields _ _)
  · exact (lost.trans (quiet_losePositions _ _)).trans (quiet_failFields _ _)

theorem quiet_outstationOffline (os : Nat) (p : Part) : Quiet p (outstationOffline os p) := by
  have lost := quiet_loseOutstation os true p
  unfold outstationOffline
  rcases hl : loseOutstation os true p with ⟨q, ts, cs⟩
  rw [hl] at lost
  exact lost.trans (quiet_planCourse ts q)

theorem quiet_countFailure (os : Nat) (p : Part) : Quiet p (countFailure os p) := by
  unfold countFailure
  dsimp only
  split
  · exact (quiet_setComm _ _ _ _).trans (quiet_outstationOffline _ _)
  · exact quiet_setComm _ _ _ _

theorem quiet_countGood (os : Nat) (p : Part) : Quiet p (countGood os p) := quiet_setComm _ _ _ _

theorem quiet_countBusy (os : Nat) (p : Part) : Quiet p (countBusy os p) := by
  unfold countBusy
  split
  · exact .refl p
  · split
    · exact quiet_onOutstation _ _ _
    · exact (quiet_onOutstation _ _ _).trans (quiet_countFailure _ _)

theorem quiet_countNoAnswer (os : Nat) (p : Part) : Quiet p (countNoAnswer os p) :=
  (quiet_onOutstation _ _ _).trans (quiet_countFailure _ _)

theorem quiet_dataReply (os : Nat) (d : ReplyData) (p : Part) : Quiet p (dataReply os d p) := by
  have taken := (quiet_countGood os p).trans (quiet_deliverPoints os d _)
  unfold dataReply
  dsimp only
  split
  · exact taken.trans (quiet_dispatchDecide _)
  · exact ((taken.trans (quiet_takeSlots _ _)).trans (quiet_planCourse _ _)).trans (quiet_dispatchDecide _)

theorem quiet_commandOutcome (n os : Nat) (c : Command) (o : Outcome) (p : Part) : Quiet p (commandOutcome n os c o p) := by
  have good := (quiet_countGood os p).trans (quiet_popCommand n _)
  have bad : Quiet p (countNoAnswer os
      (p.onLine n fun l => { l with queue := { c with noAnswers := c.noAnswers + 1 } :: l.queue.tail })) :=
    (quiet_onLine _ _ _).trans (quiet_countNoAnswer _ _)
  have gave (p' : Part) (h : Quiet p p') : Quiet p (if c.action = .stop then p'
      else planCourse (failField c.valve p').2 (failField c.valve p').1) := by
    split
    · exact h
    · exact (h.trans (quiet_failField _ _)).trans (quiet_planCourse _ _)
  unfold commandOutcome
  split
  · dsimp only
    split
    · split
      · exact good
      · exact good.trans (quiet_offerStop _ _)
    · split
      · exact good
      · exact good.trans (quiet_opAccepted _ _)
  · dsimp only
    split
    · exact good
    · exact (good.trans (quiet_opRejected _ _)).trans (quiet_planCourse _ _)
  · split
    · exact (quiet_popCommand _ _).trans (quiet_countBusy _ _)
    · exact quiet_countBusy _ _
  all_goals
    split
    · exact (quiet_popCommand _ _).trans (quiet_countNoAnswer _ _)
    · dsimp only
      split
      · exact bad
      · exact gave _ (bad.trans (quiet_popCommand _ _))

theorem quiet_takeOutcome (n : Nat) (t : Txn) (o : Outcome) (p : Part) : Quiet p (takeOutcome n t o p) := by
  unfold takeOutcome
  split
  · split
    · exact .refl p
    · exact quiet_commandOutcome _ _ _ _ _
  · split
    · exact quiet_dataReply _ _ _
    · exact quiet_countBusy _ _
    all_goals exact quiet_countNoAnswer _ _

theorem quiet_pollsEnd (n : Nat) (p : Part) : Quiet p (pollsEnd n p) :=
  quiet_of_keeps (Laws.m_pollsEnd n p) (by simp [KeepsRecords]) (by simp)

theorem quiet_endTransaction (n : Nat) (o : Outcome) (p : Part) : Quiet p (endTransaction n o p) := by
  unfold endTransaction
  split
  · exact .refl p
  · exact ((quiet_onLine _ _ _).trans (quiet_takeOutcome _ _ _ _)).trans (quiet_pollsEnd _ _)

theorem quiet_fieldByte (n : Nat) (b : Byte) (s : Bool) (p : Part) : Quiet p (fieldByte n b s p) := by
  unfold fieldByte
  split
  · exact .refl p
  · exact quiet_onLine _ _ _
  · exact quiet_onLine _ _ _
  · exact quiet_endTransaction _ _ _

theorem quiet_enterHeld (n : Nat) (p : Part) : Quiet p (enterHeld n p) :=
  quiet_foldl _ (fun q _ => quiet_setComm _ _ _ q) _ _

theorem quiet_loseHeld (os : Nat) (x : Part × List Touched × List Nat) : Quiet x.1 (loseHeld os x).1 :=
  quiet_loseOutstation _ _ _

theorem quiet_holdLine (n : Nat) (p : Part) : Quiet p (holdLine n p) := by
  unfold holdLine
  dsimp only
  refine Quiet.trans ?_ (quiet_planCourse _ _)
  refine Quiet.trans ?_ (quiet_markSegments _ _)
  refine Quiet.trans ?_ (quiet_foldlWith _ (fun x os => quiet_loseHeld os x) _ (_, _, _))
  refine Quiet.trans ?_ (quiet_enterHeld _ _)
  exact Quiet.trans (quiet_onLine _ _ _) (quiet_failFields _ _)

theorem quiet_startLine (n : Nat) (p : Part) : Quiet p (startLine n p) :=
  quiet_of_keeps (Laws.m_startLine n p) (by simp [KeepsRecords]) (by simp)

theorem quiet_freeLine (n : Nat) (p : Part) : Quiet p (freeLine n p) := by
  unfold freeLine
  dsimp only
  refine Quiet.trans ?_ (quiet_startLine _ _)
  exact Quiet.trans (quiet_onLine _ _ _) (quiet_foldl _ (fun q os => quiet_setComm _ _ _ q) _ _)

end Sys2Proof.Proofs
end

section
/-!
No OPEN on a held valve (R110, R118, R121): every event keeps it. All operations but the orders of an OPEN and the giving
of holds only ease it; an OPEN is ordered on a valve without a holder alone, and a plan that becomes a holder takes its
valves out of the other plans' release lists.
-/

namespace Sys2Proof.Proofs

open Sys2Proof Sys2Proof.Machine

section
variable {p q : Part}

/-- What eases a part keeps the rule on holders. -/
theorem holdsKept_of_eases (e : Eases p q) (h : p.HoldsKept) : q.HoldsKept where
  noOpen v x hx held o ho open_ := by
    obtain ⟨y, hy, sub, opening⟩ := e.valves v x hx
    by_contra live
    obtain ⟨o', ho', act', live'⟩ := opening ⟨o, ho, open_, by simpa using live⟩
    have free : y.holders ≠ [] := fun none => held (List.subset_nil.mp (none ▸ sub))
    rw [h.noOpen v y hy free o' ho' act'] at live'
    exact absurd live' (by decide)
  released id x hx hr v hv valve hvalve := by
    obtain ⟨y, hy, hyr, lists⟩ := e.release id x hx hr
    obtain ⟨z, hz, sub, _⟩ := e.valves v valve hvalve
    exact List.subset_nil.mp (h.released id y hy hyr v (lists hv) z hz ▸ sub)

/-- A plan that is not RELEASING does not become so. -/
theorem notReleasing_of_eases (e : Eases p q) {id : Nat} (h : ∀ x, p.plans.get? id = some x → x.state ≠ .releasing) :
    ∀ x, q.plans.get? id = some x → x.state ≠ .releasing := fun x hx hr => by
  obtain ⟨y, hy, hyr, _⟩ := e.release id x hx hr
  exact h y hy hyr

/-! ### The requests that only ease -/

theorem calm_refreshLamps (p : Part) : Calm p (refreshLamps p) := calm_of_eq rfl rfl rfl

theorem calm_crews (i : Nat) (f : Crew → Crew) (p : Part) : Calm p (p.onCrew i f) := calm_of_eq rfl rfl rfl

theorem calm_acceptJob (crew : Nat) (j : Job) (c : IncidentCause) (p : Part) : Calm p (acceptJob crew j c p) := by
  unfold acceptJob
  split
  · split
    · exact .refl p
    · exact calm_of_eq (by simp) (by simp) (by simp)
  · split
    · next h =>
      refine calm_setOpState (.inr fun o ho => ?_)
      simp only [ho, Option.any_some, Bool.and_eq_true, decide_eq_true_eq] at h
      simp [Operation.live, h.2]
    · exact .refl p
  · exact calm_of_eq (by simp [setSupply]) (by simp [setSupply]) (by simp [setSupply])

theorem calm_returnJob (j : Job) (p : Part) : Calm p (returnJob j p).1 := by
  unfold returnJob
  split
  · split
    · exact .refl p
    · dsimp only
      split <;> exact calm_of_eq (by simp) (by simp) (by simp)
  · split
    · next h =>
      refine calm_setOpState (.inr fun o ho => ?_)
      simp only [ho, Option.any_some, decide_eq_true_eq] at h
      simp [Operation.live, h]
    · exact .refl p
  · split
    · exact calm_of_eq (by simp [setSupply]) (by simp [setSupply]) (by simp [setSupply])
    · exact .refl p

theorem calm_crewArrives (crew : Nat) (c : Crew) (p : Part) : Calm p (crewArrives crew c p) := by
  unfold crewArrives
  split
  · exact calm_crews _ _ _
  · split
    · dsimp only
      split
      · exact (calm_crews _ _ p).then fun _ => calm_of_eq (by simp) (by simp) (by simp)
      · exact calm_crews _ _ _
    · exact calm_crews _ _ _
    · exact calm_crews _ _ _

theorem calm_crewClears (crew : Nat) (c : Crew) (p : Part) : Calm p (crewClears crew c p).part := by
  have returned : Calm p (match c.job with
      | none => (p, none)
      | some j => ((returnJob j p).1, if (returnJob j p).2 then some j else none) : Part × Option Job).1 := by
    split
    · exact .refl p
    · exact calm_returnJob _ _
  exact (returned.then (calm_crews _ _)).then calm_dispatchDecide

theorem calm_addRelit (seg : Nat) (s : Segment) (n : Nat) (p : Part) : Calm p (addRelit seg s n p) := by
  unfold addRelit
  dsimp only
  split <;> exact calm_of_eq rfl rfl rfl

theorem calm_relightSegment (seg : Nat) (s : Segment) (n : Nat) (p : Part) : Calm p (relightSegment seg s n p) := by
  unfold relightSegment
  split
  · exact ((calm_addRelit seg s n p).then (calm_restoreSegment seg)).then calm_dispatchDecide
  · exact calm_addRelit seg s n p

theorem calm_purgeSegment (seg : Nat) (s : Segment) (p : Part) : Calm p (purgeSegment seg s p) := by
  unfold purgeSegment
  split
  · exact calm_of_eq (by simp) (by simp) (by simp)
  · exact (calm_restoreSegment seg p).then calm_dispatchDecide

theorem quiet_failureTests (id : Nat) (vs : List Nat) (p : Part) :
    Quiet p (vs.foldl (fun p v => failureTest id ⟨v, true⟩ p) p) := quiet_foldl _ (fun _ _ => quiet_failureTest _ _ _) _ _

theorem quiet_afterCloses (id : Nat) (vs : List Nat) (p : Part) : Quiet p (afterCloses id vs p) :=
  ((quiet_cancelPending id p).trans (quiet_failureTests id _ _)).then (quiet_isolationTest id)

theorem quiet_cancelOps (id : Nat) (q : Plan) (f : Nat → Operation → Bool) (p : Part) : Quiet p (cancelOps id q f p) :=
  quiet_foldl _ (fun _ _ => quiet_cancelOp _ _) _ _

theorem quiet_closeOrders (origin : Origin) (vs : List Nat) (p : Part) :
    Quiet p (vs.foldl (fun p v => orderOp v .toClose origin p) p) := quiet_foldl _ (fun _ _ => quiet_orderClose _ _ _) _ _

theorem quiet_seizureReported (v : Nat) (p : Part) : Quiet p (seizureReported v p) :=
  (((quiet_changeInoperable v true _ p).then (quiet_opSeizedReport v)).trans (quiet_planCourse _ _)).then
    quiet_dispatchDecide

theorem quiet_endReported (v : Nat) (e : End) (p : Part) : Quiet p (endReported v e p) :=
  ((((quiet_writePosition v e.position (some e) p).trans (quiet_snoop _ none _)).then (quiet_opEndReport v e)).then
    (quiet_planCourse _)).then quiet_dispatchDecide

theorem calm_setUp (p : Part) : Calm p (setUp p) := by
  have positions : Calm p { p with valves := p.valves.map fun _ v => { v with position := v.normal.position, lastEnd := v.normal } } :=
    calm_mapValves fun _ _ => ⟨rfl, fun h => h⟩
  exact positions.trans (calm_of_eq rfl rfl rfl)

theorem calm_enterRunning (p : Part) : Calm p (enterRunning p) := by
  rw [enterRunning_eq]
  have lines : Calm p ([0, 1, 2, 3].foldl (fun p n => startLine n p) (raise .load (setUp p))) :=
    ((calm_setUp p).then (calm_raise .load)).trans (calm_foldl _ (fun q n => (quiet_startLine n q).calm) _ _)
  exact (lines.then calm_refreshLamps).then calm_dispatchDecide

/-! ### Orders of an OPEN -/

/-- The valve with a new operation, before its command is offered (R110). -/
def orderWritten (v : Nat) (a : Action) (origin : Origin) (m : Mode) (p : Part) : Part :=
  p.onValve v fun valve => { valve with operation := some (Operation.mk a origin m .pending p.time p.time none) }

/-- An order on a valve writes the operation, and what follows is calm. -/
theorem calm_orderOp (v : Nat) (a : Action) (origin : Origin) (p : Part) :
    orderOp v a origin p = p ∨ ∃ m, Calm (orderWritten v a origin m p) (orderOp v a origin p) := by
  unfold orderOp
  split
  · exact .inl rfl
  · next valve hv =>
    refine .inr ⟨p.modeFor valve, ?_⟩
    dsimp only [orderWritten]
    split
    · next crew => rw [crew]; exact .refl _
    · split
      · exact (calm_offerCommand _ _).trans (quiet_failOp _ _ _).calm
      · exact calm_offerCommand _ _

/-- The order of an operation leaves each valve's holders. -/
theorem orderOp_holders (v : Nat) (a : Action) (origin : Origin) (p : Part) (w : Nat) :
    ((orderOp v a origin p).valves.get? w).map (·.holders) = (p.valves.get? w).map (·.holders) := by
  rcases calm_orderOp v a origin p with same | ⟨m, calm⟩
  · rw [same]
  · rw [calm.holders w]
    by_cases h : w = v
    · subst h; simp [orderWritten, Part.onValve, Laws.get?_modify_same, Function.comp_def]
    · simp [orderWritten, Part.onValve, Laws.get?_modify_other _ _ _ _ h]

theorem unheld_iff {v : Nat} : unheld p v ↔ ∀ hs, (p.valves.get? v).map (·.holders) = some hs → hs = [] := by
  simp [unheld]

/-- An OPEN ordered on a valve without a holder keeps the rule. -/
theorem holdsKept_orderOpen {v : Nat} (origin : Origin) (h : p.HoldsKept) (free : unheld p v) :
    (orderOp v .toOpen origin p).HoldsKept := by
  rcases calm_orderOp v .toOpen origin p with same | ⟨m, calm⟩
  · rw [same]; exact h
  · refine holdsKept_of_eases calm.toEases ⟨fun w x hx held o ho => ?_, fun id q hq hr w hw x hx => ?_⟩
    · by_cases hw : w = v
      · subst hw
        simp only [orderWritten, Part.onValve, Laws.get?_modify_same, Option.map_eq_some_iff] at hx
        obtain ⟨y, hy, rfl⟩ := hx
        exact absurd (free y hy) held
      · simp only [orderWritten, Part.onValve, Laws.get?_modify_other _ _ _ _ hw] at hx
        exact h.noOpen w x hx held o ho
    · by_cases hv : w = v
      · subst hv
        simp only [orderWritten, Part.onValve, Laws.get?_modify_same, Option.map_eq_some_iff] at hx
        obtain ⟨y, hy, rfl⟩ := hx
        exact free y hy
      · simp only [orderWritten, Part.onValve, Laws.get?_modify_other _ _ _ _ hv] at hx
        exact h.released id q hq hr w hw x hx

/-- OPENs ordered on valves without holders keep the rule, and leave the holders. -/
theorem holdsKept_orderOpens {vs : List Nat} (origin : Origin) (h : p.HoldsKept) (free : ∀ v ∈ vs, unheld p v) :
    (vs.foldl (fun p v => orderOp v .toOpen origin p) p).HoldsKept ∧
      ∀ v, unheld p v → unheld (vs.foldl (fun p v => orderOp v .toOpen origin p) p) v := by
  induction vs generalizing p with
  | nil => exact ⟨h, fun _ hv => hv⟩
  | cons v vs ih =>
    have kept (w : Nat) (hw : unheld p w) : unheld (orderOp v .toOpen origin p) w :=
      unheld_iff.mpr (orderOp_holders v .toOpen origin p w ▸ unheld_iff.mp hw)
    obtain ⟨rule, rest⟩ := ih (holdsKept_orderOpen origin h (free v (by simp))) fun w hw => kept w (free w (by simp [hw]))
    exact ⟨rule, fun w hw => rest w (kept w hw)⟩

/-! ### Holds given and dropped -/

/-- The valves of a list lose a holder. -/
theorem dropHolder_fold (id : Nat) (vs : List Nat) (p : Part) (w : Nat) :
    ((vs.foldl (fun p v => dropHolder id v p) p).valves.get? w).map (·.holders) =
      (p.valves.get? w).map fun x => if w ∈ vs then x.holders.filter (· != id) else x.holders := by
  induction vs generalizing p with
  | nil => simp
  | cons v vs ih =>
    rw [List.foldl_cons, ih]
    by_cases h : w = v
    · subst h
      simp only [dropHolder, Part.onValve, Laws.get?_modify_same, Option.map_map]
      congr 1
      funext x
      simp [List.filter_filter]
    · simp [dropHolder, Part.onValve, Laws.get?_modify_other _ _ _ _ h, h]

theorem eases_dropHolders (id : Nat) (q : Plan) (p : Part) : Eases p (dropHolders id q p) := by
  refine Eases.trans ?_ (calm_snoop _ _ _).toEases
  generalize q.held = vs
  induction vs generalizing p with
  | nil => exact .refl p
  | cons v vs ih =>
    have dropped : Eases p (dropHolder id v p) := eases_onValve fun x _ => ⟨List.filter_subset_self _, fun h => h⟩
    exact dropped.trans (ih _)

/-- The valves of a list gain a holder; nothing else of a valve changes, and no plan does. -/
theorem addHolder_fold (id : Nat) (vs : List Nat) (p : Part) :
    (vs.foldl (fun p v => addHolder id v p) p).plans = p.plans ∧
    ∀ w x, (vs.foldl (fun p v => addHolder id v p) p).valves.get? w = some x → ∃ y, p.valves.get? w = some y ∧
      x.operation = y.operation ∧ (w ∉ vs → x = y) := by
  induction vs generalizing p with
  | nil => exact ⟨rfl, fun w x hx => ⟨x, hx, rfl, fun _ => rfl⟩⟩
  | cons v vs ih =>
    obtain ⟨plans, valves⟩ := ih (addHolder id v p)
    refine ⟨plans, fun w x hx => ?_⟩
    obtain ⟨y, hy, op, same⟩ := valves w x hx
    by_cases h : w = v
    · subst h
      simp only [addHolder, Part.onValve, Laws.get?_modify_same, Option.map_eq_some_iff] at hy
      obtain ⟨z, hz, rfl⟩ := hy
      exact ⟨z, hz, op, fun out => absurd List.mem_cons_self out⟩
    · simp only [addHolder, Part.onValve, Laws.get?_modify_other _ _ _ _ h] at hy
      exact ⟨y, hy, op, fun out => same fun i => out (List.mem_cons_of_mem _ i)⟩

/-- A valve stands on no release list of a RELEASING plan. -/
def offLists (p : Part) (except v : Nat) : Prop :=
  ∀ id x, p.plans.get? id = some x → x.state = .releasing → id ≠ except → v ∉ x.releaseList

theorem offLists_of_eases {e v : Nat} (h : Eases p q) (off : offLists p e v) : offLists q e v := fun id x hx hr ne hv => by
  obtain ⟨y, hy, hyr, lists⟩ := h.release id x hx hr
  exact off id y hy hyr ne (lists hv)

/-- A valve leaves the release list of a plan. -/
theorem leaveReleaseOf_leaves (id v : Nat) (p : Part) :
    ∀ x, (leaveReleaseOf id v p).plans.get? id = some x → x.state = .releasing → v ∉ x.releaseList := by
  intro x hx hr hv
  unfold leaveReleaseOf at hx
  split at hx
  · next none => rw [none] at hx; cases hx
  · next q hq =>
    split at hx
    · have kept : (p.onPlan id fun q' => { q' with releaseList := q.releaseList.filter (· != v) }).plans.get? id =
          some { q with releaseList := q.releaseList.filter (· != v) } := by
        simp [Part.onPlan, Laws.get?_modify_same, hq]
      have lists : Eases (p.onPlan id fun q' => { q' with releaseList := q.releaseList.filter (· != v) })
          (if (q.releaseList.filter (· != v)).isEmpty
            then freePlan id (p.onPlan id fun q' => { q' with releaseList := q.releaseList.filter (· != v) })
            else p.onPlan id fun q' => { q' with releaseList := q.releaseList.filter (· != v) }) := by
        split
        · exact eases_freePlan id _
        · exact .refl _
      obtain ⟨y, hy, _, sub⟩ := lists.release id x hx hr
      rw [kept] at hy
      cases hy
      simpa using sub hv
    · next no =>
      rw [hq] at hx
      cases hx
      simp [hr, hv] at no

/-- A valve leaves every release list but that of one plan (R121). -/
theorem leaveReleases_leaves (v e : Nat) (p : Part) : offLists (leaveReleases v (some e) p) e v := by
  intro id x hx hr ne hv
  obtain ⟨y, hy, hyr, lists⟩ := (quiet_leaveReleases v (some e) p).calm.release id x hx hr
  have listed : id ∈ p.plans.idsWhere fun id q => q.state = .releasing && q.releaseList.contains v && some e != some id := by
    refine List.mem_map.mpr ⟨(id, y), List.mem_filter.mpr ⟨Laws.mem_of_get? _ _ _ hy, ?_⟩, rfl⟩
    simp [hyr, lists hv, Ne.symm ne]
  have leaves (ids : List Nat) (r : Part) (hid : id ∈ ids ∨ ∀ x, r.plans.get? id = some x → x.state = .releasing →
      v ∉ x.releaseList) : ∀ x, (ids.foldl (fun p id => leaveReleaseOf id v p) r).plans.get? id = some x →
      x.state = .releasing → v ∉ x.releaseList := by
    induction ids generalizing r with
    | nil => exact hid.resolve_left (by simp)
    | cons i ids ih =>
      refine ih _ ?_
      by_cases h : id = i
      · exact .inr (h ▸ leaveReleaseOf_leaves id v r)
      · rcases hid with listed | off
        · exact .inl (by simpa [h] using listed)
        · refine .inr fun x hx hr hv => ?_
          obtain ⟨y, hy, hyr, lists⟩ := (quiet_leaveReleaseOf i v r).calm.release id x hx hr
          exact off y hy hyr (lists hv)
  exact leaves _ p (.inl listed) x hx hr hv

/-! ### EXECUTE, RELEASE and the rest -/

theorem eases_leaveAll (e : Option Nat) (vs : List Nat) (p : Part) :
    Eases p (vs.foldl (fun p v => leaveReleases v e p) p) :=
  (quiet_foldl _ (fun q v => quiet_leaveReleases v e q) vs p).calm.toEases

/-- Valves leave every release list but that of one plan. -/
theorem leaveAll_leaves {v : Nat} (e : Nat) (vs : List Nat) (p : Part) (h : v ∈ vs) :
    offLists (vs.foldl (fun p v => leaveReleases v (some e) p) p) e v := by
  induction vs generalizing p with
  | nil => cases h
  | cons w vs ih =>
    rw [List.foldl_cons]
    by_cases hv : v ∈ vs
    · exact ih _ hv
    · obtain rfl : v = w := by simpa [hv] using h
      exact offLists_of_eases (eases_leaveAll _ vs _) (leaveReleases_leaves v e p)

/-- One plan changed: it is RELEASING only if it was, and its release list loses valves only. -/
theorem eases_onPlan {id : Nat} {f : Plan → Plan}
    (hf : ∀ x, (f x).state = .releasing → x.state = .releasing ∧ (f x).releaseList ⊆ x.releaseList) :
    Eases p (p.onPlan id f) where
  valves v x hx := ⟨x, hx, List.Subset.refl _, fun h => h⟩
  release k x hx hr := by
    by_cases h : k = id
    · subst h
      simp only [Part.onPlan, Laws.get?_modify_same, Option.map_eq_some_iff] at hx
      obtain ⟨y, hy, rfl⟩ := hx
      exact ⟨y, hy, hf y hr⟩
    · simp only [Part.onPlan, Laws.get?_modify_other _ _ _ _ h] at hx
      exact ⟨x, hx, hr, List.Subset.refl _⟩

/-- A plan that is not RELEASING becomes a holder of valves without an OPEN under way: the rule stands, since the valves
leave the other plans' release lists (R108, R109, R121). -/
theorem holdsKept_addHolders {id : Nat} {x : Plan} (h : p.HoldsKept) (hx : p.plans.get? id = some x)
    (ready : x.state ≠ .releasing)
    (still : ∀ v ∈ x.held, ∀ y, p.valves.get? v = some y → ¬ isOpening y) : (addHolders id x p).HoldsKept := by
  unfold addHolders
  obtain ⟨plans, valves⟩ := addHolder_fold id x.held p
  have eased := (calm_snoop x.held (some id) (x.held.foldl (fun p v => addHolder id v p) p)).toEases.trans
    (eases_leaveAll (some id) x.held _)
  refine ⟨fun v y hy held o ho open_ => ?_, fun k r hr releasing v hv y hy => ?_⟩
  · obtain ⟨z, hz, sub, opening⟩ := eased.valves v y hy
    obtain ⟨u, hu, op, same⟩ := valves v z hz
    by_contra live
    obtain ⟨o', ho', act', live'⟩ := opening ⟨o, ho, open_, by simpa using live⟩
    rw [op] at ho'
    by_cases hv : v ∈ x.held
    · exact still v hv u hu ⟨o', ho', act', live'⟩
    · have free : u.holders ≠ [] := fun none => held (List.subset_nil.mp ((same hv ▸ none) ▸ sub))
      rw [h.noOpen v u hu free o' ho' act'] at live'
      exact absurd live' (by decide)
  · obtain ⟨w, hw, wr, lists⟩ := eased.release k r hr releasing
    rw [plans] at hw
    have other : k ≠ id := by rintro rfl; rw [hx] at hw; cases hw; exact ready wr
    have out : v ∉ x.held := fun hv' => leaveAll_leaves id x.held _ hv' k r hr releasing other hv
    obtain ⟨z, hz, sub, _⟩ := eased.valves v y hy
    obtain ⟨u, hu, _, same⟩ := valves v z hz
    obtain rfl := same out
    exact List.subset_nil.mp (h.released k w hw wr v (lists hv) z hu ▸ sub)

/-- The valves of a plan that EXECUTE admits have no OPEN under way (R108, test 4). -/
theorem not_opening_of_busyValve {x : Plan} (h : p.busyValve x = none) :
    ∀ v ∈ x.held, ∀ y, p.valves.get? v = some y → ¬ isOpening y := by
  rintro v hv y hy ⟨o, ho, open_, live⟩
  have op : p.op? v = some o := by simp [Part.op?, hy, ho]
  have h : (x.closeList.find? fun v => p.opLive v) = none ∧
      (x.holdList.find? fun v => (p.op? v).any fun o => o.live && o.action = .toOpen) = none := by
    unfold Part.busyValve at h
    cases first : x.closeList.find? fun v => p.opLive v with
    | none => rw [first] at h; exact ⟨rfl, h⟩
    | some w => rw [first] at h; cases h
  simp only [List.find?_eq_none] at h
  rcases List.mem_append.mp hv with close | hold
  · simpa [Part.opLive, op, live] using h.1 v close
  · simpa [op, live, open_] using h.2 v hold

theorem holdsKept_executePlan {id : Nat} {x : Plan} (h : p.HoldsKept) (hx : p.plans.get? id = some x)
    (ready : x.state = .ready) (idle : p.busyValve x = none) : (executePlan id x p).HoldsKept := by
  have held := holdsKept_addHolders h hx (by rw [ready]; decide) (not_opening_of_busyValve idle)
  have ordered := holdsKept_of_eases (quiet_closeOrders (.plan id) x.closeList _).calm.toEases held
  have executing := holdsKept_of_eases (eases_setPlanState id .executing none _ (by decide)) ordered
  exact holdsKept_of_eases ((quiet_afterCloses id _ _).then quiet_dispatchDecide).calm.toEases executing

theorem holdsKept_reissuePlan {id : Nat} {x : Plan} (h : p.HoldsKept) (hx : p.plans.get? id = some x)
    (state : x.state = .blocked ∨ x.state = .releasing) : (reissuePlan id x p).HoldsKept := by
  unfold reissuePlan Part.reissued
  rcases state with blocked | releasing
  · simp only [blocked, if_true]
    have ordered := holdsKept_of_eases (quiet_closeOrders (.plan id) (x.closeList.filter p.closeQualifies) p).calm.toEases h
    have cleared := holdsKept_of_eases (eases_onPlan (id := id) (f := fun q => { q with blocking := none }) fun _ hr => ⟨hr, List.Subset.refl _⟩) ordered
    have executing := holdsKept_of_eases (eases_setPlanState id .executing none _ (by decide)) cleared
    exact holdsKept_of_eases ((quiet_afterCloses id _ _).then quiet_dispatchDecide).calm.toEases executing
  · simp only [releasing, reduceCtorEq, if_false]
    refine holdsKept_of_eases (calm_dispatchDecide _).toEases (holdsKept_orderOpens (.plan id) h fun v hv y hy => ?_).1
    exact h.released id x hx releasing v (List.mem_filter.mp hv).1 y hy

theorem holdsKept_abortPlan {id : Nat} {x : Plan} (h : p.HoldsKept) : (abortPlan id x p).HoldsKept :=
  holdsKept_of_eases ((((quiet_cancelOps id x _ p).calm.toEases.trans (eases_dropHolders id x _)).trans
    (eases_freePlan id _)).trans (calm_dispatchDecide _).toEases) h

/-- The valves that a RELEASE reopens have no holder once the plan's holds are dropped (R120). -/
theorem unheld_reopened {id : Nat} {x : Plan} {f : Nat → Operation → Bool} :
    ∀ v ∈ p.reopened id x, unheld (dropHolders id x (cancelOps id x f p)) v := by
  intro v hv
  obtain ⟨close, alone⟩ := List.mem_filter.mp hv
  have listed : v ∈ x.held := List.mem_append_left _ close
  refine unheld_iff.mpr fun hs hhs => ?_
  unfold dropHolders at hhs
  rw [(calm_snoop _ _ _).holders v, dropHolder_fold] at hhs
  simp only [listed, if_true] at hhs
  have before := (quiet_cancelOps id x f p).calm.holders v
  obtain ⟨y, hy, rfl⟩ := Option.map_eq_some_iff.mp hhs
  rw [hy] at before
  obtain ⟨z, hz, same⟩ := Option.map_eq_some_iff.mp before.symm
  simp only [hz, Option.any_some, Bool.and_eq_true, decide_eq_true_eq] at alone
  simp [← same, alone.1.1]

/-- A plan goes RELEASING with a list of valves without holders. -/
theorem holdsKept_enterReleasing {id : Nat} (h : p.HoldsKept)
    (free : ∀ x, p.plans.get? id = some x → ∀ v ∈ x.releaseList, unheld p v) :
    (setPlanState id .releasing none p).HoldsKept := by
  unfold setPlanState
  split
  · exact h
  · next x hx =>
    refine ⟨h.noOpen, fun k y hy hr v hv => ?_⟩
    by_cases hk : k = id
    · subst hk
      simp only [Laws.place_plans, Laws.get?_set_same, Option.some.injEq] at hy
      subst hy
      exact free x hx v hv
    · simp only [Laws.place_plans, Laws.get?_set_other _ _ _ _ hk] at hy
      exact h.released k y hy hr v hv

/-- A plan's release list is set to valves without holders. -/
theorem holdsKept_setReleaseList {id : Nat} {vs : List Nat} (h : p.HoldsKept) (free : ∀ v ∈ vs, unheld p v) :
    (p.onPlan id fun q => { q with releaseList := vs }).HoldsKept := by
  refine ⟨h.noOpen, fun k y hy hr v hv => ?_⟩
  by_cases hk : k = id
  · subst hk
    simp only [Part.onPlan, Laws.get?_modify_same, Option.map_eq_some_iff] at hy
    obtain ⟨x, _, rfl⟩ := hy
    exact free v hv
  · simp only [Part.onPlan, Laws.get?_modify_other _ _ _ _ hk] at hy
    exact h.released k y hy hr v hv

theorem holdsKept_releasePlan {id : Nat} {x : Plan} (h : p.HoldsKept) : (releasePlan id x p).HoldsKept := by
  unfold releasePlan
  dsimp only
  have free := unheld_reopened (p := p) (id := id) (x := x)
    (f := fun v o => o.endsAtRelease ((p.reopened id x).contains v))
  have dropped := holdsKept_of_eases ((quiet_cancelOps id x (fun v o => o.endsAtRelease ((p.reopened id x).contains v)) p
    ).calm.toEases.trans (eases_dropHolders id x _)) h
  generalize dropHolders id x (cancelOps id x (fun v o => o.endsAtRelease ((p.reopened id x).contains v)) p) = r
    at free dropped
  generalize p.reopened id x = vs at *
  have listed := holdsKept_setReleaseList (id := id) dropped free
  obtain ⟨ordered, unheld_kept⟩ := holdsKept_orderOpens (.plan id) listed free
  have plans : (vs.foldl (fun p v => orderOp v .toOpen (.plan id) p)
      (r.onPlan id fun q => { q with releaseList := vs })).plans = (r.onPlan id fun q => { q with releaseList := vs }).plans :=
    Laws.foldl_keeps (·.plans) _ (fun q v => by simp) vs _
  have releasing := holdsKept_enterReleasing (id := id) ordered fun y hy v hv => by
    rw [plans] at hy
    simp only [Part.onPlan, Laws.get?_modify_same, Option.map_eq_some_iff] at hy
    obtain ⟨z, _, rfl⟩ := hy
    exact unheld_kept v (free v hv)
  refine holdsKept_of_eases (calm_dispatchDecide _).toEases ?_
  split
  · exact holdsKept_of_eases (eases_freePlan id _) releasing
  · exact releasing

theorem holdsKept_operateValve {v : Nat} {x : Valve} {a : Action} (h : p.HoldsKept) (hx : p.valves.get? v = some x)
    (free : a = .toOpen → x.holders = []) : (operateValve v a p).HoldsKept := by
  have ordered : (orderOp v a .host p).HoldsKept := by
    cases a with
    | toOpen => exact holdsKept_orderOpen .host h fun y hy => by rw [hx] at hy; cases hy; exact free rfl
    | toClose => exact holdsKept_of_eases (quiet_orderClose v .host p).calm.toEases h
  exact holdsKept_of_eases ((quiet_leaveReleases v none _).then quiet_dispatchDecide).calm.toEases ordered

/-- A new plan (R101). -/
def planRequested (target : Nat) (incident : Option Nat) (now : Nat) : Plan :=
  { state := .requested, target := target, incident := incident, requested := now, stateTime := now }

/-- A plan that is put at a free entry is not RELEASING. -/
theorem eases_requestPlan (id target : Nat) (incident : Option Nat) (p : Part) :
    Eases p (requestPlan id target incident p) := by
  unfold requestPlan
  dsimp only
  refine Eases.trans ?_ (calm_place _ _).toEases
  have new : Eases p { p with
      plans := p.plans.set id (planRequested target incident p.time)
      trace := { p.trace with planQueue := p.trace.planQueue ++ [id] } } :=
    (eases_setPlan (id := id) (y := planRequested target incident p.time) fun h => by cases h).trans
      (eases_of_eq rfl rfl)
  split
  · exact new
  · exact new.trans (calm_putIncident _ _ _).toEases

/-- A defined valve has no holder and no operation. -/
theorem holdsKept_defineValve {id : Nat} {x : Valve} (h : p.HoldsKept) (held : x.holders = []) :
    Part.HoldsKept { p with valves := p.valves.set id x } := by
  refine ⟨fun v y hy hne o ho open_ => ?_, fun k q hq hr v hv y hy => ?_⟩
  · by_cases hv : v = id
    · subst hv
      simp only [Laws.get?_set_same, Option.some.injEq] at hy
      subst hy
      exact absurd held hne
    · simp only [Laws.get?_set_other _ _ _ _ hv] at hy
      exact h.noOpen v y hy hne o ho open_
  · by_cases hv' : v = id
    · subst hv'
      simp only [Laws.get?_set_same, Option.some.injEq] at hy
      subst hy
      exact held
    · simp only [Laws.get?_set_other _ _ _ _ hv'] at hy
      exact h.released k q hq hr v hv y hy

/-! ### Every event -/

theorem quiet_chooseTransaction (n : Nat) (p : Part) : Quiet p (chooseTransaction n p) :=
  quiet_of_keeps (Laws.m_chooseTransaction n p) (by simp [KeepsRecords]) (by simp)

theorem quiet_periodEnds (n : Nat) (p : Part) : Quiet p (periodEnds n p) := by
  unfold periodEnds
  split
  · have cycle : Quiet p (startCycle n (((p.line n).cycle + 1) % 8) p) :=
      quiet_of_keeps (Laws.m_startCycle n _ p (Nat.mod_lt _ (by decide))) (by simp [KeepsRecords]) (by simp)
    dsimp only
    split
    · exact cycle.trans (quiet_of_keeps (Laws.m_takeTurn n _) (by simp [KeepsRecords]) (by simp))
    · exact cycle
  · exact .refl p

theorem quiet_travelEnds (v : Nat) (p : Part) : Quiet p (travelEnds v p) := by
  unfold travelEnds
  split
  · exact .refl p
  · split
    · exact (((quiet_failOp v .travel p).then (quiet_offerStop v)).then (quiet_planCourse _)).then quiet_dispatchDecide
    · exact .refl p

theorem quiet_escalationDue (id : Nat) (p : Part) : Quiet p (escalationDue id p) := by
  unfold escalationDue
  split
  · exact .refl p
  · split
    · exact .refl p
    · split
      · exact ⟨calm_of_eq (by simp) (by simp) (by simp), mild_escalateAt _ _ _⟩
      · exact .refl p

theorem quiet_withdrawOffer (id : Nat) (j : Job) (c : WithdrawCause) (p : Part) : Quiet p (withdrawOffer id j c p) :=
  Quiet.then (Quiet.then ⟨calm_crews _ _ p, mild_onCrew (fun _ => rfl) (by simp [atWork]) p id⟩ (quiet_place _))
    quiet_dispatchDecide

theorem quiet_offerEnds (id : Nat) (p : Part) : Quiet p (offerEnds id p) := by
  unfold offerEnds
  split
  · exact .refl p
  · split
    · exact .refl p
    · split
      · exact quiet_withdrawOffer _ _ _ _
      · exact .refl p

theorem quiet_onPanel {f : Panel → Panel} (conditions : (f p.panel).conditions = p.panel.conditions)
    (horn : (f p.panel).horn = p.panel.horn) (forces : p.panel.forces.wf 36 = true → (f p.panel).forces.wf 36 = true) :
    Quiet p (p.onPanel f) := ⟨calm_of_eq rfl rfl rfl, mild_onPanel conditions horn forces⟩

/-- The horn may have been silenced, and nothing changed but the panel's horn and PACK input (R178). -/
def Silenced (p q : Part) : Prop := ∃ horn pack, q = p.onPanel fun a => { a with horn := horn, pack := pack }

theorem silenced_packAcknowledged (p : Part) : Silenced p (packAcknowledged p) := by
  unfold packAcknowledged
  split
  · exact ⟨false, .spent, rfl⟩
  · exact ⟨p.panel.horn, p.panel.pack, rfl⟩

/-- The events that look at no plan, but to move it inside its phase. -/
theorem quiet_of_timed (h : Timed p q) :
    Quiet p q ∨ Silenced p q ∨ q = jobStarts p ∨ q = traceEnds p ∨ q = planJobEnds p := by
  cases h with
  | jobStarts => exact .inr (.inr (.inl rfl))
  | traceEnds => exact .inr (.inr (.inr (.inl rfl)))
  | planJobEnds => exact .inr (.inr (.inr (.inr rfl)))
  | same => exact .inl (.refl p)
  | quietEnds n _ =>
    refine .inl (Quiet.then ?_ quiet_dispatchDecide)
    unfold quietEnds
    split
    · exact quiet_chooseTransaction n p
    · exact .refl p
  | frameLeaves n _ =>
    refine .inl (Quiet.then ?_ quiet_dispatchDecide)
    unfold frameLeaves
    split
    · exact quiet_onLine _ _ p
    all_goals exact .refl p
  | windowEnds n _ =>
    refine .inl (Quiet.then ?_ quiet_dispatchDecide)
    unfold windowEnds
    split
    · split
      · exact quiet_endTransaction _ _ _
      · exact .refl p
    all_goals exact .refl p
  | gapEnds n _ =>
    refine .inl (Quiet.then ?_ quiet_dispatchDecide)
    unfold gapEnds
    split
    · split
      · exact quiet_endTransaction _ _ _
      · exact .refl p
    all_goals exact .refl p
  | fieldByte n b stopLow _ => exact .inl ((quiet_fieldByte n b stopLow p).then quiet_dispatchDecide)
  | arbiter => exact .inl (quiet_dispatchDecide p)
  | periodEnds n _ => exact .inl ((quiet_periodEnds n p).then quiet_dispatchDecide)
  | rideThroughEnds id => exact .inl ((quiet_rideThroughEnds id p).then quiet_dispatchDecide)
  | travelEnds v => exact .inl (quiet_travelEnds v p)
  | escalationDue id => exact .inl (quiet_escalationDue id p)
  | offerEnds id => exact .inl (quiet_offerEnds id p)
  | packAcknowledged => exact .inr (.inl (silenced_packAcknowledged p))
  | packFalls =>
    refine .inl ?_
    unfold packFalls
    split
    · exact quiet_onPanel rfl rfl id
    · exact .refl p
  | packRises =>
    refine .inr (.inl ?_)
    unfold packRises
    split
    · obtain ⟨horn, _, eq⟩ := silenced_packAcknowledged p
      rw [eq]
      exact ⟨horn, .high, rfl⟩
    · exact ⟨p.panel.horn, p.panel.pack, rfl⟩
  | testEnds =>
    refine .inl ?_
    unfold testEnds
    split
    · exact quiet_onPanel rfl rfl id
    · exact .refl p
  | keepaliveEnds =>
    refine .inl ?_
    unfold keepaliveEnds
    split
    · exact quiet_onPanel (f := fun a => { a with
        forces := ⟨[]⟩, testEnd := none
        supervision := { a.supervision with unattended := true, expiry := none, returnCount := 0, since := p.time } })
        rfl rfl fun _ => rfl
    · exact .refl p

theorem eases_jobStarts (p : Part) : Eases p (jobStarts p) := by
  unfold jobStarts startJob
  split
  · exact .refl p
  · split
    · exact eases_of_eq rfl rfl
    · split
      · exact .refl p
      · next id rest _ =>
        have started : Eases p { p with trace := { p.trace with
            planQueue := rest, engine := .planJob id, view := some (p.takeView true), changeSet := [] } } :=
          eases_of_eq rfl rfl
        exact started.trans (eases_setPlanState _ _ _ _ (by decide))

theorem settledState_not_releasing (r : PlanResult) (vs : List Nat) : settledState r vs ≠ .releasing := by
  unfold settledState
  split
  · decide
  · split <;> decide

theorem eases_planJobEnds (p : Part) : Eases p (planJobEnds p) := by
  unfold planJobEnds
  split
  · next id w _ _ =>
    have idle : Eases p { p with trace := { p.trace with engine := .idle, view := none, changeSet := [] } } :=
      eases_of_eq rfl rfl
    refine Eases.trans (idle.trans (eases_onPlan (id := id) (f := fun q => q.withResult
      (computePlan p w (((p.plans.get? id).map (·.target)).getD 0))) fun _ hr => ⟨hr, List.Subset.refl _⟩)) ?_
    exact eases_setPlanState _ _ _ _ (settledState_not_releasing _ _)
  · exact .refl p

theorem calm_loseMembers (lost : List (Nat × Segment)) (p : Part) : Calm p (loseMembers lost p) := by
  refine calm_foldl _ (fun r e => ?_) _ _
  split
  · exact calm_loseMember _ _ _
  · exact .refl _

theorem calm_endRelights (lost : List (Nat × Segment)) (p : Part) : Calm p (endRelights lost p) :=
  calm_foldl _ (fun _ _ => calm_endJob _ _) _ _

/-- Up to the idle engine, a completed trace looks at no plan. -/
theorem calm_joinTraced (c : Cause) (w : View) (p : Part) : Calm p (joinOutage (joinersOf (lostInTrace w p)) c
    (loseMembers (lostInTrace w p) (markSegments (changedByTrace w p) (writeTrace w p)))) := by
  have written : Calm p (writeTrace w p) := calm_of_eq rfl rfl rfl
  exact ((written.then (calm_markSegments _)).then (calm_loseMembers _)).then (calm_joinOutage _ c)

theorem eases_traceEnds (p : Part) : Eases p (traceEnds p) := by
  unfold traceEnds
  split
  · next c w _ _ =>
    rw [completeTrace_eq]
    have idle : Eases p (idleEngine _) := (calm_joinTraced c w p).toEases.trans (eases_of_eq rfl rfl)
    exact idle.trans ((calm_endRelights _ _).then calm_dispatchDecide).toEases
  · exact .refl p

theorem holdsKept_of_timed (t : Timed p q) (h : p.HoldsKept) : q.HoldsKept := by
  rcases quiet_of_timed t with quiet | ⟨_, _, rfl⟩ | rfl | rfl | rfl
  · exact holdsKept_of_eases quiet.calm.toEases h
  · exact ⟨h.noOpen, h.released⟩
  · exact holdsKept_of_eases (eases_jobStarts p) h
  · exact holdsKept_of_eases (eases_traceEnds p) h
  · exact holdsKept_of_eases (eases_planJobEnds p) h

theorem calm_bringAllForward (p : Part) : Calm p (bringAllForward p) := by
  unfold bringAllForward
  split
  · exact (calm_foldl _ (fun _ _ => calm_of_eq (by simp) (by simp) (by simp)) _ p).then calm_dispatchDecide
  · exact .refl p

theorem calm_ackOne (x : Part × Nat) (id : Nat) : Calm x.1 (ackOne x id).1 := by
  unfold ackOne
  dsimp only
  split
  · exact .refl _
  · split
    · exact calm_of_eq rfl rfl rfl
    · exact .refl _

theorem calm_fillSlot (slot : Option Nat) (id : Nat) (c : TakenCall) (p : Part) : Calm p (fillSlot slot id c p) := by
  unfold fillSlot
  split <;> exact calm_of_eq rfl rfl rfl

theorem calm_raiseIf (b : Bool) (id : Nat) (g : Grade) (c : UpgradeCause) (pt : Option Nat) (p : Part) :
    Calm p (if b then raiseGrade id g c pt p else p) := by
  split
  · exact calm_of_eq (by simp) (by simp) (by simp)
  · exact .refl p

theorem calm_mergeCall (id : Nat) (i : Incident) (c : TakenCall) (p : Part) : Calm p (mergeCall id i c p).part := by
  unfold mergeCall callReply
  dsimp only
  refine Calm.then ?_ calm_dispatchDecide
  exact (((calm_fillSlot _ id c p).then (calm_putIncident id _)).then (calm_place _)).trans (calm_raiseIf _ _ _ _ _ _)

theorem calm_confirmAtOpening (id : Nat) (p : Part) : Calm p (confirmAtOpening id p) := by
  unfold confirmAtOpening
  split
  · exact .refl p
  · split
    · split
      · exact calm_of_eq (by simp) (by simp) (by simp)
      · exact .refl p
    · exact .refl p

theorem calm_onDistrict (d : Nat) (f : District → District) (p : Part) : Calm p (p.onDistrict d f) :=
  calm_of_eq rfl rfl rfl

theorem calm_openIncident (id : Nat) (c : TakenCall) (p : Part) : Calm p (openIncident id c p).part :=
  (((((calm_fillSlot (p.slotFor 0) id c p).then (calm_putIncident id _)).then (calm_onDistrict _ _)).then
    (calm_place _)).then (calm_confirmAtOpening id)).then calm_dispatchDecide

/-- Every plan changed, each in its phase with its lists as they are. -/
theorem calm_mapPlans {f : Nat → Plan → Plan}
    (hf : ∀ i x, planCore (f i x) = planCore x ∧ (f i x).releaseList = x.releaseList ∧
      ((f i x).state = .releasing → x.state = .releasing)) :
    Calm p { p with plans := p.plans.map f } where
  valves v x hx := ⟨x, hx, List.Subset.refl _, fun h => h⟩
  release i x hx hr := by
    simp only [Laws.get?_map, Option.map_eq_some_iff] at hx
    obtain ⟨y, hy, rfl⟩ := hx
    exact ⟨y, hy, (hf i y).2.2 hr, by rw [(hf i y).2.1]; exact List.Subset.refl _⟩
  holders _ := rfl
  wf h := Laws.wf_map _ _ _ h
  plans _ i := by
    left
    simp only [Laws.get?_map]
    cases p.plans.get? i with
    | none => rfl
    | some x => simp [(hf i x).1]
  queue := rfl
  engine := rfl

theorem calm_closeIncident (id : Nat) (i : Incident) (p : Part) : Calm p (closeIncident id i p) := by
  unfold closeIncident
  dsimp only
  refine Calm.then (Calm.then (Calm.trans ?_ (calm_mapPlans fun k x => ?_)) (calm_putIncident id _)) (calm_onDistrict _ _)
  · exact calm_of_eq (by simp) (by simp) (by simp)
  · split <;> exact ⟨rfl, rfl, fun h => h⟩

theorem calm_endOtherOffer (crew : Nat) (j : Job) (p : Part) : Calm p (endOtherOffer crew j p) := by
  unfold endOtherOffer
  split
  · exact .refl p
  · split <;> exact calm_of_eq rfl rfl rfl

theorem calm_assignCrew (crew : Nat) (j : Job) (p : Part) : Calm p (assignCrew crew j p) :=
  (((calm_endOtherOffer crew j p).then (calm_crews crew _)).then (calm_acceptJob crew j .host)).then calm_dispatchDecide

theorem calm_onSupervision (f : Supervision → Supervision) (p : Part) : Calm p (p.onSupervision f) :=
  calm_of_eq rfl rfl rfl

theorem calm_acceptToken (token : Byte) (p : Part) : Calm p (acceptToken token p) := by
  unfold acceptToken resumeAttended
  refine (calm_onSupervision (fun v => { v with lastToken := some token }) p).trans ?_
  generalize p.onSupervision (fun v => { v with lastToken := some token }) = q
  dsimp only
  split
  · exact calm_onSupervision _ q
  · split
    · exact calm_onSupervision _ q
    · exact ((calm_onSupervision _ q).then (calm_place _)).then calm_dispatchDecide

/-- The requests over plans, and those that order an operation or define a valve: all others are calm. -/
inductive PlanActs (p : Part) : Part → Prop
  | defineValve (id : Nat) (x : Valve) : p.link.partState = .loading → x.holders = [] → x.operation = none →
      PlanActs p { p with valves := p.valves.set id x }
  | requestPlan (id target : Nat) (incident : Option Nat) : p.plans.firstFree 16 = some id →
      PlanActs p (requestPlan id target incident p)
  | dropPlan (id : Nat) (x : Plan) : p.plans.get? id = some x →
      (x.state = .ready ∨ x.state = .stale ∨ x.state = .failed) → PlanActs p (freePlan id p)
  | executePlan (id : Nat) (x : Plan) : p.plans.get? id = some x → x.state = .ready → p.busyValve x = none →
      PlanActs p (executePlan id x p)
  | reissuePlan (id : Nat) (x : Plan) : p.plans.get? id = some x → (x.state = .blocked ∨ x.state = .releasing) →
      PlanActs p (reissuePlan id x p)
  | abortPlan (id : Nat) (x : Plan) : p.plans.get? id = some x →
      (x.state = .executing ∨ x.state = .blocked ∨ x.state = .isolated) → PlanActs p (abortPlan id x p)
  | releasePlan (id : Nat) (x : Plan) : p.plans.get? id = some x → x.state = .isolated →
      PlanActs p (releasePlan id x p)
  | operateValve (v : Nat) (x : Valve) (a : Action) : p.valves.get? v = some x → (a = .toOpen → x.holders = []) →
      PlanActs p (operateValve v a p)

theorem calm_of_acts (h : Acts p q) : Calm p q ∨ PlanActs p q := by
  cases h with
  | defineValve id a b act os slot n l loading => exact .inr (.defineValve id _ loading rfl rfl)
  | requestPlan id t i _ free _ => exact .inr (.requestPlan id t i free)
  | dropPlan id x _ hx state => exact .inr (.dropPlan id x hx state)
  | executePlan id x _ hx ready busy _ => exact .inr (.executePlan id x hx ready busy)
  | reissuePlan id x _ hx state => exact .inr (.reissuePlan id x hx state)
  | abortPlan id x _ hx state => exact .inr (.abortPlan id x hx state)
  | releasePlan id x _ hx state => exact .inr (.releasePlan id x hx state)
  | operateValve v x a _ hx free _ => exact .inr (.operateValve v x a hx free)
  | readChanges | setNotices | beginLoad | setLine | defineOutstation | definePoint | defineDistrict | defineSegment
    | defineFeed | defineCrew | setBands | editSegment | dismiss | lampForce | lampTest | silence => exact .inl (calm_of_eq rfl rfl rfl)
  | endLoad _ _ => exact .inl (calm_enterRunning p)
  | setResponse a b c i _ => exact .inl ((calm_of_eq rfl rfl rfl : Calm p { p with register :=
      { p.register with responseA := a, responseB := b, responseC := c, interval := i } }).then calm_bringAllForward)
  | setDispatch r t _ => exact .inl (calm_of_eq (by simp) (by simp) (by simp))
  | holdLine n _ _ _ => exact .inl ((quiet_holdLine n p).then quiet_dispatchDecide).calm
  | freeLine n _ _ _ => exact .inl (quiet_freeLine n p).calm
  | ackPoint ids _ => exact .inl ((calm_foldlWith _ calm_ackOne ids (p, 0)).then calm_refreshLamps)
  | editValve v b _ => exact .inl (quiet_changeInoperable v b .edit p).calm
  | editFeed id f b _ _ => exact .inl ((calm_of_eq rfl rfl rfl : Calm p { p with feeds := p.feeds.set id _ }).trans (quiet_writeLiveness id _).calm)
  | seizureReported v _ => exact .inl (quiet_seizureReported v p).calm
  | endReported v e _ => exact .inl (quiet_endReported v e p).calm
  | noGasCall s _ => exact .inl (calm_noGasCall s p)
  | mergeCall id i c _ _ _ => exact .inl (calm_mergeCall id i c p)
  | openIncident id c _ _ _ _ => exact .inl (calm_openIncident id c p)
  | makeSafe id i _ _ _ => exact .inl ((calm_makeSafe id .host p).then calm_dispatchDecide)
  | repair id i _ _ _ => exact .inl (calm_of_eq (by simp) (by simp) (by simp))
  | closeIncident id i _ _ _ => exact .inl ((calm_closeIncident id i p).then calm_dispatchDecide)
  | crewState id c st _ _ _ _ => exact .inl ((calm_crews id _ p).then calm_dispatchDecide)
  | acceptOffer id c j _ _ _ _ => exact .inl (((calm_crews id _ p).then (calm_acceptJob id j .crew)).then calm_dispatchDecide)
  | declineOffer id c j _ _ _ _ => exact .inl (quiet_withdrawOffer id j .declined p).calm
  | assignCrew id c j _ _ _ _ => exact .inl (calm_assignCrew id j p)
  | crewArrives id c _ _ _ => exact .inl (calm_crewArrives id c p)
  | crewClears id c _ _ _ => exact .inl (calm_crewClears id c p)
  | purgeSegment id s _ _ _ => exact .inl (calm_purgeSegment id s p)
  | relightSegment id s n _ _ _ => exact .inl (calm_relightSegment id s n p)
  | clearSuspect id s _ _ =>
    refine .inl ?_
    split
    · exact (calm_of_eq rfl rfl rfl : Calm p (p.onSegment id fun s => { s with noGas := [] })).then (calm_setSuspect id false)
    · exact calm_of_eq rfl rfl rfl
  | setSupervision period _ => exact .inl (calm_onSupervision _ p)
  | keepalive token _ => exact .inl (calm_acceptToken token p)

theorem holdsKept_of_planActs (a : PlanActs p q) (h : p.HoldsKept) : q.HoldsKept := by
  cases a with
  | defineValve id x _ held _ => exact holdsKept_defineValve h held
  | requestPlan id t i _ => exact holdsKept_of_eases (eases_requestPlan id t i p) h
  | dropPlan id x _ _ => exact holdsKept_of_eases (eases_freePlan id p) h
  | executePlan id x hx ready busy => exact holdsKept_executePlan h hx ready busy
  | reissuePlan id x hx state => exact holdsKept_reissuePlan h hx state
  | abortPlan id x _ _ => exact holdsKept_abortPlan h
  | releasePlan id x _ _ => exact holdsKept_releasePlan h
  | operateValve v x a hx free => exact holdsKept_operateValve h hx free

theorem holdsKept_withLink (l : Link) (h : p.HoldsKept) : ({ p with link := l } : Part).HoldsKept := ⟨h.noOpen, h.released⟩

end

/-- Settles O5: no event puts an OPEN under way on a held valve, or a holder on a valve that is still to be reopened. -/
theorem everyStepKeepsHeldValvesShut : Obligations.EveryStepKeepsHeldValvesShut := by
  intro s t h hs
  refine step_keeps (I := Part.HoldsKept) (fun p l _ h => holdsKept_withLink _ h) (fun p q h act => ?_)
    (fun p q h time => holdsKept_of_timed time h) (fun c r e l => ?_) (fun p n h => ⟨h.noOpen, h.released⟩) h hs
  · rcases calm_of_acts act with calm | plan
    · exact holdsKept_of_eases calm.toEases h
    · exact holdsKept_of_planActs plan h
  · exact ⟨by rintro v x ⟨⟩, by rintro id x ⟨⟩⟩

end Sys2Proof.Proofs
end

section
/-!
The actions of requests by what they do to the records: mild, or one of those that change the records themselves.
-/

namespace Sys2Proof.Proofs

open Sys2Proof Sys2Proof.Machine

section
variable {p q : Part}

/-! ## Plans and operations -/

theorem mild_orderOp (v : Nat) (a : Action) (origin : Origin) (p : Part) : Mild p (orderOp v a origin p) := by
  unfold orderOp
  split
  · exact .refl p
  · have written (f : Valve → Valve) : Mild p (p.onValve v f) :=
      mild_of_keeps ⟨rfl, rfl, rfl, rfl, rfl, rfl, rfl⟩ (Laws.m_onValve (.refl p) v f)
    dsimp only
    split
    · exact written _
    · split
      · exact ((written _).trans (quiet_offerCommand _ _).mild).trans (quiet_failOp _ _ _).mild
      · exact (written _).trans (quiet_offerCommand _ _).mild

theorem mild_orders (a : Action) (origin : Origin) (vs : List Nat) (p : Part) :
    Mild p (vs.foldl (fun p v => orderOp v a origin p) p) := mild_foldl _ (fun q v => mild_orderOp v a origin q) _ _

theorem mild_setPlanState (id : Nat) (new : PlanState) (valve : Option Nat) (p : Part) : Mild p (setPlanState id new valve p) :=
  mild_of_keeps (by simp [KeepsRecords]) (Laws.m_setPlanState id new valve p)

theorem mild_onPlan (id : Nat) (f : Plan → Plan) (p : Part) : Mild p (p.onPlan id f) :=
  mild_of_keeps ⟨rfl, rfl, rfl, rfl, rfl, rfl, rfl⟩ (Laws.m_onPlan (.refl p) id f)

theorem mild_holders (f : Nat → Valve → Valve) (vs : List Nat) (p : Part) :
    Mild p (vs.foldl (fun p v => p.onValve v (f v)) p) :=
  mild_foldl _ (fun q v => mild_of_keeps (q := q.onValve v (f v)) ⟨rfl, rfl, rfl, rfl, rfl, rfl, rfl⟩
    (Laws.m_onValve (.refl q) v _)) _ _

theorem mild_addHolders (id : Nat) (x : Plan) (p : Part) : Mild p (addHolders id x p) := by
  unfold addHolders
  refine Mild.trans ?_ (quiet_foldl _ (fun q v => quiet_leaveReleases v (some id) q) _ _).mild
  refine Mild.trans ?_ (quiet_snoop _ _ _).mild
  exact mild_holders _ x.held p

theorem mild_dropHolders (id : Nat) (x : Plan) (p : Part) : Mild p (dropHolders id x p) :=
  (mild_holders (fun _ valve => { valve with holders := valve.holders.filter (· != id) }) x.held p).trans
    (quiet_snoop _ _ _).mild

theorem mild_executePlan (id : Nat) (x : Plan) (p : Part) : Mild p (executePlan id x p) :=
  (((((mild_addHolders id x p).trans (mild_orders _ _ _ _)).then (mild_setPlanState id .executing none)).trans
    (quiet_afterCloses _ _ _).mild)).then mild_dispatchDecide

theorem mild_reissuePlan (id : Nat) (x : Plan) (p : Part) : Mild p (reissuePlan id x p) := by
  unfold reissuePlan
  have ordered := mild_orders (p.reissued x).1 (.plan id) (p.reissued x).2 p
  dsimp only
  split
  · exact (((ordered.then (mild_onPlan id _)).then (mild_setPlanState id .executing none)).trans
      (quiet_afterCloses _ _ _).mild).then mild_dispatchDecide
  · exact ordered.then mild_dispatchDecide

theorem mild_abortPlan (id : Nat) (x : Plan) (p : Part) : Mild p (abortPlan id x p) :=
  (((quiet_cancelOps id x _ p).mild.then (mild_dropHolders id x)).then (mild_freePlan id)).then mild_dispatchDecide

theorem mild_releasePlan (id : Nat) (x : Plan) (p : Part) : Mild p (releasePlan id x p) := by
  unfold releasePlan
  have ordered := ((((quiet_cancelOps id x (fun v o => o.endsAtRelease ((p.reopened id x).contains v)) p).mild.then
    (mild_dropHolders id x)).then (mild_onPlan id fun q => { q with releaseList := p.reopened id x })).trans
    (mild_orders .toOpen (.plan id) (p.reopened id x) _)).then (mild_setPlanState id .releasing none)
  dsimp only
  refine Mild.then ?_ mild_dispatchDecide
  split
  · exact ordered.then (mild_freePlan id)
  · exact ordered

theorem mild_operateValve (v : Nat) (a : Action) (p : Part) : Mild p (operateValve v a p) :=
  ((mild_orderOp v a .host p).trans (quiet_leaveReleases v none _).mild).then mild_dispatchDecide

theorem mild_requestPlan {id : Nat} (target : Nat) (incident : Option Nat) (free : p.plans.firstFree 16 = some id) :
    Mild p (requestPlan id target incident p) := by
  have low := (Laws.firstFree_spec _ _ _ free).1
  unfold requestPlan
  refine Mild.then ?_ (mild_place _)
  have requested (plan : Plan) (t : Trace) : Mild p { p with plans := p.plans.set id plan, trace := t } :=
    mild_of_keeps ⟨rfl, rfl, rfl, rfl, rfl, rfl, rfl⟩
      (Laws.m_trace (Laws.m_plans (.refl p) _ (fun w => Laws.wf_set _ _ _ _ w low)) t)
  dsimp only
  split
  · exact requested _ _
  · next i inc found =>
    refine (requested _ _).trans (mild_putIncident (i := inc) ?_ rfl (fun h => h))
    obtain ⟨_, _, hk⟩ := Option.bind_eq_some_iff.mp found
    obtain ⟨_, hx, eq⟩ := Option.map_eq_some_iff.mp hk
    cases eq
    exact hx

theorem mild_jobStarts (p : Part) : Mild p (jobStarts p) := by
  have trace (t : Trace) : Mild p { p with trace := t } :=
    mild_of_keeps ⟨rfl, rfl, rfl, rfl, rfl, rfl, rfl⟩ (Laws.m_trace (.refl p) t)
  unfold jobStarts startJob
  split
  · exact .refl p
  · split
    · exact trace _
    · split
      · exact .refl p
      · exact (trace _).then (mild_setPlanState _ _ _)

theorem mild_planJobEnds (p : Part) : Mild p (planJobEnds p) := by
  have trace (t : Trace) : Mild p { p with trace := t } :=
    mild_of_keeps ⟨rfl, rfl, rfl, rfl, rfl, rfl, rfl⟩ (Laws.m_trace (.refl p) t)
  unfold planJobEnds
  split
  · exact ((trace _).then (mild_onPlan _ _)).then (mild_setPlanState _ _ _)
  · exact .refl p

/-! ## Settings, points and crews -/

theorem mild_setResponse (a b c interval : Nat) (p : Part) : Mild p (bringAllForward { p with
    register := { p.register with responseA := a, responseB := b, responseC := c, interval := interval } }) := by
  have set : Mild p { p with
      register := { p.register with responseA := a, responseB := b, responseC := c, interval := interval } } :=
    { tables := (Laws.m_register (.refl p) _ id id).tables
      state := rfl, districts := rfl, calls := rfl, outages := rfl, segments := fun _ => rfl, incidents := fun _ => rfl
      crews := fun _ h => crewsAgree_of h rfl (fun _ x hx opened => ⟨x, hx, opened⟩) (fun _ x hx purged => ⟨x, hx, purged⟩)
      shines := shines_of_eq rfl id
      lit := fun _ => SameLamps.lit ⟨rfl, rfl, fun _ _ => rfl, rfl, rfl, rfl⟩ rfl }
  unfold bringAllForward
  split
  · exact (set.trans (mild_foldl _ (fun q id => mild_bringForward id q) _ _)).then mild_dispatchDecide
  · exact set

theorem mild_setDispatch (reloads : PerClass) (time : Nat) (p : Part) : Mild p (dispatchDecide { p with
    dispatch := { p.dispatch with reloads := reloads, levels := reloads, offerTime := time } }) := by
  refine Mild.then ?_ mild_dispatchDecide
  refine mild_of_crews (Laws.m_dispatch (.refl p) _ id).tables rfl rfl rfl rfl rfl rfl rfl fun _ h => ?_
  exact crewsAgree_of h rfl (fun _ x hx opened => ⟨x, hx, opened⟩) (fun _ x hx purged => ⟨x, hx, purged⟩)

theorem ackOne_frame (x : Part × Nat) (id : Nat) : (ackOne x id).1 = { x.1 with points := (ackOne x id).1.points } := by
  unfold ackOne
  dsimp only
  split
  · rfl
  · split <;> rfl

theorem mild_ackPoint (ids : List Nat) (p : Part) : Mild p (refreshLamps (ids.foldl ackOne (p, 0)).1) := by
  have frame : ∃ points, (ids.foldl ackOne (p, 0)).1 = { p with points := points } := by
    generalize (0 : Nat) = n
    induction ids generalizing p n with
    | nil => exact ⟨p.points, rfl⟩
    | cons id ids ih =>
      obtain ⟨points, eq⟩ := ih (ackOne (p, n) id).1 (ackOne (p, n) id).2
      exact ⟨points, eq.trans (by rw [ackOne_frame])⟩
  have tables := (Laws.m_foldlWith ackOne ackOne_moves ids (p, 0) (.refl p)).tables
  obtain ⟨points, eq⟩ := frame
  rw [eq] at tables ⊢
  exact mild_of_refresh tables rfl rfl rfl rfl rfl rfl (lit_refreshLamps _) (shines_refresh rfl)

theorem mild_crewState {id : Nat} {c : Crew} {state : CrewState} (hc : p.dispatch.crews.get? id = some c)
    (before : c.state = .offShift ∨ c.state = .available) (after : state = .offShift ∨ state = .available) :
    Mild p (p.onCrew id fun c => { c with state := state, declined := none }) := by
  have crews : (p.onCrew id fun c => { c with state := state, declined := none }).dispatch.crews =
      p.dispatch.crews.set id { c with state := state, declined := none } := modify_of_get? hc _
  refine mild_of_crews (Laws.m_onCrew (.refl p) id _).tables rfl rfl rfl rfl rfl rfl rfl fun _ agree => ?_
  have idle (s : CrewState) (h : s = .offShift ∨ s = .available) (d : Crew) (hd : d.state = s) : ¬atWork d := by
    rcases h with rfl | rfl <;> simp [atWork, hd]
  have none_ : c.job = none := by
    have busy := (crewsAgree_iff.mp agree).2.1 id c hc
    simpa using mt busy.mp (idle _ before c rfl)
  exact crewsAgree_jobless agree crews none_ (idle _ after _ rfl) fun j k d _ _ _ _ => (awaits_congr rfl rfl).mpr

/-- A crew at work stays at work on its job, and is under no offer. -/
theorem mild_crewArrived {id : Nat} {c : Crew} (hc : p.dispatch.crews.get? id = some c) (held : c.state = .assigned) :
    Mild p (p.onCrew id fun c => { c with state := .onSite }) := by
  have crews : (p.onCrew id fun c => { c with state := .onSite }).dispatch.crews =
      p.dispatch.crews.set id { c with state := .onSite } := modify_of_get? hc _
  refine mild_of_crews (Laws.m_onCrew (.refl p) id _).tables rfl rfl rfl rfl rfl rfl rfl fun _ agree => ?_
  obtain ⟨one, busy, _⟩ := crewsAgree_iff.mp agree
  refine crewsAgree_set agree crews ?_ (fun j job k d other hd job' => other (one k id d c j hd hc job' job))
    (fun j offered => by cases offered) fun j k d _ _ _ _ => (awaits_congr rfl rfl).mpr
  have := busy id c hc
  simp only [atWork, held] at this ⊢
  simpa using this

theorem mild_crewArrives {id : Nat} {c : Crew} (hc : p.dispatch.crews.get? id = some c) (held : c.state = .assigned) :
    Mild p (crewArrives id c p) := by
  have arrived := mild_crewArrived hc held
  unfold crewArrives
  dsimp only
  split
  · exact arrived
  · next j _ =>
    split
    · split
      · next assigned =>
        refine arrived.trans ?_
        obtain ⟨i, hi, state⟩ := Option.map_eq_some_iff.mp assigned
        have known : (p.onCrew id fun c => { c with state := .onSite }).register.incidents.get? j.item = some i := hi
        have moved := setIncidentState_mildly known (by simp [state]) (new := .onSite) (by decide) .crew
        simpa [state] using moved
      · exact arrived
    · exact arrived
    · exact arrived

theorem mild_repair {id : Nat} {i : Incident} (hi : p.incident? id = some i) (st : i.state = .onSite ∨ i.state = .madeSafe) :
    Mild p (setIncidentState id .repaired .host p) := by
  have moved := setIncidentState_mildly (p := p) hi (by rcases st with h | h <;> simp [h]) (new := .repaired) (by decide) .host
  rcases st with h | h <;> simpa [h] using moved

theorem mild_acceptToken (token : Byte) (p : Part) : Mild p (acceptToken token p) := by
  have supervised (f : Supervision → Supervision) (p : Part) : Mild p (p.onSupervision f) := mild_onPanel rfl rfl id
  unfold acceptToken resumeAttended
  refine (supervised (fun v => { v with lastToken := some token }) p).trans ?_
  generalize p.onSupervision (fun v => { v with lastToken := some token }) = q
  dsimp only
  split
  · exact supervised _ q
  · split
    · exact supervised _ q
    · exact ((supervised _ q).then (mild_place _)).then mild_dispatchDecide

/-! ## The actions that change the records themselves -/

/-- The actions that are not mild: the loading of the model, and those of calls, crews, outages and suspicions. -/
inductive RecordActs (p : Part) : Part → Prop
  | beginLoad : p.link.partState = .unloaded → RecordActs p { p with link := { p.link with partState := .loading } }
  | endLoad : p.link.partState = .loading → RecordActs p (enterRunning p)
  | definePoint (id : Nat) (pt : Point) : p.link.partState = .loading → id < 256 →
      (∀ seg c st, pt.body = .pressure seg c st → st = {}) → RecordActs p { p with points := p.points.set id pt }
  | defineDistrict (id lamp : Nat) : p.link.partState = .loading → id < 32 →
      RecordActs p { p with districts := p.districts.set id { lamp := lamp } }
  | defineSegment (id district : Nat) (tier : Tier) (customers priority : Nat) (valves : List Nat) :
      p.link.partState = .loading → id < 512 → RecordActs p { p with
        segments := p.segments.set id
          { district := district, tier := tier, customers := customers, priority := priority, valves := valves } }
  | defineCrew (id : Nat) (kind : CrewKind) (home : Nat) (state : CrewState) : p.link.partState = .loading → id < 48 →
      (state = .offShift ∨ state = .available) → RecordActs p { p with
        dispatch := { p.dispatch with crews := p.dispatch.crews.set id { kind := kind, home := home, state := state } } }
  | editSegment (id : Nat) (s : Segment) (customers priority : Nat) : p.link.partState = .running →
      p.segments.get? id = some s → priority ≤ customers → s.supply = .supplied →
      RecordActs p (p.onSegment id fun s => { s with customers := customers, priority := priority })
  | noGasCall (s : Nat) : p.link.partState = .running → RecordActs p (noGasCall s p)
  | mergeCall (id : Nat) (i : Incident) (c : TakenCall) : p.link.partState = .running → p.incident? id = some i →
      p.candidateFor c = some id → RecordActs p (mergeCall id i c p).part
  | openIncident (id : Nat) (c : TakenCall) : p.link.partState = .running → p.candidateFor c = none →
      p.entryToOpen = some id → (∀ s, c.segment = some s → p.districtOf s = c.district) →
      RecordActs p (openIncident id c p).part
  | closeIncident (id : Nat) (i : Incident) : p.link.partState = .running → p.incident? id = some i →
      i.state ≠ .closed → RecordActs p (dispatchDecide (closeIncident id i p))
  | acceptOffer (id : Nat) (c : Crew) (j : Job) : p.link.partState = .running → p.dispatch.crews.get? id = some c →
      c.state = .offered → c.job = some j → RecordActs p (acceptOffer id j p)
  | assignCrew (id : Nat) (c : Crew) (j : Job) : p.link.partState = .running → p.dispatch.crews.get? id = some c →
      (c.state = .available ∨ c.state = .offered) → p.assignable j = true → RecordActs p (assignCrew id j p)
  | crewClears (id : Nat) (c : Crew) : p.link.partState = .running → p.dispatch.crews.get? id = some c →
      (c.state = .assigned ∨ c.state = .onSite) → RecordActs p (crewClears id c p).part
  | purgeSegment (id : Nat) (s : Segment) : p.link.partState = .running → p.segments.get? id = some s →
      s.supply = .recharged → RecordActs p (purgeSegment id s p)
  | relightSegment (id : Nat) (s : Segment) (n : Nat) : p.link.partState = .running → p.segments.get? id = some s →
      (s.supply = .relighting ∨ s.supply = .purged) → RecordActs p (relightSegment id s n p)
  | dismiss (id : Nat) (o : Outage) : p.link.partState = .running → p.outages.get? id = some o → o.ended.isSome = true →
      RecordActs p { p with outages := p.outages.erase id }
  | clearSuspect (id : Nat) (s : Segment) : p.link.partState = .running → p.segments.get? id = some s →
      RecordActs p (if s.suspect then setSuspect id false (p.onSegment id fun s => { s with noGas := [] })
        else p.onSegment id fun s => { s with noGas := [] })

theorem acts_cases (h : Acts p q) : Mild p q ∨ Silenced p q ∨ RecordActs p q := by
  cases h with
  | readChanges ids _ => exact .inl (mild_of_segments (Laws.m_segments (.refl p) _ (Laws.wf_map _ _ _)).tables rfl rfl rfl rfl
      rfl rfl rfl (view_map fun k x => by split <;> rfl))
  | setNotices m => exact .inl (mild_of_eq (fun t => t) rfl rfl rfl rfl rfl rfl rfl rfl)
  | beginLoad unloaded => exact .inr (.inr (.beginLoad unloaded))
  | endLoad loading _ => exact .inr (.inr (.endLoad loading))
  | setLine n _ _ _ _ _ => exact .inl (quiet_onLine n _ p).mild
  | defineOutstation id kind _ low => exact .inl (mild_of_keeps ⟨rfl, rfl, rfl, rfl, rfl, rfl, rfl⟩
      (Laws.m_outstations (.refl p) _ fun w => Laws.wf_set _ _ _ _ w low))
  | definePoint id os input district group body loading low fresh =>
    exact .inr (.inr (.definePoint id _ loading low fresh))
  | defineDistrict id lamp loading low => exact .inr (.inr (.defineDistrict id lamp loading low))
  | defineSegment id d tier cs pr vs loading low => exact .inr (.inr (.defineSegment id d tier cs pr vs loading low))
  | defineValve id a b act os slot n limit _ low => exact .inl (mild_of_keeps ⟨rfl, rfl, rfl, rfl, rfl, rfl, rfl⟩
      (Laws.m_valves (.refl p) _ fun w => Laws.wf_set _ _ _ _ w low))
  | defineFeed id seg outlet service _ low => exact .inl (mild_of_keeps ⟨rfl, rfl, rfl, rfl, rfl, rfl, rfl⟩
      (Laws.m_feeds (.refl p) _ fun w => Laws.wf_set _ _ _ _ w low))
  | defineCrew id kind home state loading low idle => exact .inr (.inr (.defineCrew id kind home state loading low idle))
  | setResponse a b c interval _ => exact .inl (mild_setResponse a b c interval p)
  | setDispatch reloads time _ => exact .inl (mild_setDispatch reloads time p)
  | holdLine n _ _ _ => exact .inl ((quiet_holdLine n p).then quiet_dispatchDecide).mild
  | freeLine n _ _ _ => exact .inl (quiet_freeLine n p).mild
  | ackPoint ids _ => exact .inl (mild_ackPoint ids p)
  | setBands id pt seg c c' st _ hpt body => exact .inl (mild_putPoint hpt (by simp [lampPoint, body]))
  | editSegment id s cs pr running hs le supplied => exact .inr (.inr (.editSegment id s cs pr running hs le supplied))
  | editValve v b _ => exact .inl (quiet_changeInoperable v b .edit p).mild
  | editFeed id f service _ hf =>
    have written : Mild p { p with feeds := p.feeds.set id { f with inService := service } } :=
      mild_of_keeps ⟨rfl, rfl, rfl, rfl, rfl, rfl, rfl⟩ (Laws.m_feeds (.refl p) _ fun w => Laws.wf_set_used _ _ _ _ _ w hf)
    exact .inl (written.trans (quiet_writeLiveness id _).mild)
  | seizureReported v _ => exact .inl (quiet_seizureReported v p).mild
  | endReported v e _ => exact .inl (quiet_endReported v e p).mild
  | requestPlan id target incident _ free _ => exact .inl (mild_requestPlan target incident free)
  | dropPlan id x _ _ _ => exact .inl (mild_freePlan id p)
  | executePlan id x _ _ _ _ _ => exact .inl (mild_executePlan id x p)
  | reissuePlan id x _ _ _ => exact .inl (mild_reissuePlan id x p)
  | abortPlan id x _ _ _ => exact .inl (mild_abortPlan id x p)
  | releasePlan id x _ _ _ => exact .inl (mild_releasePlan id x p)
  | operateValve v x a _ _ _ _ => exact .inl (mild_operateValve v a p)
  | noGasCall s running => exact .inr (.inr (.noGasCall s running))
  | mergeCall id i c running hi candidate => exact .inr (.inr (.mergeCall id i c running hi candidate))
  | openIncident id c running none_ entry home => exact .inr (.inr (.openIncident id c running none_ entry home))
  | makeSafe id i _ hi state =>
    refine .inl ((mild_makeSafe id .host fun j hj closed => ?_).then mild_dispatchDecide)
    cases (show p.register.incidents.get? id = some i from hi).symm.trans hj
    simp [closed] at state
  | repair id i _ hi state => exact .inl ((mild_repair hi state).then mild_dispatchDecide)
  | closeIncident id i running hi open_ => exact .inr (.inr (.closeIncident id i running hi open_))
  | crewState id c state _ hc before after => exact .inl ((mild_crewState hc before after).then mild_dispatchDecide)
  | acceptOffer id c j running hc offered job => exact .inr (.inr (.acceptOffer id c j running hc offered job))
  | declineOffer id c j _ _ _ _ => exact .inl (quiet_withdrawOffer id j .declined p).mild
  | assignCrew id c j running hc state able => exact .inr (.inr (.assignCrew id c j running hc state able))
  | crewArrives id c _ hc held => exact .inl (mild_crewArrives hc held)
  | crewClears id c running hc held => exact .inr (.inr (.crewClears id c running hc held))
  | purgeSegment id s running hs supply => exact .inr (.inr (.purgeSegment id s running hs supply))
  | relightSegment id s n running hs supply => exact .inr (.inr (.relightSegment id s n running hs supply))
  | dismiss id o running ho ended => exact .inr (.inr (.dismiss id o running ho ended))
  | clearSuspect id s running hs => exact .inr (.inr (.clearSuspect id s running hs))
  | lampForce lamp f _ low =>
    refine .inl (mild_onPanel rfl rfl fun w => ?_)
    unfold setForce
    split
    · exact Laws.wf_erase _ _ _ w
    · exact Laws.wf_set _ _ _ _ w low
  | lampTest _ => exact .inl (mild_onPanel rfl rfl id)
  | silence _ => exact .inr (.inl ⟨false, p.panel.pack, rfl⟩)
  | setSupervision period _ =>
    exact .inl (mild_onPanel (f := fun a => { a with supervision := (superviseWith period p).panel.supervision }) rfl rfl id)
  | keepalive token _ => exact .inl (mild_acceptToken token p)

theorem timed_cases (h : Timed p q) : Mild p q ∨ Silenced p q ∨ q = traceEnds p := by
  rcases quiet_of_timed h with quiet | silenced | rfl | rfl | rfl
  · exact .inl quiet.mild
  · exact .inr (.inl silenced)
  · exact .inl (mild_jobStarts p)
  · exact .inr (.inr rfl)
  · exact .inl (mild_planJobEnds p)

end

end Sys2Proof.Proofs
end

section
/-!
What one event does to the records: a step executes at most one request, since an executed one keeps its slot until its
reply has been sent (R6, R7).
-/

namespace Sys2Proof.Proofs

open Sys2Proof Sys2Proof.Machine

/-- The link alone has changed, and not the part state. -/
def Relinked (p q : Part) : Prop := ∃ l : Link, l.partState = p.link.partState ∧ q = p.withLink l

/-- One action, the link changed before it and after it. -/
def ActedOnce (p q : Part) : Prop := ∃ a b, Relinked p a ∧ Acts a b ∧ Relinked b q

section
variable {p q r : Part}

theorem Relinked.refl (p : Part) : Relinked p p := ⟨p.link, rfl, rfl⟩

theorem Relinked.of_link (l : Link) (state : l.partState = p.link.partState) : Relinked p { p with link := l } :=
  ⟨l, state, rfl⟩

theorem Relinked.trans (h : Relinked p q) (k : Relinked q r) : Relinked p r := by
  obtain ⟨l, state, rfl⟩ := h
  obtain ⟨m, state', rfl⟩ := k
  exact ⟨m, state'.trans state, rfl⟩

/-- Nothing but the link has changed, or one action was made and a request stands in the executing slot. -/
def Receives (p q : Part) : Prop := Relinked p q ∨ (ActedOnce p q ∧ q.link.executing ≠ none)

theorem ActedOnce.relink (h : ActedOnce p q) (k : Relinked q r) : ActedOnce p r := by
  obtain ⟨a, b, before, act, after⟩ := h
  exact ⟨a, b, before, act, after.trans k⟩

theorem receives_link : KeepsReceiver (Receives p) := fun q l state slot h => by
  rcases h with linked | ⟨acted, busy⟩
  · exact .inl (linked.trans ⟨l, state, rfl⟩)
  · exact .inr ⟨acted.relink ⟨l, state, rfl⟩, by show l.executing ≠ none; rw [slot]; exact busy⟩

/-- The execution of a request is a change of the link, or one action. -/
theorem executeRequest_once (req : Request) (p : Part) : Relinked p (executeRequest req p) ∨ ActedOnce p (executeRequest req p) := by
  have begun : Relinked p (p.withLink (p.link.begin req)) := .of_link _ rfl
  have answered : Relinked (runRequest req (p.withLink (p.link.begin req))).part (executeRequest req p) :=
    .of_link _ (answer_partState _ _ _)
  rcases (runRequest_proper req (p.withLink (p.link.begin req))).outcome with ⟨_, same⟩ | ⟨_, same | act⟩
  · exact .inl (begun.trans (same ▸ answered))
  · exact .inl (begun.trans (same ▸ answered))
  · exact .inr ⟨_, _, begun, act, answered⟩

theorem executeRequest_occupies (req : Request) (p : Part) : (executeRequest req p).link.executing ≠ none := by
  have slot := (runRequest_serves req (p.withLink (p.link.begin req))).executing
  have answered := (Laws.answer_spec (runRequest req (p.withLink (p.link.begin req))).part.link ⟨req, false⟩
    (runRequest req (p.withLink (p.link.begin req))).status (runRequest req (p.withLink (p.link.begin req))).result slot).1
  exact fun none_ => Option.some_ne_none _ (answered.symm.trans none_)

theorem turnAway_executing (req : Request) (l : Link) : (l.turnAway req).executing = l.executing := by
  unfold Link.turnAway
  split
  · exact Laws.startNext_executing _
  · rfl

theorem receives_arrives (req : Request) (q : Part) (h : Receives p q) : Receives p (requestArrives req q) := by
  unfold requestArrives
  split
  · next free =>
    have linked : Relinked p q := h.resolve_right fun acted => acted.2 free
    rcases executeRequest_once req q with same | ⟨a, b, before, act, after⟩
    · exact .inl (linked.trans same)
    · exact .inr ⟨⟨a, b, linked.trans before, act, after⟩, executeRequest_occupies req q⟩
  · split
    · exact receives_link q _ rfl rfl h
    · exact receives_link q _ (turnAway_partState _ _) (turnAway_executing _ _) h

theorem Relinked.next (p : Part) : Relinked p { p with link := p.link.startNext } := .of_link _ (Laws.startNext_partState _)

/-- The waiting request is executed in the emptied slot, if there is one. -/
theorem promoteWaiting_once (p : Part) : Relinked p (promoteWaiting p) ∨ ActedOnce p (promoteWaiting p) := by
  have emptied : Relinked p { p with link := { p.link with executing := none, waiting := none } } := .of_link _ rfl
  unfold promoteWaiting
  dsimp only
  split
  · exact .inl emptied
  · next req _ =>
    rcases executeRequest_once req { p with link := { p.link with executing := none, waiting := none } } with
      same | ⟨a, b, before, act, after⟩
    · exact .inl (emptied.trans same)
    · exact .inr ⟨a, b, emptied.trans before, act, after⟩

/-- The end of a frame takes the link on, executes a waiting request, or resets the part. -/
theorem frameSent_once (p : Part) :
    Relinked p (frameSent p) ∨ ActedOnce p (frameSent p) ∨ ∃ c r e l, frameSent p = Part.released c r e l := by
  have idle : Relinked p { p with link := p.link.txIdle } := .of_link _ rfl
  have sent : Relinked p { p with link := p.link.txIdle.startNext } := idle.trans (.next _)
  unfold frameSent
  split
  · exact .inl (.refl p)
  · dsimp only
    split
    · exact .inl sent
    · unfold replySent
      split
      · exact .inr (.inr ⟨_, _, _, _, rfl⟩)
      · rcases promoteWaiting_once { p with link := p.link.txIdle } with same | ⟨a, b, before, act, after⟩
        · exact .inl ((idle.trans same).trans (.next _))
        · exact .inr (.inl ⟨a, b, idle.trans before, act, after.trans (.next _)⟩)
  · exact .inl sent

/-- What one event is to the records. -/
theorem happens_once (h : Happens p q) : Relinked p q ∨ ActedOnce p q ∨ Timed p q ∨ ∃ c r e l, q = Part.released c r e l := by
  have received (h : Receives p q) : Relinked p q ∨ ActedOnce p q ∨ Timed p q ∨ ∃ c r e l, q = Part.released c r e l :=
    h.elim .inl fun acted => .inr (.inl acted.1)
  cases h with
  | reset cause rate => exact .inr (.inr (.inr ⟨_, _, _, _, rfl⟩))
  | sent =>
    rcases frameSent_once p with same | acted | reset
    · exact .inl same
    · exact .inr (.inl acted)
    · exact .inr (.inr (.inr reset))
  | on e =>
    have start : Receives p p := .inl (.refl p)
    cases e with
    | request r => exact received (receives_arrives r p start)
    | byte b => exact received (receiveByte_keeps receives_link receives_arrives b start)
    | gap => exact received (closeGap_keeps receives_link receives_arrives start)
    | timed t => exact .inr (.inr (.inl t))

end

end Sys2Proof.Proofs
end

section
/-!
The lamps over the operations on incidents, calls, crews, outages and segments: each leaves the conditions those of the
records (R175), and the horn sounding when one rose into FAST (R178).
-/

namespace Sys2Proof.Proofs

open Sys2Proof Sys2Proof.Machine

/-- Over an operation the horn is kept, and the lamp conditions stay those of the records. -/
structure Lights (p q : Part) : Prop where
  tables : p.tablesOk → q.tablesOk
  shines : Shines p q
  lit : p.tablesOk → Lit p → Lit q

section
variable {p q r : Part}

theorem Lights.refl (p : Part) : Lights p p := ⟨fun h => h, shines_of_eq rfl id, fun _ h => h⟩

theorem Lights.trans (h : Lights p q) (k : Lights q r) : Lights p r where
  tables := k.tables ∘ h.tables
  shines := h.shines.trans k.shines
  lit t l := k.lit (h.tables t) (h.lit t l)

theorem Lights.then (h : Lights p q) {f : Part → Part} (hf : ∀ q, Lights q (f q)) : Lights p (f q) := h.trans (hf q)

theorem Mild.lights (h : Mild p q) : Lights p q := ⟨h.tables, h.shines, h.lit⟩

/-- Changes that leave the panel, after which the lamps are brought up to date. -/
theorem lights_refresh (tables : p.tablesOk → (refreshLamps q).tablesOk) (panel : q.panel = p.panel) :
    Lights p (refreshLamps q) := ⟨tables, shines_refresh panel, fun _ _ => lit_refreshLamps q⟩

/-- Changes that leave the panel and the conditions of the records. -/
theorem lights_of_conditions (tables : p.tablesOk → q.tablesOk) (panel : q.panel = p.panel)
    (same : p.tablesOk → q.lampConditions = p.lampConditions) : Lights p q where
  tables := tables
  shines := shines_of_eq (by rw [panel]) (by rw [panel]; exact id)
  lit t lit := by rw [Lit, panel, same t]; exact lit

/-- Outside RUNNING no lamp has a condition. -/
theorem lights_at_rest (tables : p.tablesOk → q.tablesOk) (panel : q.panel = p.panel)
    (rest : p.link.partState ≠ .running) (rest' : q.link.partState ≠ .running) : Lights p q :=
  lights_of_conditions tables panel fun _ => by rw [conditions_at_rest rest, conditions_at_rest rest']

theorem tables_wf (t : p.tablesOk) : p.points.wf 256 = true ∧ p.segments.wf 512 = true ∧ p.districts.wf 32 = true ∧
    p.register.incidents.wf 128 = true ∧ p.dispatch.crews.wf 48 = true ∧ p.outages.wf 64 = true := by
  obtain ⟨_, points, segments, _, _, districts, _, _, incidents, crews, outages, _⟩ := t
  exact ⟨points, segments, districts, incidents, crews, outages⟩

theorem any_iff {α : Type} {t : Table α} {n : Nat} (w : t.wf n = true) (f : Nat → α → Bool) :
    t.any f = true ↔ ∃ k x, t.get? k = some x ∧ f k x = true := by
  rw [Table.any, List.any_eq_true]
  exact ⟨fun ⟨e, he, fe⟩ => ⟨e.1, e.2, get?_of_mem w he, fe⟩, fun ⟨k, x, hx, fx⟩ => ⟨(k, x), Laws.mem_of_get? t k x hx, fx⟩⟩

/-- The segments change, and not whether one of a district is in an outage of the register or SUSPECT. -/
theorem conditions_of_members {t : Table Segment} (tables : p.tablesOk)
    (member : ∀ o d, (∃ r, p.outages.get? o = some r) → ({ p with segments := t } : Part).memberIn o d = p.memberIn o d)
    (suspect : ∀ d, (t.any fun _ s => decide (s.district = d) && s.suspect) =
      p.segments.any fun _ s => decide (s.district = d) && s.suspect) :
    ({ p with segments := t } : Part).lampConditions = p.lampConditions := by
  obtain ⟨_, _, _, _, _, w⟩ := tables_wf tables
  have outages (f : Outage → Bool) (d : Nat) :
      (p.outages.any fun id o => o.ended.isNone && f o && ({ p with segments := t } : Part).memberIn id d) =
      p.outages.any fun id o => o.ended.isNone && f o && p.memberIn id d := by
    have each (id : Nat) (o : Outage) (ho : p.outages.get? id = some o) := member id d ⟨o, ho⟩
    refine Bool.eq_iff_iff.mpr ?_
    rw [any_iff w, any_iff w]
    refine exists_congr fun id => exists_congr fun o => and_congr_right fun ho => ?_
    rw [each id o ho]
  have district : ({ p with segments := t } : Part).districtCondition = p.districtCondition := by
    funext d
    have first := outages (fun o => decide (0 < o.priorityOff)) d
    have second := outages (fun _ => true) d
    simp only [Part.districtCondition, first, second, suspect]
    rfl
  have each : ({ p with segments := t } : Part).lampCondition = p.lampCondition := by
    funext lamp
    simp only [Part.lampCondition, district]
    rfl
  rw [Part.lampConditions, each]
  rfl

theorem lights_putIncident (id : Nat) (i : Incident) (hi : id < 128 ∨ ∃ y, p.incident? id = some y) :
    Lights p (putIncident id i p) :=
  ⟨(Laws.m_putIncident (.refl p) id i hi).tables, shines_putIncident id i p, fun _ _ => lit_refreshLamps _⟩

theorem lights_putOutage (id : Nat) (o : Outage) (ho : id < 64 ∨ ∃ y, p.outages.get? id = some y) :
    Lights p (putOutage id o p) :=
  ⟨(Laws.m_putOutage (.refl p) id o ho).tables,
    shines_refresh (q := { p with outages := p.outages.set id o }) rfl, fun _ _ => lit_refreshLamps _⟩

theorem lights_onDistrict (id : Nat) (f : District → District) (lamp : ∀ d, (f d).lamp = d.lamp) (p : Part) :
    Lights p (p.onDistrict id f) :=
  lights_of_conditions (Laws.m_onDistrict (.refl p) id f).tables rfl fun t =>
    SameLamps.conditions ⟨rfl, rfl, fun _ _ => rfl, rfl, by
      obtain ⟨_, _, w, _⟩ := tables_wf t
      exact viewed_eq w (Laws.wf_modify _ _ _ _ w) (view_modify fun d _ => lamp d), rfl⟩

theorem lights_onSegment (id : Nat) (f : Segment → Segment) (same : ∀ s, lampSegment (f s) = lampSegment s) (p : Part) :
    Lights p (p.onSegment id f) :=
  lights_of_conditions (Laws.m_onSegment (.refl p) id f).tables rfl fun t =>
    SameLamps.conditions ⟨by
      obtain ⟨_, w, _⟩ := tables_wf t
      exact viewed_eq w (Laws.wf_modify _ _ _ _ w) (view_modify fun s _ => same s), rfl, fun _ _ => rfl, rfl, rfl, rfl⟩

theorem lights_onCrew (id : Nat) (f : Crew → Crew) (p : Part) : Lights p (p.onCrew id f) :=
  lights_of_conditions (Laws.m_onCrew (.refl p) id f).tables rfl fun _ =>
    SameLamps.conditions ⟨rfl, rfl, fun _ _ => rfl, rfl, rfl, rfl⟩

theorem lights_setIncidentState (id : Nat) (st : IncidentState) (c : IncidentCause) (p : Part) :
    Lights p (setIncidentState id st c p) := by
  unfold setIncidentState
  split
  · exact .refl p
  · next i hi => exact (lights_putIncident id _ (.inr ⟨i, hi⟩)).trans (mild_place _ _).lights

/-! ## The items of the crews -/

theorem lights_setSupply (seg : Nat) (st : SupplyState) (p : Part) : Lights p (setSupply seg st p) :=
  lights_onSegment seg (fun s => { s with supply := st }) (fun _ => rfl) p

theorem mild_setOpState (v : Nat) (st : OpState) (e : Option Nat) (p : Part) : Mild p (setOpState v st e p) :=
  mild_of_keeps (by simp [KeepsRecords]) (Laws.m_setOpState v st e p)

theorem lights_acceptJob (crew : Nat) (j : Job) (cause : IncidentCause) (p : Part) : Lights p (acceptJob crew j cause p) := by
  unfold acceptJob
  split
  · split
    · exact .refl p
    · next i hi => exact (lights_putIncident _ _ (.inr ⟨i, hi⟩)).then (lights_setIncidentState _ _ _)
  · split
    · exact (mild_setOpState _ _ _ p).lights
    · exact .refl p
  · exact (lights_setSupply _ _ p).trans (mild_markSegment _ _).lights

theorem lights_returnJob (j : Job) (p : Part) : Lights p (returnJob j p).1 := by
  unfold returnJob
  split
  · split
    · exact .refl p
    · next i hi =>
      have put := lights_putIncident j.item { i with crew := none } (.inr ⟨i, hi⟩)
      dsimp only
      split
      · exact put.then (lights_setIncidentState _ _ _)
      · exact put
  · split
    · exact (mild_setOpState _ _ _ p).lights
    · exact .refl p
  · split
    · exact (lights_setSupply _ _ p).trans (mild_markSegment _ _).lights
    · exact .refl p

theorem lights_endOtherOffer (crew : Nat) (j : Job) (p : Part) : Lights p (endOtherOffer crew j p) := by
  unfold endOtherOffer
  split
  · exact .refl p
  · split
    · exact .refl p
    · exact (lights_onCrew _ _ p).trans (mild_place _ _).lights

theorem lights_acceptOffer (crew : Nat) (j : Job) (p : Part) : Lights p (acceptOffer crew j p) :=
  ((lights_onCrew _ _ p).then (lights_acceptJob _ _ _)).trans (mild_dispatchDecide _).lights

theorem lights_assignCrew (crew : Nat) (j : Job) (p : Part) : Lights p (assignCrew crew j p) :=
  (((lights_endOtherOffer crew j p).then (lights_onCrew crew _)).then (lights_acceptJob _ _ _)).trans
    (mild_dispatchDecide _).lights

theorem lights_crewClears (crew : Nat) (c : Crew) (p : Part) : Lights p (crewClears crew c p).part := by
  unfold crewClears
  cases c.job with
  | none => exact (lights_onCrew crew _ p).trans (mild_dispatchDecide _).lights
  | some j => exact ((lights_returnJob j p).then (lights_onCrew crew _)).trans (mild_dispatchDecide _).lights

/-! ## Calls and incidents -/

theorem lights_fillSlot (slot : Option Nat) (id : Nat) (c : TakenCall) (room : ∀ n, slot = some n → n < 256) (p : Part) :
    Lights p (fillSlot slot id c p) := by
  obtain ⟨calls, same, _⟩ := fillSlot_eq slot id c p
  have tables := (fillSlot_moves id c p room).tables
  rw [same] at tables ⊢
  exact lights_of_conditions tables rfl fun _ => SameLamps.conditions ⟨rfl, rfl, fun _ _ => rfl, rfl, rfl, rfl⟩

theorem lights_confirmAtOpening (id : Nat) (p : Part) : Lights p (confirmAtOpening id p) := by
  unfold confirmAtOpening
  split
  · exact .refl p
  · split
    · split
      · exact (mild_raiseGrade _ _ _ _ p).lights
      · exact .refl p
    · exact .refl p

theorem lights_listed (slot : Option Nat) (id : Nat) (i : Incident) (c : TakenCall) (room : ∀ n, slot = some n → n < 256)
    (hi : id < 128 ∨ ∃ y, p.incident? id = some y) : Lights p (listed slot id i c p) :=
  (lights_fillSlot slot id c room p).trans (lights_putIncident id i (by
    simpa only [Part.incident?, fillSlot_incidents] using hi))

theorem lights_mergeCall {id : Nat} {i : Incident} (c : TakenCall) (hi : p.incident? id = some i) :
    Lights p (mergeCall id i c p).part := by
  have told := ((lights_listed (p.slotFor i.calls.length) id (mergedIncident i c (p.slotFor i.calls.length)) c
    (fun n => slotFor_lt) (.inr ⟨i, hi⟩)).trans (mild_place (.incidentMerged id c.kind c.grade c.reference
      (p.slotFor i.calls.length) (mergedIncident i c (p.slotFor i.calls.length)).kind
      (mergedIncident i c (p.slotFor i.calls.length)).total (mergedIncident i c (p.slotFor i.calls.length)).unlisted) _).lights)
  unfold mergeCall callReply
  dsimp only
  refine Lights.trans ?_ (mild_dispatchDecide _).lights
  split
  · exact told.trans (mild_raiseGrade _ _ _ _ _).lights
  · exact told

theorem lights_openIncident {id : Nat} (c : TakenCall) (entry : p.entryToOpen = some id) :
    Lights p (openIncident id c p).part := by
  have listed := lights_listed (p.slotFor 0) id ((openedIncident c p).withSlot (p.slotFor 0)) c
    (fun n => slotFor_lt) (entryToOpen_spec entry)
  unfold openIncident callReply
  dsimp only
  refine Lights.trans ?_ (mild_dispatchDecide _).lights
  refine Lights.then (Lights.trans ?_ (mild_place _ _).lights) (lights_confirmAtOpening id)
  exact listed.then (lights_onDistrict c.district (fun d => { d with openIncidents := d.openIncidents + 1 }) fun _ => rfl)

theorem lights_closeIncident {id : Nat} {i : Incident} (hi : p.incident? id = some i) : Lights p (closeIncident id i p) := by
  unfold closeIncident
  dsimp only
  refine Lights.then ?_ (lights_onDistrict i.district (fun d => { d with openIncidents := d.openIncidents - 1 }) fun _ => rfl)
  have erased : Lights p { p with
      register := { p.register with calls := i.calls.foldl (fun t slot => t.erase slot) p.register.calls } } :=
    lights_of_conditions (Laws.m_register (.refl p)
      { p.register with calls := i.calls.foldl (fun t slot => t.erase slot) p.register.calls } (erased_wf _ _)
      fun h => h).tables rfl fun _ =>
      SameLamps.conditions ⟨rfl, rfl, fun _ _ => rfl, rfl, rfl, rfl⟩
  have closed := (erased.trans (lights_putIncident id { i with
    state := .closed, stateTime := p.time, nextEscalation := none, calls := [] } (.inr ⟨i, hi⟩))).then fun q =>
      ((mild_place (.incidentState id i.state .closed .host i.crew) q).then (mild_endJob ⟨.leak, id⟩)).lights
  refine Lights.trans ?_ (lights_putIncident id _ (.inr ?_))
  · exact closed.then fun q => (mild_of_eq (q := { q with
      plans := q.plans.map fun _ x => if x.incident = some id then { x with incident := none } else x })
      (Laws.m_plans (.refl q) _ (Laws.wf_map _ _ _)).tables rfl rfl rfl rfl rfl rfl rfl rfl).lights
  · simp [Part.incident?, Laws.f_endJob_register, putIncident, refreshLamps]

/-! ## Segments and outages -/

theorem lights_setSuspect (seg : Nat) (b : Bool) (p : Part) : Lights p (setSuspect seg b p) := by
  unfold setSuspect
  exact lights_refresh (Laws.m_setSuspect seg b p).tables (by simp)

theorem lights_noGasCall (seg : Nat) (p : Part) : Lights p (noGasCall seg p) := by
  unfold noGasCall
  split
  · exact .refl p
  · next x _ =>
    split
    · split
      · exact .refl p
      · next o ho => exact lights_putOutage _ _ (.inr ⟨o, ho⟩)
    · dsimp only
      have timed := lights_onSegment seg (fun s => { s with noGas := pushNoGas x.noGas p.time }) (fun _ => rfl) p
      split
      · exact (timed.then (lights_setSuspect seg true)).trans (mild_place _ _).lights
      · exact timed

theorem lights_endOutage (id : Nat) (p : Part) : Lights p (endOutage id p) := by
  unfold endOutage
  split
  · exact .refl p
  · next o ho => exact (lights_putOutage id _ (.inr ⟨o, ho⟩)).trans (mild_place _ _).lights

theorem lights_loseMember (id n : Nat) (p : Part) : Lights p (loseMember id n p) := by
  unfold loseMember
  split
  · exact .refl p
  · next o ho => exact lights_putOutage id _ (.inr ⟨o, ho⟩)

theorem unserved_moves (seg : Nat) (p : Part) : Laws.Moves p (unserved seg p) :=
  (Laws.m_onSegment (.refl p) seg _).trans (Laws.m_markSegment seg _)

/-- A segment that no outage of the register has is SUPPLIED: no lamp shows it. -/
theorem lights_unserved {seg : Nat} {x : Segment} (hx : p.segments.get? seg = some x)
    (alone : x.outage.bind p.outages.get? = none) : Lights p (unserved seg p) := by
  have tables := (Laws.m_onSegment (.refl p) seg
    fun s => { s with supply := .supplied, relit := 0, outage := none }).tables
  refine Lights.then (lights_of_conditions tables rfl fun t => ?_) fun q => (mild_markSegment seg q).lights
  obtain ⟨_, w, _⟩ := tables_wf t
  obtain ⟨_, w', _⟩ := tables_wf (tables t)
  have known (n : Nat) (y : Segment) (other : n ≠ seg) : (p.segments.modify seg fun s =>
      { s with supply := .supplied, relit := 0, outage := none }).get? n = some y ↔ p.segments.get? n = some y := by
    rw [Laws.get?_modify_other _ _ _ _ other]
  have this : (p.segments.modify seg fun s => { s with supply := .supplied, relit := 0, outage := none }).get? seg =
      some { x with supply := .supplied, relit := 0, outage := none } := by
    rw [modify_of_get? hx, Laws.get?_set_same]
  refine conditions_of_members t (fun o d ⟨r, hr⟩ => Bool.eq_iff_iff.mpr ?_) fun d => Bool.eq_iff_iff.mpr ?_
  · refine Iff.trans (memberIn_iff w' o d) (Iff.trans ?_ (memberIn_iff w o d).symm)
    refine exists_congr fun n => exists_congr fun y => ?_
    by_cases other : n = seg
    · subst other
      constructor
      · rintro ⟨hy, joined, _⟩
        cases this.symm.trans hy
        cases joined
      · rintro ⟨hy, joined, _⟩
        cases hx.symm.trans hy
        rw [joined, Option.bind_some, hr] at alone
        cases alone
    · exact and_congr_left fun _ => known n y other
  · refine Iff.trans (any_iff w' _) (Iff.trans ?_ (any_iff w _).symm)
    constructor
    · rintro ⟨n, y, hy, suspect⟩
      by_cases other : n = seg
      · subst other
        cases this.symm.trans hy
        exact ⟨n, x, hx, suspect⟩
      · exact ⟨n, y, (known n y other).mp hy, suspect⟩
    · rintro ⟨n, y, hy, suspect⟩
      by_cases other : n = seg
      · subst other
        cases hx.symm.trans hy
        exact ⟨n, _, this, suspect⟩
      · exact ⟨n, y, (known n y other).mpr hy, suspect⟩

theorem lights_restoreSegment (seg : Nat) (p : Part) : Lights p (restoreSegment seg p) := by
  cases hx : p.segments.get? seg with
  | none => simp only [restoreSegment, hx]; exact .refl p
  | some x =>
    cases member : x.outage.bind p.outages.get? with
    | none =>
      rw [restoreSegment_alone hx member]
      exact (lights_unserved hx member).trans (mild_endJob _ _).lights
    | some o =>
      obtain ⟨id, joined, ho⟩ := Option.bind_eq_some_iff.mp member
      rw [restoreSegment_member hx joined ho]
      have off : Lights p (unlisted seg id x o (unserved seg p)) := by
        have frame := unserved_frame seg p
        have outages : (unserved seg p).outages = p.outages := by rw [frame]
        have panel : (unserved seg p).panel = p.panel := by rw [frame]
        unfold unlisted
        refine Lights.trans ?_ (mild_endJob _ _).lights
        unfold putOutage
        split
        · exact lights_refresh (Laws.m_putOutage (unserved_moves seg p) id _ (.inr ⟨o, outages ▸ ho⟩)).tables panel
        · exact lights_refresh (Laws.m_putOutage (Laws.m_onDistrict (unserved_moves seg p) _ _) id _
            (.inr ⟨o, outages ▸ ho⟩)).tables panel
      dsimp only
      split
      · exact (off.trans (mild_place _ _).lights).then (lights_endOutage id)
      · exact off.trans (mild_place _ _).lights

theorem lights_addRelit {seg : Nat} (x : Segment) (n : Nat) (p : Part) : Lights p (addRelit seg x n p) := by
  have relit := lights_onSegment seg (fun s => { s with relit := min (x.relit + n) x.customers }) (fun _ => rfl) p
  unfold addRelit
  dsimp only
  split
  · exact relit
  · next id o ho => exact relit.trans (lights_putOutage id _ (.inr ⟨o, (Laws.bind_pair ho).2⟩))

theorem lights_purgeSegment (seg : Nat) (x : Segment) (p : Part) : Lights p (purgeSegment seg x p) := by
  refine Lights.trans ?_ (mild_dispatchDecide _).lights
  split
  · exact (lights_onSegment seg (fun s => { s with supply := .purged, relit := 0 }) (fun _ => rfl) p).then fun q =>
      (mild_markSegment seg q).lights
  · exact lights_restoreSegment seg p

theorem lights_relightSegment (seg : Nat) (x : Segment) (n : Nat) (p : Part) : Lights p (relightSegment seg x n p) := by
  unfold relightSegment
  dsimp only
  split
  · exact ((lights_addRelit x n p).then (lights_restoreSegment seg)).trans (mild_dispatchDecide _).lights
  · exact lights_addRelit x n p

theorem joinSegments_panel (id : Nat) (js : List Nat) (x : Part × Outage) :
    (js.foldl (fun acc seg => joinSegment id seg acc) x).1.panel = x.1.panel := by
  induction js generalizing x with
  | nil => rfl
  | cons j js ih =>
    rw [List.foldl_cons, ih]
    unfold joinSegment
    dsimp only
    split <;> rfl

theorem lights_joinOutage (js : List Nat) (c : Cause) (p : Part) : Lights p (joinOutage js c p) := by
  have tables := (Laws.m_joinOutage js c p).tables
  revert tables
  unfold joinOutage
  split
  · exact fun _ => .refl p
  · split
    · exact fun _ => .refl p
    · next id o joined _ =>
      refine fun tables => ⟨tables, Shines.trans ?_ (mild_place _ _).shines, fun _ _ => lit_place _ (lit_refreshLamps _)⟩
      unfold putOutage
      exact shines_refresh (joinSegments_panel id js (p, o))

theorem lights_loseMembers (lost : List (Nat × Segment)) (p : Part) : Lights p (loseMembers lost p) := by
  induction lost generalizing p with
  | nil => exact .refl p
  | cons e lost ih =>
    refine Lights.trans ?_ (ih _)
    dsimp only
    split
    · exact lights_loseMember _ _ p
    · exact .refl p

theorem mild_idleEngine (p : Part) : Mild p (idleEngine p) :=
  mild_of_eq (fun t => t) rfl rfl rfl rfl rfl rfl rfl rfl

theorem mild_endRelights (lost : List (Nat × Segment)) (p : Part) : Mild p (endRelights lost p) :=
  mild_foldl (fun p (e : Nat × Segment) => endJob ⟨.relight, e.1⟩ p) (fun q e => mild_endJob ⟨.relight, e.1⟩ q) _ p

theorem lights_completeTrace (c : Cause) (w : View) (p : Part) : Lights p (completeTrace c w p) := by
  rw [completeTrace_eq]
  have written : Lights p (writeTrace w p) :=
    lights_of_conditions (Laws.m_segments (.refl p) _ (Laws.wf_map _ _ _)).tables rfl fun t =>
      SameLamps.conditions ⟨by
        obtain ⟨_, wf, _⟩ := tables_wf t
        exact viewed_eq wf (Laws.wf_map _ _ _ wf) (view_map fun _ _ => rfl), rfl, fun _ _ => rfl, rfl, rfl, rfl⟩
  have lost : Lights p (loseMembers (lostInTrace w p) (markSegments (changedByTrace w p) (writeTrace w p))) :=
    (written.trans (mild_markSegments _ _).lights).then (lights_loseMembers _)
  exact (lost.then (lights_joinOutage _ c)).then fun q =>
    (((mild_idleEngine q).then (mild_endRelights _)).then mild_dispatchDecide).lights

end

end Sys2Proof.Proofs
end

section
/-!
The lamps over every step (R175, R178).
-/

namespace Sys2Proof.Proofs

open Sys2Proof Sys2Proof.Machine

section
variable {p q r : Part}

theorem setUp_tables : p.tablesOk → (setUp p).tablesOk :=
  (((Laws.m_segments (.refl p) _ (Laws.wf_map _ _ _)).then fun q => Laws.m_feeds (.refl q) _
      (Laws.wf_map _ _ (fun _ (f : Feed) => { f with live := deriveLive p.points f }))).then fun q =>
      Laws.m_valves (.refl q) _ (Laws.wf_map _ _
        (fun _ (v : Valve) => { v with position := v.normal.position, lastEnd := v.normal }))).tables

theorem lights_endLoad (p : Part) : Lights p (enterRunning p) := by
  have started := (Laws.m_raise .load (setUp p)).trans (moves_enterRunning_lines _)
  rw [enterRunning_eq]
  refine (lights_refresh ((Laws.m_refreshLamps started).tables ∘ setUp_tables) ?_).trans (mild_dispatchDecide _).lights
  rw [Laws.foldl_keeps (·.panel) _ (fun q n => Laws.f_startLine_panel q n)]
  exact Laws.f_raise_panel (setUp p) .load

/-- An ENDED outage shows on no lamp: its record goes (R170, R175). -/
theorem lights_dismiss {id : Nat} {o : Outage} (ho : p.outages.get? id = some o) (ended : o.ended.isSome = true) :
    Lights p { p with outages := p.outages.erase id } := by
  have tables := (Laws.m_outages (.refl p) _ (Laws.wf_erase _ _ id)).tables
  refine lights_of_conditions tables rfl fun t => SameLamps.conditions ⟨rfl, rfl, fun f off => ?_, rfl, rfl, rfl⟩
  obtain ⟨_, _, _, _, _, w⟩ := tables_wf t
  obtain ⟨_, _, _, _, _, w'⟩ := tables_wf (tables t)
  rw [any_viewed, any_viewed]
  refine Bool.eq_iff_iff.mpr (Iff.trans (any_iff w' _) (Iff.trans ?_ (any_iff w _).symm))
  constructor
  · rintro ⟨k, x, hx, fx⟩
    rw [get?_erase] at hx
    split at hx
    · cases hx
    · exact ⟨k, x, hx, fx⟩
  · rintro ⟨k, x, hx, fx⟩
    refine ⟨k, x, ?_, fx⟩
    rw [get?_erase, if_neg]
    · exact hx
    · rintro rfl
      cases ho.symm.trans hx
      obtain ⟨at_, ended_at⟩ := Option.isSome_iff_exists.mp ended
      rw [lampOutage, ended_at, Option.isNone_some, off] at fx
      cases fx

theorem lights_recordActs (tables : p.tablesOk → q.tablesOk) (h : RecordActs p q) : Lights p q := by
  cases h with
  | beginLoad unloaded => exact lights_at_rest tables rfl (by simp [unloaded]) (by simp)
  | endLoad _ => exact lights_endLoad p
  | definePoint id pt loading _ _ => exact lights_at_rest tables rfl (by simp [loading]) (by simp [loading])
  | defineDistrict id lamp loading _ => exact lights_at_rest tables rfl (by simp [loading]) (by simp [loading])
  | defineSegment id d tier cs pr vs loading _ => exact lights_at_rest tables rfl (by simp [loading]) (by simp [loading])
  | defineCrew id kind home state loading _ _ => exact lights_at_rest tables rfl (by simp [loading]) (by simp [loading])
  | editSegment id s cs pr _ _ _ _ => exact lights_onSegment id (fun s => { s with customers := cs, priority := pr }) (fun _ => rfl) p
  | noGasCall s _ => exact lights_noGasCall s p
  | mergeCall id i c _ hi _ => exact lights_mergeCall c hi
  | openIncident id c _ _ entry _ => exact lights_openIncident c entry
  | closeIncident id i _ hi _ => exact (lights_closeIncident hi).trans (mild_dispatchDecide _).lights
  | acceptOffer id c j _ _ _ _ => exact lights_acceptOffer id j p
  | assignCrew id c j _ _ _ _ => exact lights_assignCrew id j p
  | crewClears id c _ _ _ => exact lights_crewClears id c p
  | purgeSegment id s _ _ _ => exact lights_purgeSegment id s p
  | relightSegment id s n _ _ _ => exact lights_relightSegment id s n p
  | dismiss id o _ ho ended => exact lights_dismiss ho ended
  | clearSuspect id s _ _ =>
    have cleared := lights_onSegment id (fun s => { s with noGas := [] }) (fun _ => rfl) p
    split
    · exact cleared.then (lights_setSuspect id false)
    · exact cleared

/-- An event has left the lamp conditions those of the records, and the horn SOUNDING if one rose into FAST. -/
def Glows (p q : Part) : Prop := p.tablesOk → Lit p → Lit q ∧ ∀ n, n < 32 →
  p.panel.conditions.getD n .off ≠ .fast → q.panel.conditions.getD n .off = .fast → q.panel.horn = true

theorem Lights.glows (h : Lights p q) : Glows p q := fun t lit =>
  ⟨h.lit t lit, h.shines.rise (by rw [show p.panel.conditions = _ from lit]; exact lampConditions_length p)⟩

theorem Silenced.glows (h : Silenced p q) : Glows p q := by
  obtain ⟨horn, pack, rfl⟩ := h
  exact fun _ lit => ⟨lit.trans (SameLamps.conditions (p := p) ⟨rfl, rfl, fun _ _ => rfl, rfl, rfl, rfl⟩).symm,
    fun _ _ slow fast => absurd fast slow⟩

theorem Relinked.lights (h : Relinked p q) : Lights p q := by
  obtain ⟨l, state, rfl⟩ := h
  exact lights_of_conditions (fun t => t) rfl fun _ => SameLamps.conditions ⟨rfl, rfl, fun _ _ => rfl, rfl, rfl, state⟩

/-- What an event shows stays so when the link alone changes before it and after it. -/
theorem Glows.relinked (before : Relinked p q) {s : Part} (h : Glows q r) (after : Relinked r s) : Glows p s := by
  intro t lit
  obtain ⟨lit', rise⟩ := h (before.lights.tables t) (before.lights.lit t lit)
  obtain ⟨l, state, rfl⟩ := before
  obtain ⟨m, state', rfl⟩ := after
  exact ⟨lit'.trans (SameLamps.conditions (p := r) (q := r.withLink m) ⟨rfl, rfl, fun _ _ => rfl, rfl, rfl, state'⟩).symm, rise⟩

theorem Acts.glows (h : Acts p q) : Glows p q := by
  rcases acts_cases h with mild | silenced | acts
  · exact mild.lights.glows
  · exact silenced.glows
  · exact (lights_recordActs (serves_of_acts h).tables acts).glows

theorem Timed.glows (h : Timed p q) : Glows p q := by
  rcases timed_cases h with mild | silenced | rfl
  · exact mild.lights.glows
  · exact silenced.glows
  · unfold Machine.traceEnds
    split
    · exact (lights_completeTrace _ _ p).glows
    · exact (Lights.refl p).glows

theorem released_glows (p : Part) (c : ResetCause) (r e l : Nat) : Glows p (Part.released c r e l) := by
  refine fun _ _ => ⟨released_conditions c r e l, fun n lt _ fast => ?_⟩
  have off : (Part.released c r e l).panel.conditions = List.replicate 32 .off := by
    rw [released_conditions]
    exact conditions_at_rest (by simp [Part.released])
  rw [off, List.getD_eq_getElem _ _ (by rw [List.length_replicate]; exact lt), List.getElem_replicate] at fast
  cases fast

/-- Every event leaves the lamps as the records have them (R175, R178). -/
theorem Happens.glows (h : Happens p q) : Glows p q := by
  rcases happens_once h with same | ⟨a, b, before, act, after⟩ | timed | ⟨c, r, e, l, rfl⟩
  · exact same.lights.glows
  · exact Glows.relinked before act.glows after
  · exact timed.glows
  · exact released_glows p c r e l

end

end Sys2Proof.Proofs
end

section
/-!
The panel (10, sections 10.1 to 10.3): what the lamps show of the records, the panel requests, and the PACK input.
-/

namespace Sys2Proof.Proofs

open Sys2Proof Sys2Proof.Machine

section
variable {p : Part}

/-! ## What the lamps show (R175, R176) -/

theorem isRunning_iff : p.isRunning = true ↔ p.link.partState = .running := decide_eq_true_iff

theorem lampConditions_getD {n : Nat} (h : n < 32) (p : Part) : p.lampConditions.getD n .off = p.lampCondition n := by
  rw [List.getD_eq_getElem _ _ (by rw [lampConditions_length]; exact h)]
  simp [Part.lampConditions]

theorem pressureIn_iff (w : p.points.wf 256 = true) (d : Nat) (f : PressureState → Bool) : p.pressureIn d f = true ↔
    ∃ id pt seg c st, p.points.get? id = some pt ∧ pt.district = d ∧ pt.body = .pressure seg c st ∧ f st = true := by
  rw [Part.pressureIn, any_iff w]
  refine exists_congr fun id => exists_congr fun pt => ?_
  cases body : pt.body with
  | pressure seg c st => simp
  | discrete st => simp

theorem activeIn_iff (t : p.tablesOk) (d : Nat) (f : Outage → Bool) :
    (p.outages.any fun id o => o.ended.isNone && f o && p.memberIn id d) = true ↔
    ∃ o x id y, p.outages.get? o = some x ∧ x.ended = none ∧ f x = true ∧ p.segments.get? id = some y ∧
      y.outage = some o ∧ y.district = d := by
  obtain ⟨_, ws, _, _, _, wo⟩ := tables_wf t
  rw [any_iff wo]
  refine exists_congr fun o => exists_congr fun x => ?_
  simp only [Bool.and_eq_true, Option.isNone_iff_eq_none, memberIn_iff ws]
  constructor
  · rintro ⟨hx, ⟨active, fx⟩, id, y, hy, joined, here⟩
    exact ⟨id, y, hx, active, fx, hy, joined, here⟩
  · rintro ⟨id, y, hx, active, fx, hy, joined, here⟩
    exact ⟨hx, ⟨active, fx⟩, id, y, hy, joined, here⟩

/-- The district that uses a lamp, when one alone does. -/
theorem districtOfLamp_alone {n d : Nat} {r : District} (w : p.districts.wf 32 = true) (hr : p.districts.get? d = some r)
    (lamp : r.lamp = n) (alone : ∀ e r', p.districts.get? e = some r' → r'.lamp = n → e = d) :
    p.districtOfLamp n = some d := by
  cases found : p.districtOfLamp n with
  | none =>
    have listed := (mem_idsWhere w (f := fun _ (r : District) => decide (r.lamp = n))).mpr ⟨r, hr, decide_eq_true lamp⟩
    rw [List.head?_eq_none_iff.mp found] at listed
    cases listed
  | some e =>
    obtain ⟨⟨r', hr', here⟩, _⟩ := head?_idsWhere w found
    rw [alone e r' hr' (of_decide_eq_true here)]

theorem districtOfLamp_none {n : Nat} (w : p.districts.wf 32 = true)
    (none_ : ∀ d r, p.districts.get? d = some r → r.lamp ≠ n) : p.districtOfLamp n = none := by
  cases found : p.districtOfLamp n with
  | none => rfl
  | some e =>
    obtain ⟨⟨r, hr, here⟩, _⟩ := head?_idsWhere w found
    exact absurd (of_decide_eq_true here) (none_ e r hr)

/-- Three tests in order: what the lamp shows by them. -/
theorem lamp_of_tests {F S L : Bool} {fast steady slow : Prop} (hf : F = true ↔ fast) (hs : S = true ↔ steady)
    (hl : L = true ↔ slow) : let shown := if F then Lamp.fast else if S then .steady else if L then .slow else .off
    (shown = .fast ↔ fast) ∧ (shown = .steady ↔ ¬fast ∧ steady) ∧ (shown = .slow ↔ ¬fast ∧ ¬steady ∧ slow) := by
  rw [← hf, ← hs, ← hl]
  cases F <;> cases S <;> cases L <;> decide

theorem common_offline (w : p.outstations.wf 64 = true) :
    let offline := ∃ os o, p.outstations.get? os = some o ∧ o.comm = .offline
    (p.commonLamp 1 = .fast ↔ offline) ∧ p.commonLamp 1 ≠ .steady ∧
      (p.commonLamp 1 = .slow ↔ ¬offline ∧ ∃ os o, p.outstations.get? os = some o ∧ o.comm = .suspect) := by
  have test (c : CommState) : (p.outstations.any fun _ o => decide (o.comm = c)) = true ↔
      ∃ os o, p.outstations.get? os = some o ∧ o.comm = c := by
    rw [any_iff w]
    simp only [decide_eq_true_eq]
  obtain ⟨fast, _, slow⟩ := lamp_of_tests (test .offline) (S := false) (steady := False) (by simp) (test .suspect)
  refine ⟨fast, ?_, slow.trans (and_congr_right fun _ => by simp)⟩
  simp only [Part.commonLamp]
  split
  · decide
  · split <;> decide

theorem common_gradeA (w : p.register.incidents.wf 128 = true) : (p.commonLamp 2 = .steady ↔
      ∃ id i, p.register.incidents.get? id = some i ∧ i.state = .opened ∧ i.grade = .a) ∧
    (p.commonLamp 2 ≠ .steady → p.commonLamp 2 = .off) := by
  have test : (p.register.incidents.any fun _ i => decide (i.state = .opened) && decide (i.grade = .a)) = true ↔
      ∃ id i, p.register.incidents.get? id = some i ∧ i.state = .opened ∧ i.grade = .a := by
    rw [any_iff w]
    simp only [Bool.and_eq_true, decide_eq_true_eq]
  rw [← test]
  simp only [Part.commonLamp]
  split
  next here => exact ⟨by simp [here], fun h => absurd rfl h⟩
  next here => exact ⟨by simp [here], fun _ => rfl⟩

end

end Sys2Proof.Proofs
end

section
/-!
The panel's requests and inputs (10, sections 10.2 and 10.3), and the district lamps (R175).
-/

namespace Sys2Proof.Proofs

open Sys2Proof Sys2Proof.Machine

section
variable {p : Part}

/-- What the lamp of a district shows, by what there is in it (R175). -/
theorem districtCondition_spec (t : p.tablesOk) (d : Nat) :
    let incident := fun (f : Incident → Prop) => ∃ id i, p.register.incidents.get? id = some i ∧ i.district = d ∧ f i
    let outage := fun (f : Outage → Prop) => ∃ o x id y, p.outages.get? o = some x ∧ x.ended = none ∧ f x ∧
      p.segments.get? id = some y ∧ y.outage = some o ∧ y.district = d
    let pressure := fun (f : PressureState → Prop) => ∃ id pt seg c st, p.points.get? id = some pt ∧
      pt.district = d ∧ pt.body = .pressure seg c st ∧ f st
    let fast := incident (fun i => (i.state = .opened ∨ i.state = .assigned) ∧ 1 ≤ i.level) ∨
      pressure (fun st => st.lowSeen = true ∨ st.band = .highTrip)
    let steady := incident (fun i => (i.state = .opened ∨ i.state = .assigned) ∧ i.grade = .a) ∨
      outage (fun x => 0 < x.priorityOff)
    let slow := incident (fun i => i.state ≠ .closed) ∨ outage (fun _ => True) ∨
      (∃ id y, p.segments.get? id = some y ∧ y.district = d ∧ y.suspect = true) ∨
      pressure (fun st => st.band = .low ∨ st.band = .high)
    (p.districtCondition d = .fast ↔ fast) ∧ (p.districtCondition d = .steady ↔ ¬fast ∧ steady) ∧
      (p.districtCondition d = .slow ↔ ¬fast ∧ ¬steady ∧ slow) := by
  intro incident outage pressure fast steady slow
  obtain ⟨wp, ws, _, wi, _, _⟩ := tables_wf t
  have incidents (f : Incident → Bool) : (p.register.incidents.any fun _ i => decide (i.district = d) && f i) = true ↔
      incident fun i => f i = true := by
    rw [any_iff wi]
    simp only [Bool.and_eq_true, decide_eq_true_eq]
    rfl
  have segments : (p.segments.any fun _ s => decide (s.district = d) && s.suspect) = true ↔
      ∃ id y, p.segments.get? id = some y ∧ y.district = d ∧ y.suspect = true := by
    rw [any_iff ws]
    simp only [Bool.and_eq_true, decide_eq_true_eq]
  refine lamp_of_tests ?_ ?_ ?_
  · rw [Bool.or_eq_true, incidents, pressureIn_iff wp]
    simp only [Incident.unreached, Bool.and_eq_true, Bool.or_eq_true, decide_eq_true_eq]
    rfl
  · rw [Bool.or_eq_true, incidents, activeIn_iff t]
    simp only [Incident.unreached, Bool.and_eq_true, Bool.or_eq_true, decide_eq_true_eq]
    rfl
  · rw [Bool.or_eq_true, Bool.or_eq_true, Bool.or_eq_true, incidents, activeIn_iff t, segments, pressureIn_iff wp]
    simp only [Bool.or_eq_true, decide_eq_true_eq, bne_iff_ne, or_assoc]
    rfl

/-! ## The requests (R177, R178) -/

theorem lampForceRule_act {lamp force : Nat} (hl : lamp < 36) (hf : force ≤ 4) (attended : p.unattended = false) :
    lampForceRule.act [byte lamp, byte force] p = ⟨.ok, [byte (((p.panel.forces.get? lamp).map Lamp.code).getD 0)],
      p.onPanel fun a => { a with forces := setForce lamp (forceOf force) a.forces }⟩ := by
  have lamp_eq : u8 [byte lamp, byte force] 0 = lamp := Nat.mod_eq_of_lt (by omega)
  have force_eq : u8 [byte lamp, byte force] 1 = force := Nat.mod_eq_of_lt (by omega)
  simp only [lampForceRule, lamp_eq, force_eq]
  rw [if_neg (by simp; omega), attended]
  rfl

theorem lampTestRule_act (attended : p.unattended = false) (off : p.panel.testEnd = none) :
    lampTestRule.act [] p = ⟨.ok, [], p.onPanel fun a => { a with testEnd := some (p.time + 5) }⟩ := by
  simp only [lampTestRule, attended, off]
  rfl

/-! ## The PACK input (R178) -/

theorem packHeld_low {since : Nat} (h : p.panel.pack = .low since) : p.packHeld = decide (since + 1920 ≤ p.clock) := by
  rw [Part.packHeld, h]
  rfl

theorem packHeld_not_low (h : ∀ since, p.panel.pack ≠ .low since) : p.packHeld = false := by
  cases pack : p.panel.pack with
  | low since => exact absurd pack (h since)
  | spent => rw [Part.packHeld, pack]
  | high => rw [Part.packHeld, pack]

theorem packAcknowledged_held (running : p.link.partState = .running) (held : p.packHeld = true) :
    packAcknowledged p = p.onPanel fun a => { a with horn := false, pack := .spent } := by
  rw [packAcknowledged, isRunning_iff.mpr running, held]
  rfl

theorem packAcknowledged_unheld (h : p.packHeld = false) : packAcknowledged p = p := by
  rw [packAcknowledged, h, Bool.and_false]
  rfl

theorem packAcknowledged_resting (h : p.link.partState ≠ .running) : packAcknowledged p = p := by
  rw [packAcknowledged, Part.isRunning, decide_eq_false h]
  rfl

theorem packRises_running (running : p.link.partState = .running) :
    packRises p = (packAcknowledged p).onPanel fun a => { a with pack := .high } := by
  rw [packRises, isRunning_iff.mpr running]
  rfl

end

end Sys2Proof.Proofs
end

section
/-!
The panel as a whole: its requests, the PACK input, and what the lamps show after every step.
-/

namespace Sys2Proof.Proofs

open Sys2Proof Sys2Proof.Machine

section
variable {s : State}

/-- The requests of the panel, and the end of a lamp test (R177, R178). -/
theorem panel_requests (tag : Byte) (s : State) :
    (∀ lamp force, s.ready → s.part.unattended = false → lamp < 36 → force ≤ 4 →
      let p := s.begun 0x2B tag [byte lamp, byte force]
      exec (.lampForce tag [byte lamp, byte force]) s = .next (s.answered { p with panel := { p.panel with
        forces := match forceOf force with
          | none => p.panel.forces.erase lamp
          | some f => p.panel.forces.set lamp f } } .ok
        [byte (((p.panel.forces.get? lamp).map Lamp.code).getD 0)])) ∧
    (s.ready → s.part.unattended = false → s.part.panel.testEnd = none →
      let p := s.begun 0x2C tag []
      exec (.lampTest tag []) s =
        .next (s.answered { p with panel := { p.panel with testEnd := some (p.time + 5) } } .ok [])) ∧
    (s.ready →
      let p := s.begun 0x2D tag []
      exec (.silence tag []) s =
        .next (s.answered { p with panel := { p.panel with horn := false } } .ok [flag p.panel.horn])) ∧
    (∀ t, s.part.panel.testEnd = some t →
      (t ≤ s.part.time → exec .lampTestExpiry s =
        .next (s.withPart { s.part with panel := { s.part.panel with testEnd := none } })) ∧
      (s.part.time < t → exec .lampTestExpiry s = .next s)) := by
  refine ⟨fun lamp force ready attended hl hf => ?_, fun ready attended off => ?_, fun ready => ?_,
    fun t test => ⟨fun due => ?_, fun early => ?_⟩⟩
  · exact request_ok (h := lampForceRule) rfl tag ready.1 rfl (decide_eq_true ready.2)
      (lampForceRule_act (p := s.begun 0x2B tag [byte lamp, byte force]) hl hf attended)
  · exact request_ok (h := lampTestRule) rfl tag ready.1 rfl (decide_eq_true ready.2)
      (lampTestRule_act (p := s.begun 0x2C tag []) attended off)
  · exact request_ok (h := silenceRule) rfl tag ready.1 rfl (decide_eq_true ready.2) rfl
  · show Host.Outcome.next (s.withPart (testEnds s.part)) = _
    rw [testEnds, test, reached_some, if_pos (decide_eq_true due)]
    rfl
  · show Host.Outcome.next (s.withPart (testEnds s.part)) = _
    rw [testEnds, test, reached_some, if_neg (by simpa using early)]
    rfl

/-- The PACK input (R178). -/
theorem pack_events (s : State) :
    let panel := s.part.panel
    let shows := fun (a : Panel) => Host.Outcome.next (s.withPart { s.part with panel := a })
    (s.part.link.partState = .running →
      (panel.pack = .high → exec .packLowLevel s = shows { panel with pack := .low s.part.clock }) ∧
      (panel.pack ≠ .high → exec .packLowLevel s = .next s) ∧
      (∀ since, panel.pack = .low since →
        (since + 1920 ≤ s.part.clock → exec .packAcknowledge s = shows { panel with horn := false, pack := .spent } ∧
          exec .packReturnHigh s = shows { panel with horn := false, pack := .high }) ∧
        (s.part.clock < since + 1920 → exec .packAcknowledge s = .next s ∧
          exec .packReturnHigh s = shows { panel with pack := .high })) ∧
      ((∀ since, panel.pack ≠ .low since) → exec .packAcknowledge s = .next s ∧
        exec .packReturnHigh s = shows { panel with pack := .high })) ∧
    (s.part.link.partState ≠ .running →
      exec .packLowLevel s = .next s ∧ exec .packAcknowledge s = .next s ∧ exec .packReturnHigh s = .next s) := by
  intro panel shows
  have falls {q : Part} (h : packFalls s.part = q) : exec .packLowLevel s = .next (s.withPart q) := by subst h; rfl
  have acknowledges {q : Part} (h : packAcknowledged s.part = q) : exec .packAcknowledge s = .next (s.withPart q) := by
    subst h; rfl
  have returns {q : Part} (h : packRises s.part = q) : exec .packReturnHigh s = .next (s.withPart q) := by subst h; rfl
  refine ⟨fun running => ⟨fun high => falls ?_, fun low => falls ?_, fun since low => ⟨fun long => ?_, fun short => ?_⟩,
    fun quiet => ?_⟩, fun resting => ⟨falls ?_, acknowledges (packAcknowledged_resting resting), returns ?_⟩⟩
  · rw [packFalls, isRunning_iff.mpr running, high]
    rfl
  · rw [packFalls, isRunning_iff.mpr running, decide_eq_false low]
    rfl
  · have held := packAcknowledged_held running ((packHeld_low low).trans (decide_eq_true long))
    exact ⟨acknowledges held, returns (by rw [packRises_running running, held]; rfl)⟩
  · have held := packAcknowledged_unheld ((packHeld_low low).trans (decide_eq_false (Nat.not_le.mpr short)))
    exact ⟨acknowledges held, returns (by rw [packRises_running running, held]; rfl)⟩
  · have held := packAcknowledged_unheld (packHeld_not_low quiet)
    exact ⟨acknowledges held, returns (by rw [packRises_running running, held]; rfl)⟩
  · rw [packFalls, Part.isRunning, decide_eq_false resting]
    rfl
  · rw [packRises, Part.isRunning, decide_eq_false resting]
    rfl

theorem lampShown_untested {p : Part} {lamp : Nat} (running : p.link.partState = .running) (off : p.panel.testEnd = none) :
    p.lampShown lamp = match p.panel.forces.get? lamp with
      | some f => f
      | none => if lamp < 32 then p.panel.conditions.getD lamp .off else p.commonLamp (lamp - 32) := by
  rw [Part.lampShown, isRunning_iff.mpr running, off]
  rfl

end

/-- Settles O58: the requests and the inputs by their rules, the conditions by the classes of operations of every step
(`Happens.glows`), and what the lamps show by the tests of R175 in their order. -/
theorem panelCommandsAndPack : Obligations.PanelCommandsAndPack := by
  refine ⟨⟨panel_requests, pack_events⟩, fun s t tables lit hs => ?_, fun lamp p => ⟨fun resting => ?_, fun running =>
    ⟨fun test => ?_, fun f off force => ?_, fun off none_ => ⟨fun low => ?_, fun k common => ?_⟩⟩⟩,
    fun p tables running => ?_, fun n p low tables => ⟨fun resting => ?_, fun none_ => ?_,
      fun d r running hr lamp alone => ?_⟩⟩
  · rcases step_happens hs with event | time
    · obtain ⟨lit', rise⟩ := event.glows tables lit
      exact ⟨lit', fun ⟨n, lt, slow, fast⟩ => rise n lt slow fast⟩
    · rw [time]
      exact ⟨lit, fun ⟨n, _, slow, fast⟩ => absurd fast slow⟩
  · rw [Part.lampShown, Part.isRunning, decide_eq_false resting]
    rfl
  · rw [Part.lampShown, isRunning_iff.mpr running, test]
    rfl
  · rw [lampShown_untested running off, force]
  · rw [lampShown_untested running off, none_]
    exact if_pos low
  · subst common
    rw [lampShown_untested running off, none_, Nat.add_sub_cancel_left]
    exact if_neg (by omega)
  · obtain ⟨wo, _, _, _, _, _, _, _, wi, _⟩ := tables
    obtain ⟨gradeA, other⟩ := common_gradeA (p := p) wi
    obtain ⟨offline, steady, slow⟩ := common_offline wo
    refine ⟨rfl, offline, steady, slow, gradeA, other, ?_⟩
    simp only [Part.commonLamp, isRunning_iff.mpr running, Bool.and_true, decide_eq_true_eq]
  · rw [lampConditions_getD low, Part.lampCondition, Part.isRunning, decide_eq_false resting]
    rfl
  · obtain ⟨_, _, w, _⟩ := tables_wf tables
    rw [lampConditions_getD low, Part.lampCondition, districtOfLamp_none w none_]
    exact ite_self _
  · obtain ⟨_, _, w, _⟩ := tables_wf tables
    rw [lampConditions_getD low, Part.lampCondition, isRunning_iff.mpr running, districtOfLamp_alone w hr lamp alone]
    exact districtCondition_spec tables d

end Sys2Proof.Proofs
end

section
/-!
Records in agreement (R78, R128 to R130, R142, R145, R160 to R164): the parts of the agreement, each as sums over a table
or as facts of single records, and what mild operations keep of them.
-/

namespace Sys2Proof.Proofs

open Sys2Proof Sys2Proof.Machine

section
variable {p q : Part}

/-! ## Outages and their members (R160, R164) -/

/-- A number summed over the members of an outage. -/
def held (t : Table Segment) (o : Nat) (g : Segment → Nat) : Nat := tally t fun _ x => if x.outage = some o then g x else 0

theorem membersOf_sum (o : Nat) (g : Segment → Nat) : ((p.membersOf o).map g).sum = held p.segments o g := by
  simp only [Part.membersOf, held, tally]
  induction p.segments.entries with
  | nil => rfl
  | cons e es ih => by_cases h : e.2.outage = some o <;> simp [h, ih]

theorem membersOf_length (o : Nat) : (p.membersOf o).length = held p.segments o fun _ => 1 := by
  rw [← membersOf_sum]
  simp

/-- An outage's counts are the sums over its members. -/
structure Sums (t : Table Segment) (o : Nat) (r : Outage) : Prop where
  members : r.members = held t o fun _ => 1
  off : r.customersOff = held t o (·.customers)
  priority : r.priorityOff = held t o (·.priority)
  relit : r.customersRelit = held t o (·.relit)

/-- What a segment's record says by itself: it is in an outage while it is not SUPPLIED, and only premises of PURGED and
RELIGHTING segments are relit. -/
structure Sound (x : Segment) : Prop where
  member : x.outage.isSome = true ↔ x.supply ≠ .supplied
  few : x.relit ≤ x.customers
  relit : x.relit ≠ 0 → x.supply = .purged ∨ x.supply = .relighting

theorem held_pos {t : Table Segment} {n k o : Nat} {x : Segment} (w : t.wf n = true) (hx : t.get? k = some x)
    (joined : x.outage = some o) : 0 < held t o fun _ => 1 := by
  have erased := tally_erase (g := fun _ x => if x.outage = some o then 1 else 0) w hx
  simp only [joined, if_true] at erased
  rw [held]
  omega

theorem outagesAgree_iff (w : p.segments.wf 512 = true) : p.OutagesAgree ↔
    (∀ id x, p.segments.get? id = some x → Sound x) ∧
    (∀ id x o, p.segments.get? id = some x → x.outage = some o → ∃ r, p.outages.get? o = some r) ∧
    ∀ o r, p.outages.get? o = some r → Sums p.segments o r ∧ (r.ended = none ↔ r.members ≠ 0) := by
  constructor
  · rintro ⟨member, active, relit, sums, ended⟩
    refine ⟨fun id x hx => ⟨member id x hx, (relit id x hx).1, (relit id x hx).2⟩, fun id x o hx joined => ?_,
      fun o r hr => ⟨?_, ended o r hr⟩⟩
    · obtain ⟨r, hr, _⟩ := active id x o hx joined
      exact ⟨r, hr⟩
    · obtain ⟨members, off, priority, relit⟩ := sums o r hr
      exact ⟨by rw [members, membersOf_length], by rw [off, membersOf_sum], by rw [priority, membersOf_sum],
        by rw [relit, membersOf_sum]⟩
  · rintro ⟨sound, present, sums⟩
    refine ⟨fun id x hx => (sound id x hx).member, fun id x o hx joined => ?_,
      fun id x hx => ⟨(sound id x hx).few, (sound id x hx).relit⟩, fun o r hr => ?_, fun o r hr => (sums o r hr).2⟩
    · obtain ⟨r, hr⟩ := present id x o hx joined
      obtain ⟨counts, active⟩ := sums o r hr
      refine ⟨r, hr, active.mpr ?_⟩
      have := held_pos w hx joined
      rw [counts.members]
      omega
    · obtain ⟨⟨members, off, priority, relit⟩, _⟩ := sums o r hr
      exact ⟨by rw [members, membersOf_length], by rw [off, membersOf_sum], by rw [priority, membersOf_sum],
        by rw [relit, membersOf_sum]⟩

/-- The sums are the same over segments of which the records say the same. -/
theorem Sums.congr {t u : Table Segment} {o : Nat} {r : Outage} (h : viewed segmentCore u = viewed segmentCore t)
    (sums : Sums t o r) : Sums u o r := by
  have same (g : Nat × Option Nat × SupplyState × Nat × Nat × Nat × Bool → Nat) :
      held u o (fun x => g (segmentCore x)) = held t o fun x => g (segmentCore x) := by
    have := congrArg (fun v => tally v fun _ c => if c.2.1 = some o then g c else 0) h
    rw [tally_viewed, tally_viewed] at this
    exact this
  exact ⟨sums.members.trans (same fun _ => 1).symm, sums.off.trans (same (·.2.2.2.2.1)).symm,
    sums.priority.trans (same (·.2.2.2.2.2.1)).symm, sums.relit.trans (same (·.2.2.2.1)).symm⟩

theorem Sound.of_core {x y : Segment} (h : segmentCore y = segmentCore x) (sound : Sound x) : Sound y := by
  simp only [segmentCore, Prod.mk.injEq] at h
  obtain ⟨_, outage, supply, relit, customers, _, _⟩ := h
  exact ⟨by rw [outage, supply]; exact sound.member, by rw [relit, customers]; exact sound.few,
    by rw [relit, supply]; exact sound.relit⟩

/-! ## Districts (R78) -/

/-- Every district counts its incidents that are not CLOSED. -/
def CountsIncidents (p : Part) : Prop := ∀ d r, p.districts.get? d = some r →
  r.openIncidents = p.register.incidents.count (fun _ i => decide (i.district = d ∧ i.state ≠ .closed))

/-- Every district counts the ACTIVE outages with a member in it. -/
def CountsOutages (p : Part) : Prop := ∀ d r, p.districts.get? d = some r →
  r.activeOutages = p.outages.count (fun o x => x.ended.isNone && p.memberIn o d)

/-- Every district counts its SUSPECT segments. -/
def CountsSuspects (p : Part) : Prop := ∀ d r, p.districts.get? d = some r →
  r.suspects = p.segments.count (fun _ x => decide (x.district = d) && x.suspect)

theorem districtsAgree_iff : p.DistrictsAgree ↔ CountsIncidents p ∧ CountsOutages p ∧ CountsSuspects p :=
  ⟨fun h => ⟨fun d r hr => (h d r hr).1, fun d r hr => (h d r hr).2.1, fun d r hr => (h d r hr).2.2⟩,
    fun ⟨incidents, outages, suspects⟩ d r hr => ⟨incidents d r hr, outages d r hr, suspects d r hr⟩⟩

/-! ## The records together -/

/-- The records other than those of plans agree. -/
structure Agrees (p : Part) : Prop where
  tables : p.tablesOk
  outages : p.OutagesAgree
  incidents : p.IncidentsAgree
  crews : p.CrewsAgree
  opened : CountsIncidents p
  active : CountsOutages p
  suspects : CountsSuspects p

theorem agrees_of_records (h : p.RecordsAgree) : Agrees p :=
  have ⟨opened, active, suspects⟩ := districtsAgree_iff.mp h.districts
  ⟨h.tables, h.outages, h.incidents, h.crews, opened, active, suspects⟩

theorem incidentsAgree_congr (calls : q.register.calls = p.register.calls)
    (incidents : ∀ n, (q.register.incidents.get? n).map incidentCore = (p.register.incidents.get? n).map incidentCore)
    (agree : p.IncidentsAgree) : q.IncidentsAgree := by
  obtain ⟨one, listed, named⟩ := agree
  have back {n : Nat} {i : Incident} (hi : q.register.incidents.get? n = some i) :
      ∃ j, p.register.incidents.get? n = some j ∧ incidentCore j = incidentCore i := by
    have same := incidents n
    rw [hi] at same
    exact Option.map_eq_some_iff.mp same.symm
  have state {i j : Incident} (h : incidentCore j = incidentCore i) : i.state ≠ .closed ↔ j.state ≠ .closed := by
    simp only [incidentCore, Prod.mk.injEq, decide_eq_decide] at h
    exact not_congr h.2.2.2.symm
  refine ⟨fun a b i j hi hj open_ open' seg district => ?_, fun n c hc => ?_, fun n i hi => ?_⟩
  · obtain ⟨i', hi', core⟩ := back hi
    obtain ⟨j', hj', core'⟩ := back hj
    have open_ := (state core).mp open_
    have open' := (state core').mp open'
    simp only [incidentCore, Prod.mk.injEq] at core core'
    exact one a b i' j' hi' hj' open_ open' (by rw [core.1, core'.1, seg]) fun none_ => by
      rw [core.2.1, core'.2.1, district (core.1.symm.trans none_)]
  · rw [calls] at hc
    obtain ⟨j, hj, mem, open_⟩ := listed n c hc
    have same := incidents c.incident
    rw [hj] at same
    obtain ⟨i, hi, core⟩ := Option.map_eq_some_iff.mp same
    refine ⟨i, hi, ?_, (state core).mp open_⟩
    simp only [incidentCore, Prod.mk.injEq] at core
    rw [core.2.2.1]
    exact mem
  · obtain ⟨j, hj, core⟩ := back hi
    simp only [incidentCore, Prod.mk.injEq] at core
    rw [← core.2.2.1, calls]
    exact named n j hj

/-- Mild operations keep the agreement. -/
theorem Mild.agrees (h : Mild p q) (a : Agrees p) : Agrees q := by
  have tables := h.tables a.tables
  obtain ⟨_, ws, _, wi, _, _⟩ := tables_wf a.tables
  obtain ⟨_, ws', _, wi', _, _⟩ := tables_wf tables
  have segments := viewed_eq ws ws' h.segments
  have incidents := viewed_eq wi wi' h.incidents
  refine ⟨tables, ?_, incidentsAgree_congr h.calls h.incidents a.incidents, h.crews a.tables a.crews, fun d r hr => ?_,
    fun d r hr => ?_, fun d r hr => ?_⟩
  · obtain ⟨sound, present, sums⟩ := (outagesAgree_iff ws).mp a.outages
    have back {n : Nat} {x : Segment} (hx : q.segments.get? n = some x) :
        ∃ y, p.segments.get? n = some y ∧ segmentCore y = segmentCore x := by
      have same := h.segments n
      rw [hx] at same
      exact Option.map_eq_some_iff.mp same.symm
    refine (outagesAgree_iff ws').mpr ⟨fun n x hx => ?_, fun n x o hx joined => ?_, fun o r hr => ?_⟩
    · obtain ⟨y, hy, core⟩ := back hx
      exact (sound n y hy).of_core core.symm
    · obtain ⟨y, hy, core⟩ := back hx
      rw [h.outages]
      simp only [segmentCore, Prod.mk.injEq] at core
      exact present n y o hy (core.2.1.trans joined)
    · rw [h.outages] at hr
      exact ⟨(sums o r hr).1.congr segments, (sums o r hr).2⟩
  · rw [h.districts] at hr
    rw [a.opened d r hr]
    have same := congrArg (fun t => t.count fun _ c => decide (c.2.1 = d ∧ c.2.2.2 = false)) incidents
    simpa only [count_viewed, incidentCore, decide_eq_false_iff_not] using same.symm
  · rw [h.districts] at hr
    rw [a.active d r hr, h.outages]
    have member (o : Nat) : q.memberIn o d = p.memberIn o d := by
      rw [memberIn_viewed, memberIn_viewed, lampSegments_of_core a.tables tables h.segments]
    simp only [member]
  · rw [h.districts] at hr
    rw [a.suspects d r hr]
    have same := congrArg (fun t => t.count fun _ c => decide (c.1 = d) && c.2.2.2.2.2.2) segments
    rw [count_viewed, count_viewed] at same
    exact same.symm

end

end Sys2Proof.Proofs
end

section
/-!
The agreement over calls (R78, R128 to R130): an opened and a merged incident.
-/

namespace Sys2Proof.Proofs

open Sys2Proof Sys2Proof.Machine

section
variable {p q : Part} {id : Nat} {i i' : Incident} {c : TakenCall} {slot : Option Nat}

theorem outagesAgree_congr (segments : q.segments = p.segments) (outages : q.outages = p.outages) (h : p.OutagesAgree) :
    q.OutagesAgree := by
  obtain ⟨member, active, relit, sums, ended⟩ := h
  have members (o : Nat) : q.membersOf o = p.membersOf o := by rw [Part.membersOf, segments]; rfl
  exact ⟨by rw [segments]; exact member, by rw [segments, outages]; exact active, by rw [segments]; exact relit,
    by simp only [outages, members]; exact sums, by rw [outages]; exact ended⟩

/-- The entry that an opening takes is FREE or CLOSED (R129). -/
theorem entryToOpen_unused (w : p.register.incidents.wf 128 = true) (h : p.entryToOpen = some id) :
    ∀ i, p.register.incidents.get? id = some i → i.state = .closed := by
  intro i hi
  unfold Part.entryToOpen at h
  split at h
  next k free =>
    cases h
    exact absurd hi (by rw [(Laws.firstFree_spec _ _ _ free).2]; simp)
  next =>
    obtain ⟨e, he, rfl⟩ := Option.map_eq_some_iff.mp h
    obtain ⟨j, hj, closed, _⟩ := (mem_closedTimes w).mp (Laws.pickBy_mem _ _ _ he)
    cases hi.symm.trans hj
    exact closed

theorem withSlot_calls (i : Incident) (slot : Option Nat) : (i.withSlot slot).calls = i.calls ++ slot.toList := by
  cases slot with
  | none => exact (List.append_nil _).symm
  | some n => rfl

theorem slotFor_free {n : Nat} (h : p.slotFor i.calls.length = some n) :
    p.register.calls.get? n = none ∧ i.calls.length < 16 := by
  unfold Part.slotFor at h
  split at h
  next => cases h
  next few => exact ⟨(Laws.firstFree_spec _ _ _ h).2, by omega⟩

/-- The call slots and one incident after a call: the incident that takes the call is not CLOSED, stands alone for its
segment or its district, and lists the slots it listed and the new one. -/
theorem incidentsAgree_listed (agree : p.IncidentsAgree)
    (incidents : q.register.incidents = p.register.incidents.set id i')
    (calls : ∀ n, q.register.calls.get? n = if slot = some n then some
      ⟨id, c.kind, c.grade, c.segment, c.district, c.reference, p.time⟩ else p.register.calls.get? n)
    (was : ∀ j, p.register.incidents.get? id = some j → j.calls = i.calls)
    (now : i'.calls = i.calls ++ slot.toList) (free : ∀ n, slot = some n → p.register.calls.get? n = none ∧ i.calls.length < 16)
    (named : i.calls.Nodup ∧ i.calls.length ≤ 16 ∧ ∀ n ∈ i.calls, ∃ c, p.register.calls.get? n = some c ∧ c.incident = id)
    (open_ : i'.state ≠ .closed)
    (alone : ∀ b j, b ≠ id → p.register.incidents.get? b = some j → j.state ≠ .closed → i'.segment = j.segment →
      (i'.segment = none → i'.district = j.district) → False) : q.IncidentsAgree := by
  obtain ⟨one, listed, names⟩ := agree
  obtain ⟨nodup, few, known⟩ := named
  have get (b : Nat) (j : Incident) (hj : q.register.incidents.get? b = some j) :
      (b = id ∧ j = i') ∨ (b ≠ id ∧ p.register.incidents.get? b = some j) := by
    rw [incidents, get?_set] at hj
    split at hj
    next here => exact .inl ⟨here, (Option.some.inj hj).symm⟩
    next other => exact .inr ⟨other, hj⟩
  have kept {n : Nat} {x : Call} (hx : p.register.calls.get? n = some x) : q.register.calls.get? n = some x := by
    rw [calls, if_neg, hx]
    intro taken
    rw [(free n taken).1] at hx
    cases hx
  refine ⟨fun a b x y hx hy openx openy seg district => ?_, fun n x hx => ?_, fun b j hj => ?_⟩
  · rcases get a x hx with ⟨rfl, rfl⟩ | ⟨na, hx⟩ <;> rcases get b y hy with ⟨rfl, rfl⟩ | ⟨nb, hy⟩
    · rfl
    · exact (alone b y nb hy openy seg district).elim
    · exact (alone a x na hx openx seg.symm fun none_ => (district (seg.trans none_)).symm).elim
    · exact one a b x y hx hy openx openy seg district
  · rw [calls] at hx
    split at hx
    next taken =>
      cases hx
      exact ⟨i', by rw [incidents, Laws.get?_set_same], by rw [now, taken]; simp, open_⟩
    next =>
      obtain ⟨j, hj, mem, openj⟩ := listed n x hx
      by_cases here : x.incident = id
      · refine ⟨i', by rw [incidents, here, Laws.get?_set_same], ?_, open_⟩
        rw [now, ← was j (here ▸ hj)]
        exact List.mem_append_left _ mem
      · exact ⟨j, by rw [incidents, Laws.get?_set_other _ _ _ _ here]; exact hj, mem, openj⟩
  · rcases get b j hj with ⟨rfl, rfl⟩ | ⟨_, hj⟩
    · rw [now]
      cases taken : slot with
      | none =>
        rw [Option.toList_none, List.append_nil]
        refine ⟨nodup, few, fun n mem => ?_⟩
        obtain ⟨x, hx, here⟩ := known n mem
        exact ⟨x, kept hx, here⟩
      | some n =>
        obtain ⟨unused, room⟩ := free n taken
        have fresh : n ∉ i.calls := fun mem => by
          obtain ⟨x, hx, _⟩ := known n mem
          rw [unused] at hx
          cases hx
        refine ⟨?_, ?_, fun m mem => ?_⟩
        · rw [Option.toList_some, List.nodup_append]
          refine ⟨nodup, List.nodup_singleton n, fun a ha b hb => ?_⟩
          rintro rfl
          exact fresh (List.mem_singleton.mp hb ▸ ha)
        · rw [Option.toList_some, List.length_append, List.length_singleton]
          exact room
        · rcases List.mem_append.mp mem with old | new
          · obtain ⟨x, hx, here⟩ := known m old
            exact ⟨x, kept hx, here⟩
          · cases List.mem_singleton.mp new
            exact ⟨_, by rw [calls, if_pos taken], rfl⟩
    · obtain ⟨nodup, few, known⟩ := names b j hj
      refine ⟨nodup, few, fun n mem => ?_⟩
      obtain ⟨x, hx, here⟩ := known n mem
      exact ⟨x, kept hx, here⟩

theorem fillSlot_calls (slot : Option Nat) (id : Nat) (c : TakenCall) (p : Part) (n : Nat) :
    (fillSlot slot id c p).register.calls.get? n = if slot = some n then some
      ⟨id, c.kind, c.grade, c.segment, c.district, c.reference, p.time⟩ else p.register.calls.get? n := by
  cases slot with
  | none => rfl
  | some m =>
    show (p.register.calls.set m _).get? n = _
    rw [get?_set]
    by_cases same : n = m
    · rw [if_pos same, if_pos (by rw [same])]
    · rw [if_neg same, if_neg fun h => same (Option.some.inj h).symm]

theorem countsOutages_congr (districts : ∀ d, (q.districts.get? d).map (·.activeOutages) =
    (p.districts.get? d).map (·.activeOutages)) (outages : q.outages = p.outages) (segments : q.segments = p.segments)
    (h : CountsOutages p) : CountsOutages q := by
  intro d r hr
  have same := districts d
  rw [hr] at same
  obtain ⟨r', hr', eq⟩ := Option.map_eq_some_iff.mp same.symm
  refine eq.symm.trans ((h d r' hr').trans ?_)
  rw [outages]
  simp only [Part.memberIn, segments]

theorem countsSuspects_congr (districts : ∀ d, (q.districts.get? d).map (·.suspects) = (p.districts.get? d).map (·.suspects))
    (segments : q.segments = p.segments) (h : CountsSuspects p) : CountsSuspects q := by
  intro d r hr
  have same := districts d
  rw [hr] at same
  obtain ⟨r', hr', eq⟩ := Option.map_eq_some_iff.mp same.symm
  exact eq.symm.trans ((h d r' hr').trans (by rw [segments]))

/-- An incident is open in a district. -/
def opensIn (d : Nat) (i : Incident) : Bool := decide (i.district = d ∧ i.state ≠ .closed)

theorem countsIncidents_congr (districts : ∀ d, (q.districts.get? d).map (·.openIncidents) =
    (p.districts.get? d).map (·.openIncidents))
    (incidents : ∀ d, q.register.incidents.count (fun _ => opensIn d) = p.register.incidents.count fun _ => opensIn d)
    (h : CountsIncidents p) : CountsIncidents q := by
  intro d r hr
  have same := districts d
  rw [hr] at same
  obtain ⟨r', hr', eq⟩ := Option.map_eq_some_iff.mp same.symm
  exact eq.symm.trans ((h d r' hr').trans (incidents d).symm)

/-- One incident's record is written, the same in its district and in whether it is CLOSED. -/
theorem opens_set (w : p.register.incidents.wf 128 = true) (hi : p.register.incidents.get? id = some i) {d : Nat}
    (same : opensIn d i' = opensIn d i) : (p.register.incidents.set id i').count (fun _ => opensIn d) =
      p.register.incidents.count fun _ => opensIn d := by
  rw [count_eq_tally, count_eq_tally]
  exact tally_set_eq w hi (by rw [same])

/-- An incident is written in an entry that is FREE or CLOSED. -/
theorem opens_set_unused (w : p.register.incidents.wf 128 = true)
    (unused : ∀ i, p.register.incidents.get? id = some i → i.state = .closed) (d : Nat) :
    (p.register.incidents.set id i').count (fun _ => opensIn d) =
      (p.register.incidents.count fun _ => opensIn d) + if opensIn d i' then 1 else 0 := by
  rw [count_eq_tally, count_eq_tally]
  cases hi : p.register.incidents.get? id with
  | none => exact tally_set_new hi i'
  | some i =>
    have sums := tally_set (g := fun _ i => if opensIn d i then 1 else 0) w hi i'
    have none_ : opensIn d i = false := by simp [opensIn, unused i hi]
    rw [none_] at sums
    simpa using sums

/-- A call merges (R128): its incident stays open for the same segment and district, and lists one slot more. -/
theorem agrees_listed (a : Agrees p) (hi : p.register.incidents.get? id = some i) (open_ : i.state ≠ .closed)
    (c : TakenCall) : Agrees (listed (p.slotFor i.calls.length) id (mergedIncident i c (p.slotFor i.calls.length)) c p) := by
  generalize slot_eq : p.slotFor i.calls.length = slot
  have room (n : Nat) (taken : slot = some n) := slotFor_free (slot_eq.trans taken)
  have merged : mergedIncident i c slot = { i with calls := i.calls ++ slot.toList
                                                   unlisted := (mergedIncident i c slot).unlisted
                                                   total := (mergedIncident i c slot).total
                                                   kind := (mergedIncident i c slot).kind } := by
    cases slot with
    | none => simp [mergedIncident, Incident.withSlot]
    | some n => rfl
  obtain ⟨_, _, _, wi, _, _⟩ := tables_wf a.tables
  obtain ⟨calls, filled, _⟩ := fillSlot_eq slot id c p
  have slots := fillSlot_calls slot id c p
  have incidents : (listed slot id (mergedIncident i c slot) c p).register.incidents =
      p.register.incidents.set id (mergedIncident i c slot) := by rw [listed, filled]; rfl
  refine ⟨(lights_listed slot id _ c (fun n h => slotFor_lt (slot_eq.trans h)) (.inr ⟨i, hi⟩)).tables a.tables,
    outagesAgree_congr (by rw [listed, filled]; rfl) (by rw [listed, filled]; rfl) a.outages, ?_, ?_, ?_, ?_, ?_⟩
  · refine incidentsAgree_listed a.incidents incidents slots (fun j hj => ?_) (by rw [merged]) room
      (a.incidents.named id i hi) (by rw [merged]; exact open_) fun b j other hj openj seg district => ?_
    · cases hi.symm.trans hj
      rfl
    · rw [merged] at seg district
      exact other (a.incidents.one b id j i hj hi openj open_ seg.symm fun none_ => (district (seg.trans none_)).symm)
  · refine crewsAgree_of a.crews (by rw [listed, filled]; rfl) (fun k x hx opened => ?_) fun k x hx purged =>
      ⟨x, by rw [listed, filled]; exact hx, purged⟩
    rw [incidents, get?_set]
    split
    next here =>
      subst here
      cases hi.symm.trans hx
      exact ⟨_, rfl, by rw [merged]; exact opened⟩
    next => exact ⟨x, hx, opened⟩
  · refine countsIncidents_congr (p := p) (fun d => by rw [listed, filled]; rfl) (fun d => ?_) a.opened
    rw [incidents]
    exact opens_set wi hi (by rw [merged]; rfl)
  · exact countsOutages_congr (fun d => by rw [listed, filled]; rfl) (by rw [listed, filled]; rfl)
      (by rw [listed, filled]; rfl) a.active
  · exact countsSuspects_congr (fun d => by rw [listed, filled]; rfl) (by rw [listed, filled]; rfl) a.suspects

theorem agrees_mergeCall (a : Agrees p) (hi : p.incident? id = some i) (c : TakenCall) (candidate : p.candidateFor c = some id) :
    Agrees (mergeCall id i c p).part := by
  obtain ⟨_, _, _, wi, _, _⟩ := tables_wf a.tables
  have open_ : i.state ≠ .closed := by
    rw [candidateFor_eq] at candidate
    obtain ⟨⟨j, hj, test⟩, _⟩ := head?_idsWhere wi candidate
    cases (show p.register.incidents.get? id = some i from hi).symm.trans hj
    exact (of_decide_eq_true test).1
  have told := (mild_place (.incidentMerged id c.kind c.grade c.reference
    (p.slotFor i.calls.length) (mergedIncident i c (p.slotFor i.calls.length)).kind
    (mergedIncident i c (p.slotFor i.calls.length)).total (mergedIncident i c (p.slotFor i.calls.length)).unlisted) _).agrees
    (agrees_listed a hi open_ c)
  unfold mergeCall callReply
  dsimp only
  refine (mild_dispatchDecide _).agrees ?_
  split
  · exact (mild_raiseGrade _ _ _ _ _).agrees told
  · exact told

theorem mild_confirmAtOpening (id : Nat) (p : Part) : Mild p (confirmAtOpening id p) := by
  unfold confirmAtOpening
  split
  · exact .refl p
  · split
    · split
      · exact mild_raiseGrade _ _ _ _ p
      · exact .refl p
    · exact .refl p

/-- The part with an opened incident in its entry and its district's count raised (R129). -/
def opening (id : Nat) (c : TakenCall) (p : Part) : Part :=
  (listed (p.slotFor 0) id ((openedIncident c p).withSlot (p.slotFor 0)) c p).onDistrict c.district fun d =>
    { d with openIncidents := d.openIncidents + 1 }

theorem agrees_opening (a : Agrees p) (candidate : p.candidateFor c = none) (entry : p.entryToOpen = some id) :
    Agrees (opening id c p) := by
  obtain ⟨_, _, _, wi, _, _⟩ := tables_wf a.tables
  have unused := entryToOpen_unused wi entry
  have unlisted (j : Incident) (hj : p.register.incidents.get? id = some j) : j.calls = [] := by
    refine List.eq_nil_iff_forall_not_mem.mpr fun n mem => ?_
    obtain ⟨x, hx, here⟩ := (a.incidents.named id j hj).2.2 n mem
    obtain ⟨k, hk, _, open_⟩ := a.incidents.listed n x hx
    exact open_ (unused k (here ▸ hk))
  have alone (b : Nat) (j : Incident) (hj : p.register.incidents.get? b = some j) (openj : j.state ≠ .closed)
      (seg : c.segment = j.segment) (district : c.segment = none → c.district = j.district) : False := by
    rw [candidateFor_eq, List.head?_eq_none_iff] at candidate
    have found := (mem_idsWhere wi (f := fun _ i => decide (i.state ≠ .closed ∧ i.segment = c.segment ∧
      (c.segment = none → i.district = c.district)))).mpr
      ⟨j, hj, decide_eq_true ⟨openj, seg.symm, fun none_ => (district none_).symm⟩⟩
    rw [candidate] at found
    cases found
  have opened : (openedIncident c p).withSlot (p.slotFor 0) = { openedIncident c p with
      calls := (p.slotFor 0).toList, unlisted := ((openedIncident c p).withSlot (p.slotFor 0)).unlisted } := by
    cases p.slotFor 0 <;> rfl
  have free (n : Nat) (taken : p.slotFor 0 = some n) : p.register.calls.get? n = none ∧ 0 < 16 :=
    slotFor_free (i := openedIncident c p) taken
  have room (n : Nat) (taken : p.slotFor 0 = some n) := slotFor_lt taken
  unfold opening
  generalize p.slotFor 0 = slot at opened free room ⊢
  obtain ⟨calls, filled, _⟩ := fillSlot_eq slot id c p
  have slots := fillSlot_calls slot id c p
  have incidents : (listed slot id ((openedIncident c p).withSlot slot) c p).register.incidents =
      p.register.incidents.set id ((openedIncident c p).withSlot slot) := by rw [listed, filled]; rfl
  have districts : (listed slot id ((openedIncident c p).withSlot slot) c p).districts = p.districts := by
    rw [listed, filled]; rfl
  have counted {γ : Type} {v : District → γ} (same : ∀ r : District, v { r with openIncidents := r.openIncidents + 1 } = v r)
      (d : Nat) : ((p.districts.modify c.district fun r => { r with openIncidents := r.openIncidents + 1 }).get? d).map v =
        (p.districts.get? d).map v := view_modify (fun r _ => same r) d
  refine ⟨((lights_listed slot id _ c room (entryToOpen_spec entry)).then
    (lights_onDistrict c.district (fun d => { d with openIncidents := d.openIncidents + 1 }) fun _ => rfl)).tables a.tables,
    outagesAgree_congr (by rw [listed, filled]; rfl) (by rw [listed, filled]; rfl) a.outages, ?_, ?_, ?_, ?_, ?_⟩
  · exact incidentsAgree_listed (i := openedIncident c p) a.incidents incidents slots unlisted (by rw [opened]; rfl) free
      ⟨List.nodup_nil, Nat.zero_le _, fun n mem => nomatch mem⟩ (by rw [opened]; simp [openedIncident]) fun b j _ hj openj seg district => by
        rw [opened] at seg district
        exact alone b j hj openj seg district
  · refine crewsAgree_of a.crews (by rw [listed, filled]; rfl) (fun k x hx opened => ?_) fun k x hx purged =>
      ⟨x, by rw [listed, filled]; exact hx, purged⟩
    refine ⟨x, ?_, opened⟩
    show (listed slot id ((openedIncident c p).withSlot slot) c p).register.incidents.get? k = some x
    rw [incidents, Laws.get?_set_other _ _ _ _ ?_]
    · exact hx
    · rintro rfl
      rw [unused x hx] at opened
      cases opened
  · intro d r hr
    have isOpen : opensIn d ((openedIncident c p).withSlot slot) = decide (c.district = d) := by
      rw [opened]
      simp [opensIn, openedIncident]
    have counts := opens_set_unused (i' := (openedIncident c p).withSlot slot) wi unused d
    rw [isOpen] at counts
    replace hr : (p.districts.modify c.district fun r => { r with openIncidents := r.openIncidents + 1 }).get? d = some r := by
      rw [← districts]; exact hr
    rw [get?_modify] at hr
    obtain ⟨r', hr', eq⟩ := Option.map_eq_some_iff.mp hr
    have before : r'.openIncidents = p.register.incidents.count fun _ => opensIn d := a.opened d r' hr'
    show r.openIncidents = (listed slot id _ c p).register.incidents.count fun _ => opensIn d
    rw [incidents, counts, ← before, ← eq]
    by_cases here : d = c.district
    · simp [here]
    · simp [here, Ne.symm here]
  · exact countsOutages_congr (p := p) (fun d => by rw [Part.onDistrict, districts]; exact counted (fun _ => rfl) d)
      (by rw [listed, filled]; rfl) (by rw [listed, filled]; rfl) a.active
  · exact countsSuspects_congr (p := p) (fun d => by rw [Part.onDistrict, districts]; exact counted (fun _ => rfl) d)
      (by rw [listed, filled]; rfl) a.suspects

theorem agrees_openIncident (a : Agrees p) (candidate : p.candidateFor c = none) (entry : p.entryToOpen = some id) :
    Agrees (openIncident id c p).part := by
  have opened := agrees_opening a candidate entry
  unfold openIncident callReply
  dsimp only
  exact (mild_dispatchDecide _).agrees ((mild_confirmAtOpening id _).agrees ((mild_place _ _).agrees opened))

end

end Sys2Proof.Proofs
end

section
/-!
The agreement over the end of an incident (R142), and over what crews take and leave (R150 to R155).
-/

namespace Sys2Proof.Proofs

open Sys2Proof Sys2Proof.Machine

section
variable {p q : Part} {id : Nat} {i i' : Incident} {j : Job}

/-- An item ends, and the crew with it is freed (R156). -/
theorem crewsAgree_endJob (h : p.CrewsAgree) (w : p.dispatch.crews.wf 48 = true) {told : Part}
    (same : told.dispatch = p.dispatch) (dispatch : q.dispatch = (endJob j told).dispatch)
    (waits : ∀ i, i ≠ j → awaits p i → awaits q i) : q.CrewsAgree := by
  obtain ⟨one, _⟩ := crewsAgree_iff.mp h
  have one' : OneCrew told := by
    unfold OneCrew
    rw [same]
    exact one
  refine crewsAgree_ended h j (fun k => ?_) waits
  rw [dispatch, endJob_get? (by rw [same]; exact w) one', same]

/-- An incident is CLOSED and lists no call, and its slots are free (R142). -/
theorem incidentsAgree_closed (agree : p.IncidentsAgree) (hi : p.register.incidents.get? id = some i)
    (incidents : q.register.incidents = p.register.incidents.set id i') (shut : i'.state = .closed) (none_ : i'.calls = [])
    (calls : q.register.calls = i.calls.foldl (fun t slot => t.erase slot) p.register.calls) : q.IncidentsAgree := by
  obtain ⟨one, listed, names⟩ := agree
  have get (b : Nat) (x : Incident) (hx : q.register.incidents.get? b = some x) :
      (b = id ∧ x = i') ∨ (b ≠ id ∧ p.register.incidents.get? b = some x) := by
    rw [incidents, get?_set] at hx
    split at hx
    next here => exact .inl ⟨here, (Option.some.inj hx).symm⟩
    next other => exact .inr ⟨other, hx⟩
  have slot (n : Nat) : q.register.calls.get? n = if n ∈ i.calls then none else p.register.calls.get? n := by
    rw [calls, eraseAll_get?]
  refine ⟨fun a b x y hx hy openx openy seg district => ?_, fun n c hc => ?_, fun b x hx => ?_⟩
  · rcases get a x hx with ⟨_, rfl⟩ | ⟨_, hx⟩
    · exact absurd shut openx
    · rcases get b y hy with ⟨_, rfl⟩ | ⟨_, hy⟩
      · exact absurd shut openy
      · exact one a b x y hx hy openx openy seg district
  · rw [slot] at hc
    split at hc
    · cases hc
    · next left =>
      obtain ⟨x, hx, mem, open_⟩ := listed n c hc
      have other : c.incident ≠ id := fun here => by
        rw [here] at hx
        cases hi.symm.trans hx
        exact left mem
      exact ⟨x, by rw [incidents, Laws.get?_set_other _ _ _ _ other]; exact hx, mem, open_⟩
  · rcases get b x hx with ⟨_, rfl⟩ | ⟨other, hx⟩
    · rw [none_]
      exact ⟨List.nodup_nil, Nat.zero_le _, fun n mem => nomatch mem⟩
    · obtain ⟨nodup, few, known⟩ := names b x hx
      refine ⟨nodup, few, fun n mem => ?_⟩
      obtain ⟨c, hc, here⟩ := known n mem
      refine ⟨c, ?_, here⟩
      rw [slot, if_neg, hc]
      intro mine
      obtain ⟨c', hc', there⟩ := (names id i hi).2.2 n mine
      cases hc.symm.trans hc'
      exact other (here.symm.trans there)

theorem agrees_closeIncident (a : Agrees p) (hi : p.incident? id = some i) (open_ : i.state ≠ .closed) :
    Agrees (closeIncident id i p) := by
  obtain ⟨_, _, _, wi, wc, _⟩ := tables_wf a.tables
  have hi : p.register.incidents.get? id = some i := hi
  have tables := (closeIncident_moves (show p.incident? id = some i from hi)).tables a.tables
  have spec := closeIncident_spec id i p
  generalize closeIncident id i p = q at tables spec ⊢
  obtain ⟨incidents, calls, dispatch, _, districts, _, _, _, segments, _, outages⟩ := spec
  have counted {γ : Type} {v : District → γ} (same : ∀ r : District, v { r with openIncidents := r.openIncidents - 1 } = v r)
      (d : Nat) : (q.districts.get? d).map v = (p.districts.get? d).map v := by
    rw [districts]
    exact view_modify (fun r _ => same r) d
  refine ⟨tables, outagesAgree_congr segments outages a.outages, incidentsAgree_closed a.incidents hi incidents rfl rfl calls,
    crewsAgree_endJob a.crews wc (by simp [refreshLamps]) dispatch fun k other waits => ⟨fun leak => ?_, fun relight => ?_⟩, fun d r hr => ?_,
    countsOutages_congr (counted fun _ => rfl) outages segments a.active,
    countsSuspects_congr (counted fun _ => rfl) segments a.suspects⟩
  · obtain ⟨x, hx, opened⟩ := waits.1 leak
    refine ⟨x, ?_, opened⟩
    rw [incidents, Laws.get?_set_other _ _ _ _ fun here => other ?_]
    · exact hx
    · cases k
      cases leak
      cases here
      rfl
  · rw [segments]
    exact waits.2 relight
  · have sums := tally_set (g := fun _ i => if opensIn d i then 1 else 0) wi hi
      { i with state := .closed, stateTime := p.time, nextEscalation := none, calls := [], crew := none, planLink := none }
    rw [← count_eq_tally, ← count_eq_tally] at sums
    have was : opensIn d i = decide (i.district = d) := by simp [opensIn, open_]
    have now : opensIn d { i with state := .closed, stateTime := p.time, nextEscalation := none, calls := [], crew := none, planLink := none } =
      false := by simp [opensIn]
    rw [was, now] at sums
    rw [districts, get?_modify] at hr
    obtain ⟨r', hr', eq⟩ := Option.map_eq_some_iff.mp hr
    have before : r'.openIncidents = p.register.incidents.count fun _ => opensIn d := a.opened d r' hr'
    show r.openIncidents = q.register.incidents.count fun _ => opensIn d
    rw [incidents, ← eq]
    by_cases here : d = i.district
    · subst here
      simp only [decide_true, if_true, Bool.false_eq_true, if_false, Nat.add_zero] at sums
      simp only [if_true]
      omega
    · have there : i.district ≠ d := Ne.symm here
      simp only [there, decide_false, Bool.false_eq_true, if_false, Nat.add_zero] at sums
      simp only [if_neg here]
      omega

end

end Sys2Proof.Proofs
end

section
/-!
The agreement over the writing of one segment (R160, R164).
-/

namespace Sys2Proof.Proofs

open Sys2Proof Sys2Proof.Machine

section
variable {p q : Part} {id : Nat} {x x' : Segment}

/-- The segments of a part, one of them written. -/
def Written (p q : Part) (id : Nat) (x' : Segment) : Prop :=
  ∀ n, q.segments.get? n = if n = id then some x' else p.segments.get? n

/-- An outage's counts follow the writing of one segment. -/
structure Shifted (o : Nat) (x x' : Segment) (r r' : Outage) : Prop where
  members : r'.members + (if x.outage = some o then 1 else 0) = r.members + if x'.outage = some o then 1 else 0
  off : r'.customersOff + (if x.outage = some o then x.customers else 0) =
    r.customersOff + if x'.outage = some o then x'.customers else 0
  priority : r'.priorityOff + (if x.outage = some o then x.priority else 0) =
    r.priorityOff + if x'.outage = some o then x'.priority else 0
  relit : r'.customersRelit + (if x.outage = some o then x.relit else 0) =
    r.customersRelit + if x'.outage = some o then x'.relit else 0
  ended : r'.ended = none ↔ r'.members ≠ 0

theorem Written.table (h : Written p q id x') (hx : p.segments.get? id = some x) (w : p.segments.wf 512 = true)
    (w' : q.segments.wf 512 = true) : q.segments = p.segments.set id x' :=
  table_ext w' (Laws.wf_set_used _ _ _ _ _ w hx) fun n => by rw [h n, get?_set]

theorem Written.held (h : Written p q id x') (hx : p.segments.get? id = some x) (w : p.segments.wf 512 = true)
    (w' : q.segments.wf 512 = true) (o : Nat) (g : Segment → Nat) :
    held q.segments o g + (if x.outage = some o then g x else 0) =
      held p.segments o g + if x'.outage = some o then g x' else 0 := by
  rw [h.table hx w w']
  exact tally_set w hx x'

theorem outagesAgree_written (agree : p.OutagesAgree) (w : p.segments.wf 512 = true) (w' : q.segments.wf 512 = true)
    (hx : p.segments.get? id = some x) (h : Written p q id x') (sound : Sound x')
    (stays : x'.outage = none ∨ x'.outage = x.outage)
    (known : ∀ o r, p.outages.get? o = some r → ∃ r', q.outages.get? o = some r')
    (sums : ∀ o r', q.outages.get? o = some r' → ∃ r, p.outages.get? o = some r ∧ Shifted o x x' r r') :
    q.OutagesAgree := by
  obtain ⟨sounds, present, before⟩ := (outagesAgree_iff w).mp agree
  refine (outagesAgree_iff w').mpr ⟨fun n y hy => ?_, fun n y o hy joined => ?_, fun o r' hr' => ?_⟩
  · rw [h n] at hy
    split at hy
    · cases hy; exact sound
    · exact sounds n y hy
  · have was : ∃ m z, p.segments.get? m = some z ∧ z.outage = some o := by
      rw [h n] at hy
      split at hy
      · cases hy
        rcases stays with none_ | same
        · rw [none_] at joined; cases joined
        · exact ⟨id, x, hx, same.symm.trans joined⟩
      · exact ⟨n, y, hy, joined⟩
    obtain ⟨m, z, hz, there⟩ := was
    obtain ⟨r, hr⟩ := present m z o hz there
    exact known o r hr
  · obtain ⟨r, hr, shifted⟩ := sums o r' hr'
    obtain ⟨counts, _⟩ := before o r hr
    have moved := h.held hx w w' o
    refine ⟨⟨?_, ?_, ?_, ?_⟩, shifted.ended⟩
    · have := moved fun _ => 1
      have := shifted.members
      have := counts.members
      omega
    · have := moved (·.customers)
      have := shifted.off
      have := counts.off
      omega
    · have := moved (·.priority)
      have := shifted.priority
      have := counts.priority
      omega
    · have := moved (·.relit)
      have := shifted.relit
      have := counts.relit
      omega

/-- The ACTIVE outages of the districts, as long as no outage begins or ends and no member comes or goes. -/
theorem countsOutages_of (h : CountsOutages p) (wo : p.outages.wf 64 = true) (wo' : q.outages.wf 64 = true)
    (districts : ∀ d, (q.districts.get? d).map (·.activeOutages) = (p.districts.get? d).map (·.activeOutages))
    (active : ∀ o, (q.outages.get? o).map (·.ended.isNone) = (p.outages.get? o).map (·.ended.isNone))
    (member : ∀ o d, q.memberIn o d = p.memberIn o d) : CountsOutages q := by
  intro d r hr
  have same := districts d
  rw [hr] at same
  obtain ⟨r', hr', eq⟩ := Option.map_eq_some_iff.mp same.symm
  refine eq.symm.trans ((h d r' hr').trans ?_)
  have counts := congrArg (fun t => t.count fun o b => b && p.memberIn o d) (viewed_eq wo wo' active)
  rw [count_viewed, count_viewed] at counts
  simp only [member]
  exact counts.symm

theorem Written.memberIn (h : Written p q id x') (hx : p.segments.get? id = some x) (w : p.segments.wf 512 = true)
    (w' : q.segments.wf 512 = true) (outage : x'.outage = x.outage) (district : x'.district = x.district) (o d : Nat) :
    q.memberIn o d = p.memberIn o d := by
  refine Bool.eq_iff_iff.mpr ((memberIn_iff w' o d).trans (Iff.trans ?_ (memberIn_iff w o d).symm))
  constructor
  · rintro ⟨n, y, hy, joined, here⟩
    rw [h n] at hy
    split at hy
    next => cases hy; exact ⟨id, x, hx, outage.symm.trans joined, district.symm.trans here⟩
    next => exact ⟨n, y, hy, joined, here⟩
  · rintro ⟨n, y, hy, joined, here⟩
    by_cases same : n = id
    · subst same
      cases hx.symm.trans hy
      exact ⟨n, x', by rw [h n, if_pos rfl], outage.trans joined, district.trans here⟩
    · exact ⟨n, y, by rw [h n, if_neg same]; exact hy, joined, here⟩

/-- The SUSPECT segments of the districts, when one is written that stays as SUSPECT as it was. -/
theorem Written.countsSuspects (h : Written p q id x') (hx : p.segments.get? id = some x) (agree : CountsSuspects p)
    (w : p.segments.wf 512 = true) (w' : q.segments.wf 512 = true)
    (districts : ∀ d, (q.districts.get? d).map (·.suspects) = (p.districts.get? d).map (·.suspects))
    (district : x'.district = x.district) (suspect : x'.suspect = x.suspect) : CountsSuspects q := by
  intro d r hr
  have same := districts d
  rw [hr] at same
  obtain ⟨r', hr', eq⟩ := Option.map_eq_some_iff.mp same.symm
  refine eq.symm.trans ((agree d r' hr').trans ?_)
  rw [h.table hx w w', count_eq_tally, count_eq_tally]
  exact (tally_set_eq w hx (by rw [district, suspect])).symm

/-- A segment's record is written, in its outage and its district still and as SUSPECT as before. -/
theorem agrees_written (a : Agrees p) (tables : q.tablesOk) (hx : p.segments.get? id = some x) (h : Written p q id x')
    (sound : Sound x') (outage : x'.outage = x.outage) (district : x'.district = x.district) (suspect : x'.suspect = x.suspect)
    (register : q.register = p.register) (districts : q.districts = p.districts)
    (known : ∀ o r, p.outages.get? o = some r → ∃ r', q.outages.get? o = some r' ∧ r'.ended = r.ended ∧ Shifted o x x' r r')
    (fewer : ∀ o, p.outages.get? o = none → q.outages.get? o = none) (crews : q.CrewsAgree) : Agrees q := by
  obtain ⟨_, w, _, _, _, wo⟩ := tables_wf a.tables
  obtain ⟨_, w', _, _, _, wo'⟩ := tables_wf tables
  have back (o : Nat) (r' : Outage) (hr' : q.outages.get? o = some r') :
      ∃ r, p.outages.get? o = some r ∧ r'.ended = r.ended ∧ Shifted o x x' r r' := by
    cases hr : p.outages.get? o with
    | none => rw [fewer o hr] at hr'; cases hr'
    | some r =>
      obtain ⟨s, hs, ended, shifted⟩ := known o r hr
      cases hr'.symm.trans hs
      exact ⟨r, rfl, ended, shifted⟩
  refine ⟨tables, outagesAgree_written a.outages w w' hx h sound (.inr outage) (fun o r hr => ?_) (fun o r' hr' => ?_),
    incidentsAgree_congr (by rw [register]) (fun _ => by rw [register]) a.incidents, crews,
    countsIncidents_congr (fun _ => by rw [districts]) (fun _ => by rw [register]) a.opened,
    countsOutages_of a.active wo wo' (fun _ => by rw [districts]) (fun o => ?_) (h.memberIn hx w w' outage district),
    h.countsSuspects hx a.suspects w w' (fun _ => by rw [districts]) district suspect⟩
  · obtain ⟨r', hr', _⟩ := known o r hr
    exact ⟨r', hr'⟩
  · obtain ⟨r, hr, _, shifted⟩ := back o r' hr'
    exact ⟨r, hr, shifted⟩
  · cases hr : p.outages.get? o with
    | none => rw [fewer o hr]
    | some r =>
      obtain ⟨r', hr', ended, _⟩ := known o r hr
      rw [hr', Option.map_some, Option.map_some, ended]

/-- A segment's record is written, and a PURGED one stays so. -/
theorem Written.crewsAgree (h : Written p q id x') (hx : p.segments.get? id = some x) (agree : p.CrewsAgree)
    (crews : q.dispatch.crews = p.dispatch.crews) (incidents : q.register.incidents = p.register.incidents)
    (purged : x.supply = .purged → x'.supply = .purged) : q.CrewsAgree := by
  refine crewsAgree_of agree crews (fun k i hi opened => ⟨i, by rw [incidents]; exact hi, opened⟩) fun k y hy was => ?_
  by_cases here : k = id
  · subst here
    cases hx.symm.trans hy
    exact ⟨x', by rw [h k, if_pos rfl], purged was⟩
  · exact ⟨y, by rw [h k, if_neg here]; exact hy, was⟩

end

end Sys2Proof.Proofs
end

section
/-!
The agreement over the requests that write one segment or one outage: EDIT_SEGMENT, no-gas calls, CLEAR_SUSPECT and
DISMISS (R75, R170 to R172).
-/

namespace Sys2Proof.Proofs

open Sys2Proof Sys2Proof.Machine

section
variable {p q : Part} {id : Nat} {x x' : Segment}

theorem crewsAgree_congr (crews : q.dispatch.crews = p.dispatch.crews)
    (incidents : q.register.incidents = p.register.incidents) (segments : q.segments = p.segments) (h : p.CrewsAgree) :
    q.CrewsAgree :=
  crewsAgree_of h crews (fun _ i hi opened => ⟨i, by rw [incidents]; exact hi, opened⟩)
    fun _ y hy purged => ⟨y, by rw [segments]; exact hy, purged⟩

/-- A segment's record is written and no outage's: it is in none, or its numbers are as they were. -/
theorem agrees_restated (a : Agrees p) (tables : q.tablesOk) (hx : p.segments.get? id = some x) (h : Written p q id x')
    (sound : Sound x') (outage : x'.outage = x.outage) (district : x'.district = x.district) (suspect : x'.suspect = x.suspect)
    (same : x.outage = none ∨ (x'.customers = x.customers ∧ x'.priority = x.priority ∧ x'.relit = x.relit))
    (register : q.register = p.register) (districts : q.districts = p.districts) (outages : q.outages = p.outages)
    (crews : q.CrewsAgree) : Agrees q := by
  refine agrees_written a tables hx h sound outage district suspect register districts (fun o r hr => ?_)
    (fun o none_ => by rw [outages]; exact none_) crews
  refine ⟨r, by rw [outages]; exact hr, rfl, ?_⟩
  have ended := a.outages.ended o r hr
  rcases same with none_ | ⟨customers, priority, relit⟩
  · refine ⟨?_, ?_, ?_, ?_, ended⟩ <;> simp [outage, none_]
  · exact ⟨by rw [outage], by rw [outage, customers], by rw [outage, priority], by rw [outage, relit], ended⟩

theorem sound_of_agrees (a : Agrees p) (hx : p.segments.get? id = some x) : Sound x := by
  obtain ⟨_, w, _⟩ := tables_wf a.tables
  exact ((outagesAgree_iff w).mp a.outages).1 id x hx

theorem written_onSegment (hx : p.segments.get? id = some x) (f : Segment → Segment) : Written p (p.onSegment id f) id (f x) :=
  fun n => by rw [onSegment_of_get? hx]; exact get?_set _ _ _ _

/-- The counts of a SUPPLIED segment are edited: it is in no outage. -/
theorem agrees_editSegment (a : Agrees p) (hx : p.segments.get? id = some x) (supplied : x.supply = .supplied)
    (customers priority : Nat) : Agrees (p.onSegment id fun s => { s with customers := customers, priority := priority }) := by
  obtain ⟨member, few, relit⟩ := sound_of_agrees a hx
  have none_ : x.outage = none := by
    cases h : x.outage with
    | none => rfl
    | some o => exact absurd supplied (member.mp (by rw [h]; rfl))
  have zero : x.relit = 0 := by
    by_contra some_
    rcases relit some_ with h | h <;> rw [supplied] at h <;> cases h
  refine agrees_restated a ((Laws.m_onSegment (.refl p) id _).tables a.tables) hx (written_onSegment hx _)
    ⟨member, by rw [zero]; exact Nat.zero_le _, relit⟩ rfl rfl rfl (.inl none_) rfl rfl rfl
    ((written_onSegment hx _).crewsAgree hx a.crews rfl rfl fun purged => purged)

/-! ## Suspicion (R171, R172) -/

theorem agrees_setSuspect (a : Agrees p) (hx : p.segments.get? id = some x) {b : Bool} (turned : x.suspect = !b) :
    Agrees (setSuspect id b p) := by
  have tables := (Laws.m_setSuspect id b p).tables a.tables
  obtain ⟨frame, this, others, _, districts⟩ := setSuspect_spec hx b
  generalize setSuspect id b p = q at tables frame this others districts
  obtain ⟨_, w, _, _, _, wo⟩ := tables_wf a.tables
  obtain ⟨_, w', _, _, _, _⟩ := tables_wf tables
  have written : Written p q id { x with suspect := b, changed := true } := fun n => by
    by_cases here : n = id
    · rw [here, this, if_pos rfl]
    · rw [others n here, if_neg here]
  have outages : q.outages = p.outages := by rw [frame]
  have register : q.register = p.register := by rw [frame]
  have dispatch : q.dispatch = p.dispatch := by rw [frame]
  have counted {γ : Type} {v : District → γ} (same : ∀ (r : District) (n : Nat), v { r with suspects := n } = v r) (d : Nat) :
      (q.districts.get? d).map v = (p.districts.get? d).map v := by
    rw [districts]
    exact view_modify (fun r _ => same r _) d
  obtain ⟨member, few, relit⟩ := sound_of_agrees a hx
  refine ⟨tables, outagesAgree_written a.outages w w' hx written ⟨member, few, relit⟩ (.inr rfl) (fun o r hr => ?_)
    (fun o r hr => ?_), incidentsAgree_congr (by rw [register]) (fun _ => by rw [register]) a.incidents,
    written.crewsAgree hx a.crews (by rw [dispatch]) (by rw [register]) fun purged => purged,
    countsIncidents_congr (counted fun _ _ => rfl) (fun _ => by rw [register]) a.opened,
    countsOutages_of a.active wo (by rw [outages]; exact wo) (counted fun _ _ => rfl) (fun _ => by rw [outages])
      (written.memberIn hx w w' rfl rfl), fun d r hr => ?_⟩
  · exact ⟨r, by rw [outages]; exact hr⟩
  · rw [outages] at hr
    exact ⟨r, hr, rfl, rfl, rfl, rfl, a.outages.ended o r hr⟩
  · have sums := tally_set (g := fun _ y => if decide (y.district = d) && y.suspect then 1 else 0) w hx
      { x with suspect := b, changed := true }
    rw [← count_eq_tally, ← count_eq_tally, ← written.table hx w w'] at sums
    rw [districts, get?_modify] at hr
    obtain ⟨r', hr', eq⟩ := Option.map_eq_some_iff.mp hr
    have before := a.suspects d r' hr'
    rw [← eq]
    by_cases here : d = x.district
    · subst here
      cases b <;> simp [turned] at sums ⊢ <;> omega
    · simp only [if_neg here]
      simp [Ne.symm here] at sums
      omega

theorem agrees_noGas (a : Agrees p) {o : Nat} {r : Outage} (hr : p.outages.get? o = some r) (n : Nat) :
    Agrees (putOutage o { r with noGas := n } p) := by
  have tables := (Laws.m_putOutage (.refl p) o { r with noGas := n } (.inr ⟨r, hr⟩)).tables a.tables
  obtain ⟨_, _, _, _, _, wo⟩ := tables_wf a.tables
  obtain ⟨_, _, _, _, _, wo'⟩ := tables_wf tables
  have same {γ : Type} {v : Outage → γ} (kept : v { r with noGas := n } = v r) (k : Nat) :
      ((p.outages.set o { r with noGas := n }).get? k).map v = (p.outages.get? k).map v := view_set hr kept k
  have back (k : Nat) (r' : Outage) (hr' : (p.outages.set o { r with noGas := n }).get? k = some r') :
      ∃ s m, p.outages.get? k = some s ∧ r' = { s with noGas := m } := by
    rw [get?_set] at hr'
    split at hr'
    next here => exact ⟨r, n, by rw [here]; exact hr, (Option.some.inj hr').symm⟩
    next => exact ⟨r', r'.noGas, hr', rfl⟩
  obtain ⟨member, active, relit, sums, ended⟩ := a.outages
  refine ⟨tables, ⟨member, fun k x u hx joined => ?_, relit, fun k r' hr' => ?_, fun k r' hr' => ?_⟩,
    incidentsAgree_congr (p := p) rfl (fun _ => rfl) a.incidents,
    crewsAgree_congr (p := p) rfl rfl rfl a.crews, a.opened, countsOutages_of a.active wo wo' (fun _ => rfl) (same rfl) (fun _ _ => rfl), a.suspects⟩
  · obtain ⟨s, hs, alive⟩ := active k x u hx joined
    by_cases here : u = o
    · subst here
      cases hr.symm.trans hs
      exact ⟨_, Laws.get?_set_same _ _ _, alive⟩
    · exact ⟨s, (Laws.get?_set_other _ _ _ _ here).trans hs, alive⟩
  · obtain ⟨s, m, hs, rfl⟩ := back k r' hr'
    exact sums k s hs
  · obtain ⟨s, m, hs, rfl⟩ := back k r' hr'
    exact ended k s hs

theorem agrees_noGasCall (a : Agrees p) (seg : Nat) : Agrees (noGasCall seg p) := by
  cases hx : p.segments.get? seg with
  | none => simp only [noGasCall, hx]; exact a
  | some x =>
    cases member : x.outage with
    | some o =>
      obtain ⟨r, hr, _⟩ := a.outages.active seg x o hx member
      rw [noGasCall_member hx member hr]
      exact agrees_noGas a hr _
    | none =>
      rw [noGasCall_alone hx member rfl]
      have timed : Mild p { p with segments := p.segments.set seg { x with noGas := pushNoGas x.noGas p.time } } := by
        have := mild_onSegment (seg := seg) (f := fun s => { s with noGas := pushNoGas x.noGas p.time }) (fun _ => rfl) p
        rw [onSegment_of_get? hx] at this
        exact this
      split
      next turned =>
        refine (mild_place _ _).agrees (agrees_setSuspect (timed.agrees a) (Laws.get?_set_same _ _ _) ?_)
        exact turned.1
      next => exact timed.agrees a

theorem agrees_clearSuspect (a : Agrees p) (hx : p.segments.get? id = some x) :
    Agrees (if x.suspect then setSuspect id false (p.onSegment id fun s => { s with noGas := [] })
      else p.onSegment id fun s => { s with noGas := [] }) := by
  have emptied : Mild p (p.onSegment id fun s => { s with noGas := [] }) :=
    mild_onSegment (f := fun s => { s with noGas := [] }) (fun _ => rfl) p
  split
  next turned =>
    refine agrees_setSuspect (emptied.agrees a) (x := { x with noGas := [] }) ?_ turned
    rw [onSegment_of_get? hx]
    exact Laws.get?_set_same _ _ _
  next => exact emptied.agrees a

/-! ## DISMISS (R170) -/

theorem agrees_dismiss (a : Agrees p) {o : Nat} {r : Outage} (hr : p.outages.get? o = some r) (ended : r.ended.isSome = true) :
    Agrees { p with outages := p.outages.erase o } := by
  have tables := (Laws.m_outages (.refl p) _ (Laws.wf_erase _ _ o)).tables a.tables
  obtain ⟨member, active, relit, sums, alive⟩ := a.outages
  have back (k : Nat) (s : Outage) (hs : (p.outages.erase o).get? k = some s) : p.outages.get? k = some s := by
    rw [get?_erase] at hs
    split at hs
    · cases hs
    · exact hs
  obtain ⟨_, _, _, _, _, wo⟩ := tables_wf a.tables
  refine ⟨tables, ⟨member, fun k x u hx joined => ?_, relit, fun k s hs => sums k s (back k s hs),
    fun k s hs => alive k s (back k s hs)⟩, incidentsAgree_congr (p := p) rfl (fun _ => rfl) a.incidents,
    crewsAgree_congr (p := p) rfl rfl rfl a.crews, a.opened, fun d c hc => ?_, a.suspects⟩
  · obtain ⟨s, hs, none_⟩ := active k x u hx joined
    refine ⟨s, ?_, none_⟩
    rw [get?_erase, if_neg]
    · exact hs
    · rintro rfl
      cases hr.symm.trans hs
      rw [none_] at ended
      cases ended
  · rw [a.active d c hc, count_eq_tally, count_eq_tally]
    have sums := tally_erase (g := fun o (x : Outage) => if x.ended.isNone && p.memberIn o d then 1 else 0) wo hr
    have none_ : r.ended.isNone = false := by rw [← Option.not_isSome, ended]; rfl
    rw [none_] at sums
    exact sums.symm

end

end Sys2Proof.Proofs
end

section
/-!
The agreement over what crews take and give back (R150 to R155).
-/

namespace Sys2Proof.Proofs

open Sys2Proof Sys2Proof.Machine

section
variable {p q : Part} {id : Nat} {i i' : Incident} {x : Segment} {j : Job} {c : Crew}

theorem awaits_of_qualifies (h : p.qualifies j = true) : awaits p j := by
  obtain ⟨cls, item⟩ := j
  constructor
  · rintro rfl
    exact qualifies_leak.mp h
  · rintro rfl
    obtain ⟨x, hx, purged, _⟩ := qualifies_relight.mp h
    exact ⟨x, hx, purged⟩

/-- An item that no crew is offered changes. -/
theorem crewsAgree_item (h : p.CrewsAgree) (crews : q.dispatch.crews = p.dispatch.crews)
    (free : ∀ k d, p.dispatch.crews.get? k = some d → d.state = .offered → d.job ≠ some j)
    (waits : ∀ i, i ≠ j → awaits p i → awaits q i) : q.CrewsAgree := by
  obtain ⟨one, busy, waits'⟩ := crewsAgree_iff.mp h
  refine crewsAgree_iff.mpr ⟨by unfold OneCrew; rw [crews]; exact one, by rw [crews]; exact busy,
    fun a d k hd offered job => ?_⟩
  rw [crews] at hd
  exact waits k (fun same => free a d hd offered (same ▸ job)) (waits' a d k hd offered job)

/-- One incident's record is written, in its place and as CLOSED as before. -/
theorem agrees_putIncident (a : Agrees p) (hi : p.register.incidents.get? id = some i)
    (core : incidentCore i' = incidentCore i) (crews : (putIncident id i' p).CrewsAgree) : Agrees (putIncident id i' p) := by
  obtain ⟨_, _, _, w, _, _⟩ := tables_wf a.tables
  have state : decide (i'.state = .closed) = decide (i.state = .closed) := congrArg (·.2.2.2) core
  have district : i'.district = i.district := congrArg (·.2.1) core
  refine ⟨(Laws.m_putIncident (.refl p) _ _ (.inr ⟨i, hi⟩)).tables a.tables, outagesAgree_congr (p := p) rfl rfl a.outages,
    incidentsAgree_congr (p := p) rfl (view_set hi core) a.incidents, crews,
    countsIncidents_congr (p := p) (fun _ => rfl) (fun d => opens_set w hi ?_) a.opened,
    countsOutages_congr (p := p) (fun _ => rfl) rfl rfl a.active, countsSuspects_congr (p := p) (fun _ => rfl) rfl a.suspects⟩
  rw [decide_eq_decide] at state
  simp only [opensIn, district, ne_eq, state]

theorem awaits_putIncident (other : j ≠ ⟨.leak, id⟩) (h : awaits p j) : awaits (putIncident id i' p) j := by
  refine ⟨fun leak => ?_, h.2⟩
  obtain ⟨x, hx, opened⟩ := h.1 leak
  refine ⟨x, (Laws.get?_set_other _ _ _ _ fun here => other ?_).trans hx, opened⟩
  cases j
  cases leak
  cases here
  rfl

/-- An incident's state changes between those that are not CLOSED, when no crew is offered it. -/
theorem agrees_setIncidentState (a : Agrees p) (hi : p.register.incidents.get? id = some i) (open_ : i.state ≠ .closed)
    {new : IncidentState} (stays : new ≠ .closed) (cause : IncidentCause)
    (free : ∀ k d, p.dispatch.crews.get? k = some d → d.state = .offered → d.job ≠ some ⟨.leak, id⟩) :
    Agrees (setIncidentState id new cause p) := by
  have hi' : p.incident? id = some i := hi
  simp only [setIncidentState, hi']
  refine (mild_place _ _).agrees (agrees_putIncident a hi ?_ ?_)
  · simp [incidentCore, open_, stays]
  · exact crewsAgree_item a.crews rfl free fun k other => awaits_putIncident other

/-- A segment that is not SUPPLIED gets another such supply state, and its mark. -/
theorem agrees_setSupply (a : Agrees p) (hx : p.segments.get? id = some x) (unserved : x.supply ≠ .supplied) {st : SupplyState}
    (stays : st = .purged ∨ st = .relighting) (crews : (setSupply id st p).CrewsAgree) :
    Agrees (markSegment id (setSupply id st p)) := by
  obtain ⟨member, few, relit⟩ := sound_of_agrees a hx
  refine (mild_markSegment _ _).agrees (agrees_restated a ((Laws.m_setSupply id st p).tables a.tables) hx
    (written_onSegment hx fun s => { s with supply := st }) ⟨?_, few, fun _ => stays⟩ rfl rfl rfl (.inr ⟨rfl, rfl, rfl⟩) rfl rfl rfl
    crews)
  refine ⟨fun _ => ?_, fun _ => member.mpr unserved⟩
  rcases stays with h | h <;> simp [h]

theorem awaits_setSupply {st : SupplyState} (other : j ≠ ⟨.relight, id⟩) (h : awaits p j) : awaits (setSupply id st p) j := by
  refine ⟨h.1, fun relight => ?_⟩
  obtain ⟨x, hx, purged⟩ := h.2 relight
  refine ⟨x, (Laws.get?_modify_other _ _ _ _ fun here => other ?_).trans hx, purged⟩
  cases j
  cases relight
  cases here
  rfl

/-- An item that waits, and that no crew is offered any more, is handed to its owning block (R151). -/
theorem agrees_acceptJob (a : Agrees p) (crew : Nat) (cause : IncidentCause) (waits : awaits p j)
    (free : ∀ k d, p.dispatch.crews.get? k = some d → d.state = .offered → d.job ≠ some j) :
    Agrees (acceptJob crew j cause p) := by
  obtain ⟨cls, item⟩ := j
  cases cls with
  | leak =>
    obtain ⟨i, hi, opened⟩ := waits.1 rfl
    have held : Agrees (putIncident item { i with crew := some crew } p) :=
      (mild_putIncident (j := { i with crew := some crew }) hi rfl fun _ => opened).agrees a
    have open_ : i.state ≠ .closed := by rw [opened]; decide
    simp only [acceptJob, show p.incident? item = some i from hi]
    exact agrees_setIncidentState held (i := { i with crew := some crew }) (Laws.get?_set_same _ _ _) open_ (by decide) cause free
  | valve =>
    unfold acceptJob
    dsimp only
    split
    · exact (mild_setOpState _ _ _ p).agrees a
    · exact a
  | relight =>
    obtain ⟨x, hx, purged⟩ := waits.2 rfl
    exact agrees_setSupply a hx (by rw [purged]; decide) (.inr rfl)
      (crewsAgree_item a.crews rfl free fun k other => awaits_setSupply other)

/-- A crew is assigned an item that no other crew has. -/
theorem agrees_assigned (a : Agrees p) (hc : p.dispatch.crews.get? id = some c)
    (alone : ∀ k d, k ≠ id → p.dispatch.crews.get? k = some d → d.job ≠ some j) :
    Agrees (p.onCrew id fun c => c.assignedTo j) := by
  have crews : (p.onCrew id fun c => c.assignedTo j).dispatch.crews = p.dispatch.crews.set id (c.assignedTo j) :=
    modify_of_get? hc _
  refine ⟨(Laws.m_onCrew (.refl p) id _).tables a.tables, outagesAgree_congr (p := p) rfl rfl a.outages,
    incidentsAgree_congr (p := p) rfl (fun _ => rfl) a.incidents, crewsAgree_set a.crews crews (by simp [Crew.assignedTo, atWork])
      (fun k job => ?_) (fun k offered => ?_) (fun k _ _ _ _ _ _ => (awaits_congr rfl rfl).mpr), a.opened, a.active, a.suspects⟩
  · cases job
    exact alone
  · cases offered

/-- Once a crew is assigned an item, none is offered it. -/
theorem unoffered_assigned (hc : p.dispatch.crews.get? id = some c)
    (alone : ∀ k d, k ≠ id → p.dispatch.crews.get? k = some d → d.job ≠ some j) (k : Nat) (d : Crew)
    (hd : (p.onCrew id fun c => c.assignedTo j).dispatch.crews.get? k = some d) (offered : d.state = .offered) :
    d.job ≠ some j := by
  have crews : (p.onCrew id fun c => c.assignedTo j).dispatch.crews = p.dispatch.crews.set id (c.assignedTo j) :=
    modify_of_get? hc _
  rw [crews, get?_set] at hd
  split at hd
  next => cases hd; cases offered
  next other => exact alone k d other hd

theorem agrees_acceptOffer (a : Agrees p) (hc : p.dispatch.crews.get? id = some c) (offered : c.state = .offered)
    (job : c.job = some j) : Agrees (acceptOffer id j p) := by
  have alone (k : Nat) (d : Crew) (other : k ≠ id) (hd : p.dispatch.crews.get? k = some d) : d.job ≠ some j := fun same =>
    other (a.crews.one k id d c j hd hc same job)
  have waits : awaits p j := (crewsAgree_iff.mp a.crews).2.2 id c j hc offered job
  exact (mild_dispatchDecide _).agrees (agrees_acceptJob (agrees_assigned a hc alone) id .crew waits
    (unoffered_assigned hc alone))

theorem agrees_assignCrew (a : Agrees p) (hc : p.dispatch.crews.get? id = some c) (able : p.assignable j = true) :
    Agrees (assignCrew id j p) := by
  obtain ⟨_, _, _, _, w, _⟩ := tables_wf a.tables
  simp only [Part.assignable, Bool.and_eq_true] at able
  have waits := awaits_of_qualifies able.1
  have ended : ∃ c', Agrees (endOtherOffer id j p) ∧ (endOtherOffer id j p).dispatch.crews.get? id = some c' ∧
      (∀ k d, k ≠ id → (endOtherOffer id j p).dispatch.crews.get? k = some d → d.job ≠ some j) ∧
      awaits (endOtherOffer id j p) j := by
    unfold endOtherOffer
    split
    next none_ =>
      exact ⟨c, a, hc, fun k d _ hd => (crewOn_none w).mp none_ k d hd, waits⟩
    next k e found =>
      obtain ⟨he, job⟩ := crewOn_some w found
      split
      next same =>
        subst same
        exact ⟨c, a, hc, fun m d other hd there => other (a.crews.one m k d e j hd he there job), waits⟩
      next other =>
        have get (m : Nat) : (place (.offerWithdrawn k j.cls j.item .assignedElsewhere)
            (p.onCrew k fun c => { c with state := .available, job := none, expiry := none })).dispatch.crews.get? m =
            (p.dispatch.crews.get? m).map fun c => if m = k then
              { c with state := .available, job := none, expiry := none } else c := by
          rw [Laws.place_dispatch]
          exact get?_modify _ _ _ _
        refine ⟨c, ((mild_onCrew (f := fun c => { c with state := .available, job := none, expiry := none }) (fun _ => rfl)
          (fun _ => by simp [atWork]) p k).then (mild_place _)).agrees a, ?_, fun m d _ hd => ?_, (awaits_congr (by simp [Part.onCrew])
            (by simp [Part.onCrew])).mpr waits⟩
        · rw [get, hc, Option.map_some, if_neg (Ne.symm other)]
        · rw [get] at hd
          obtain ⟨d', hd', eq⟩ := Option.map_eq_some_iff.mp hd
          split at eq
          next => rw [← eq]; simp
          next elsewhere =>
            subst eq
            exact fun there => elsewhere (a.crews.one m k d' e j hd' he there job)
  obtain ⟨c', a', hc', alone, waits'⟩ := ended
  exact (mild_dispatchDecide _).agrees (agrees_acceptJob (agrees_assigned a' hc' alone) id .host waits'
    (unoffered_assigned hc' alone))

/-- A held item goes back to its owning block (R155). -/
theorem agrees_returnJob (a : Agrees p) (hc : p.dispatch.crews.get? id = some c) (held : c.state = .assigned ∨ c.state = .onSite)
    (job : c.job = some j) : Agrees (returnJob j p).1 := by
  have free (k : Nat) (d : Crew) (hd : p.dispatch.crews.get? k = some d) (offered : d.state = .offered) : d.job ≠ some j := by
    intro same
    cases a.crews.one k id d c j hd hc same job
    cases hc.symm.trans hd
    rcases held with h | h <;> rw [h] at offered <;> cases offered
  obtain ⟨cls, item⟩ := j
  cases cls with
  | leak =>
    unfold returnJob
    dsimp only
    split
    · exact a
    next i hi =>
      have hi : p.register.incidents.get? item = some i := hi
      have left : Agrees (putIncident item { i with crew := none } p) := 
        (mild_putIncident (j := { i with crew := none }) hi rfl fun opened => opened).agrees a
      split
      next assigned =>
        exact agrees_setIncidentState left (i := { i with crew := none }) (Laws.get?_set_same _ _ _)
          (by rw [assigned]; decide) (by decide) .crew free
      next => exact left
  | valve =>
    unfold returnJob
    dsimp only
    split
    · exact (mild_setOpState _ _ _ p).agrees a
    · exact a
  | relight =>
    unfold returnJob
    dsimp only
    split
    next relighting =>
      obtain ⟨x, hx, st⟩ := (Option.any_eq_true _ _).mp relighting
      have supply : x.supply = .relighting := of_decide_eq_true st
      exact agrees_setSupply a hx (by rw [supply]; decide) (.inl rfl)
        (crewsAgree_item a.crews rfl free fun k other => awaits_setSupply other)
    next => exact a

theorem agrees_crewClears (a : Agrees p) (hc : p.dispatch.crews.get? id = some c)
    (held : c.state = .assigned ∨ c.state = .onSite) : Agrees (crewClears id c p).part := by
  have off (q : Part) (returned : Option Job) (a : Agrees q) : Agrees (dispatchDecide
      (q.onCrew id fun c => { c with state := .available, job := none, declined := returned })) :=
    ((mild_onCrew (f := fun c => { c with state := .available, job := none, declined := returned }) (fun _ => rfl)
      (fun _ => by simp [atWork]) q id).then mild_dispatchDecide).agrees a
  unfold crewClears
  cases job : c.job with
  | none => exact off p none a
  | some j => exact off _ _ (agrees_returnJob a hc held job)

end

end Sys2Proof.Proofs
end

section
/-!
The agreement over the return of a segment to SUPPLIED (R165 to R169).
-/

namespace Sys2Proof.Proofs

open Sys2Proof Sys2Proof.Machine

section
variable {p q : Part} {id o : Nat} {x : Segment} {r : Outage}

theorem erase_of_none {α : Type} {t : Table α} {n k : Nat} (w : t.wf n = true) (h : t.get? k = none) : t.erase k = t :=
  table_ext (Laws.wf_erase _ _ _ w) w fun j => by
    rw [get?_erase]
    split
    next here => rw [here, h]
    next => rfl

theorem tally_erase_zero {α : Type} {t : Table α} {n k : Nat} {g : Nat → α → Nat} (w : t.wf n = true)
    (zero : ∀ v, t.get? k = some v → g k v = 0) : tally (t.erase k) g = tally t g := by
  cases h : t.get? k with
  | none => rw [erase_of_none w h]
  | some v =>
    have erased := tally_erase (g := g) w h
    rw [zero v h] at erased
    exact erased

theorem tally_set_erase {α : Type} {t : Table α} {n k : Nat} (w : t.wf n = true) (v : α) (g : Nat → α → Nat) :
    tally (t.set k v) g = tally (t.erase k) g + g k v := by
  cases h : t.get? k with
  | none =>
    rw [erase_of_none w h]
    exact tally_set_new h v
  | some u =>
    have set_ := tally_set (g := g) w h v
    have erase_ := tally_erase (g := g) w h
    omega

theorem held_ge {t : Table Segment} {n k o : Nat} {x : Segment} (w : t.wf n = true) (hx : t.get? k = some x)
    (joined : x.outage = some o) (g : Segment → Nat) : g x ≤ held t o g := by
  have erased := tally_erase (g := fun _ x => if x.outage = some o then g x else 0) w hx
  simp only [joined, if_true] at erased
  rw [held]
  omega

theorem outage_of_unserved (a : Agrees p) (hx : p.segments.get? id = some x) (unserved : x.supply ≠ .supplied) :
    ∃ o r, x.outage = some o ∧ p.outages.get? o = some r ∧ r.ended = none ∧ Sums p.segments o r := by
  obtain ⟨o, joined⟩ := Option.isSome_iff_exists.mp ((sound_of_agrees a hx).member.mpr unserved)
  obtain ⟨r, hr, active⟩ := a.outages.active id x o hx joined
  obtain ⟨_, w, _⟩ := tables_wf a.tables
  exact ⟨o, r, joined, hr, active, (((outagesAgree_iff w).mp a.outages).2.2 o r hr).1⟩

/-- Premises are relit: the segment and its outage count them (R167, R169). -/
theorem agrees_addRelit (a : Agrees p) (hx : p.segments.get? id = some x) (lit : x.supply = .purged ∨ x.supply = .relighting)
    (n : Nat) : Agrees (addRelit id x n p) := by
  have unserved : x.supply ≠ .supplied := by rcases lit with h | h <;> rw [h] <;> decide
  obtain ⟨o, r, joined, hr, _, _⟩ := outage_of_unserved a hx unserved
  obtain ⟨member, few, _⟩ := sound_of_agrees a hx
  have relit : addRelit id x n p = putOutage o { r with customersRelit := r.customersRelit + (min (x.relit + n) x.customers - x.relit) }
      (p.onSegment id fun s => { s with relit := min (x.relit + n) x.customers }) := by
    simp [addRelit, joined, hr, Part.onSegment]
  rw [relit]
  refine agrees_written a ((Laws.m_putOutage (Laws.m_onSegment (.refl p) id _) o _ (.inr ⟨r, hr⟩)).tables a.tables) hx
    (written_onSegment hx fun s => { s with relit := min (x.relit + n) x.customers })
    ⟨member, Nat.min_le_right _ _, fun _ => lit⟩ rfl rfl rfl rfl rfl (fun u s hs => ?_) (fun u none_ => ?_) ?_
  · have ended := a.outages.ended u s hs
    by_cases here : u = o
    · subst here
      cases hr.symm.trans hs
      refine ⟨_, Laws.get?_set_same _ _ _, rfl, rfl, rfl, rfl, ?_, ended⟩
      simp only [joined, if_true]
      omega
    · have there : x.outage ≠ some u := by rw [joined]; exact fun h => here (Option.some.inj h).symm
      refine ⟨s, (Laws.get?_set_other _ _ _ _ here).trans hs, rfl, rfl, rfl, rfl, ?_, ended⟩
      simp only [there, if_false]
  · refine (Laws.get?_set_other _ _ _ _ ?_).trans none_
    rintro rfl
    rw [hr] at none_
    cases none_
  · exact Written.crewsAgree (written_onSegment hx _) hx a.crews rfl rfl fun purged => purged

/-- A RECHARGED segment with customers is PURGED (R165). -/
theorem agrees_purged (a : Agrees p) (hx : p.segments.get? id = some x) (recharged : x.supply = .recharged) :
    Agrees (markSegment id (p.onSegment id fun s => { s with supply := .purged, relit := 0 })) := by
  obtain ⟨member, _, relit⟩ := sound_of_agrees a hx
  have zero : x.relit = 0 := by
    by_contra some_
    rcases relit some_ with h | h <;> rw [recharged] at h <;> cases h
  refine (mild_markSegment _ _).agrees (agrees_restated a ((Laws.m_onSegment (.refl p) id _).tables a.tables) hx
    (written_onSegment hx fun s => { s with supply := .purged, relit := 0 }) ⟨⟨fun _ => by simp, fun _ => member.mpr ?_⟩,
      Nat.zero_le _, fun _ => .inl rfl⟩ rfl rfl rfl (.inr ⟨rfl, rfl, zero.symm⟩) rfl rfl rfl ?_)
  · rw [recharged]; decide
  · exact Written.crewsAgree (written_onSegment hx _) hx a.crews rfl rfl fun _ => rfl

end

end Sys2Proof.Proofs
end

section
/-!
The agreement over a restoration (R168).
-/

namespace Sys2Proof.Proofs

open Sys2Proof Sys2Proof.Machine

section
variable {p q : Part} {id o : Nat} {x : Segment} {r r' : Outage}

/-- A segment as a restoration leaves it (R168). -/
def restored (x : Segment) : Segment := { x with supply := .supplied, relit := 0, outage := none, changed := true }

theorem written_unserved (hx : p.segments.get? id = some x) (same : q.segments = (unserved id p).segments) :
    Written p q id (restored x) := fun n => by
  rw [same]
  split
  next here => rw [here, unserved_this hx]; rfl
  next other => exact unserved_other other p

/-- Another segment than one is a member of an outage in a district. -/
def othersIn (p : Part) (id o d : Nat) : Bool :=
  p.segments.any fun i y => decide (i ≠ id ∧ y.outage = some o ∧ y.district = d)

/-- What a restoration of a member leaves: its outage's counts and its district's fall, the outage is ENDED with its last
member, and the segment's item ends. -/
theorem restoreSegment_frame (w : p.segments.wf 512 = true) (hx : p.segments.get? id = some x) (joined : x.outage = some o)
    (hr : p.outages.get? o = some r) : let q := restoreSegment id p
    ∃ r', q.segments = (unserved id p).segments ∧ q.outages = p.outages.set o r' ∧
      (r'.members = r.members - 1 ∧ r'.customersOff = r.customersOff - x.customers ∧
        r'.priorityOff = r.priorityOff - x.priority ∧ r'.customersRelit = r.customersRelit - x.relit ∧
        r'.ended = if r.members - 1 = 0 then some p.time else r.ended) ∧
      q.districts = (if othersIn p id o x.district then p.districts
        else p.districts.modify x.district fun d => { d with activeOutages := d.activeOutages - 1 }) ∧
      q.register = p.register ∧ q.dispatch = (endJob ⟨.relight, id⟩ p).dispatch := by
  intro q
  obtain ⟨segments, _⟩ := restoreSegment_spec hx
  obtain ⟨q₀, frame, dispatch, _, _, _, _, more, last⟩ := restoration w hx joined (p' := p) (by rw [set_self w hx])
    (fun _ => rfl) hr rfl
  have outages : q₀.outages = p.outages.set o (withoutMember r x) := by rw [frame]
  have register : q₀.register = p.register := by rw [frame]
  have districts : q₀.districts = (if othersIn p id o x.district then p.districts
        else p.districts.modify x.district fun d => { d with activeOutages := d.activeOutages - 1 }) := by rw [frame]; rfl
  by_cases none_ : r.members - 1 = 0
  · have run := last none_
    refine ⟨{ withoutMember r x with ended := some p.time }, segments, ?_, ⟨rfl, rfl, rfl, rfl, (if_pos none_).symm⟩,
      ?_, ?_, ?_⟩
    · show (restoreSegment id p).outages = _
      rw [run]
      simp [refreshLamps, outages, set_set]
    · show (restoreSegment id p).districts = _
      rw [run]
      simp [refreshLamps, districts]
    · show (restoreSegment id p).register = _
      rw [run]
      simp [refreshLamps, register]
    · show (restoreSegment id p).dispatch = _
      rw [run]
      simp [refreshLamps, dispatch]
  · have run := more none_
    refine ⟨withoutMember r x, segments, ?_, ⟨rfl, rfl, rfl, rfl, (if_neg none_).symm⟩, ?_, ?_, ?_⟩
    · show (restoreSegment id p).outages = _
      rw [run]
      simp [outages]
    · show (restoreSegment id p).districts = _
      rw [run]
      simp [districts]
    · show (restoreSegment id p).register = _
      rw [run]
      simp [register]
    · show (restoreSegment id p).dispatch = _
      rw [run]
      simp [dispatch]

/-- The members of an outage in a district, when one has left it. -/
theorem memberIn_restored (w' : q.segments.wf 512 = true)
    (h : Written p q id (restored x)) (u d : Nat) :
    q.memberIn u d = true ↔ ∃ n y, n ≠ id ∧ p.segments.get? n = some y ∧ y.outage = some u ∧ y.district = d := by
  rw [memberIn_iff w']
  refine exists_congr fun n => exists_congr fun y => ?_
  rw [h n]
  by_cases here : n = id
  · rw [if_pos here]
    refine ⟨fun ⟨hy, joined, _⟩ => ?_, fun ⟨other, _⟩ => absurd here other⟩
    cases hy
    cases joined
  · rw [if_neg here]
    exact ⟨fun hy => ⟨here, hy⟩, fun hy => hy.2⟩

theorem othersIn_restored (w : p.segments.wf 512 = true) (w' : q.segments.wf 512 = true)
    (h : Written p q id (restored x)) (u d : Nat) : othersIn p id u d = q.memberIn u d := by
  refine Bool.eq_iff_iff.mpr ?_
  rw [othersIn, any_iff w, memberIn_restored w' h]
  refine exists_congr fun n => exists_congr fun y => ?_
  rw [decide_eq_true_iff]
  exact ⟨fun ⟨hy, other, rest⟩ => ⟨other, hy, rest⟩, fun ⟨other, hy, rest⟩ => ⟨hy, other, rest⟩⟩

theorem memberIn_before (w : p.segments.wf 512 = true) (w' : q.segments.wf 512 = true) (hx : p.segments.get? id = some x)
    (joined : x.outage = some o) (h : Written p q id (restored x)) (u d : Nat) :
    p.memberIn u d = true ↔ (u = o ∧ d = x.district) ∨ q.memberIn u d = true := by
  rw [memberIn_iff w, memberIn_restored w' h]
  constructor
  · rintro ⟨n, y, hy, there, here⟩
    by_cases same : n = id
    · subst same
      cases hx.symm.trans hy
      exact .inl ⟨Option.some.inj (there.symm.trans joined), here.symm⟩
    · exact .inr ⟨n, y, same, hy, there, here⟩
  · rintro (⟨rfl, rfl⟩ | ⟨n, y, _, hy, there, here⟩)
    · exact ⟨id, x, hx, joined, rfl⟩
    · exact ⟨n, y, hy, there, here⟩

/-- The ACTIVE outages of the districts when a member leaves its outage, and the outage ends with its last one. -/
theorem countsOutages_restored (a : Agrees p) (w' : q.segments.wf 512 = true) (hx : p.segments.get? id = some x)
    (joined : x.outage = some o) (hr : p.outages.get? o = some r) (active : r.ended = none)
    (h : Written p q id (restored x)) (outages : q.outages = p.outages.set o r')
    (ended : ∀ d, q.memberIn o d = true → r'.ended = none)
    (districts : q.districts = (if othersIn p id o x.district then p.districts
      else p.districts.modify x.district fun d => { d with activeOutages := d.activeOutages - 1 })) : CountsOutages q := by
  obtain ⟨_, w, _, _, _, wo⟩ := tables_wf a.tables
  rw [othersIn_restored w w' h] at districts
  have before := memberIn_before w w' hx joined h
  intro d c hc
  obtain ⟨c', hc', eq⟩ : ∃ c', p.districts.get? d = some c' ∧ c.activeOutages =
      c'.activeOutages - if d = x.district ∧ q.memberIn o d = false then 1 else 0 := by
    rw [districts] at hc
    split at hc
    next more =>
      refine ⟨c, hc, ?_⟩
      rw [if_neg]
      · rfl
      · rintro ⟨rfl, none_⟩
        rw [more] at none_
        cases none_
    next none_ =>
      rw [get?_modify] at hc
      obtain ⟨c', hc', eq⟩ := Option.map_eq_some_iff.mp hc
      refine ⟨c', hc', ?_⟩
      rw [← eq]
      by_cases here : d = x.district
      · subst here
        simp only [if_true, true_and]
        rw [if_pos (by simpa using none_)]
      · simp [here]
  have counted := a.active d c' hc'
  rw [count_eq_tally] at counted
  have was := tally_erase (g := fun o (y : Outage) => if y.ended.isNone && p.memberIn o d then 1 else 0) wo hr
  have now := tally_set_erase (k := o) wo r' fun o (y : Outage) => if y.ended.isNone && q.memberIn o d then 1 else 0
  have rest : tally (p.outages.erase o) (fun o (y : Outage) => if y.ended.isNone && q.memberIn o d then 1 else 0) =
      tally (p.outages.erase o) fun o (y : Outage) => if y.ended.isNone && p.memberIn o d then 1 else 0 := by
    refine tally_congr (Laws.wf_erase _ _ _ wo) fun k y hy => ?_
    have other : k ≠ o := by
      rintro rfl
      rw [Laws.get?_erase_same] at hy
      cases hy
    have same : p.memberIn k d = q.memberIn k d := Bool.eq_iff_iff.mpr
      ((before k d).trans ⟨fun m => m.resolve_left fun h => other h.1, .inr⟩)
    rw [same]
  rw [count_eq_tally, outages]
  have here := before o d
  simp only [true_and] at here
  cases member : q.memberIn o d with
  | true =>
    rw [member] at here
    simp only [member, ended d member, Option.isNone_none, Bool.and_self, if_true, active, here.mpr (.inr rfl)] at was now eq
    simp at eq
    omega
  | false =>
    rw [member] at here
    simp only [Bool.false_eq_true, or_false] at here
    by_cases there : d = x.district
    · rw [if_pos ⟨there, member⟩] at eq
      simp only [member, active, here.mpr there, Option.isNone_none, Bool.and_self, Bool.and_false, Bool.false_eq_true,
        if_true, if_false] at was now
      omega
    · have none_ : p.memberIn o d = false := by
        cases m : p.memberIn o d with
        | true => exact absurd (here.mp m) there
        | false => rfl
      simp only [member, none_, Bool.and_false, Bool.false_eq_true, if_false, there, false_and] at was now eq
      omega

theorem agrees_restoreSegment (a : Agrees p) (hx : p.segments.get? id = some x) (unserved_ : x.supply ≠ .supplied) :
    Agrees (restoreSegment id p) := by
  obtain ⟨o, r, joined, hr, active, sums⟩ := outage_of_unserved a hx unserved_
  have tables := (Laws.m_restoreSegment id p).tables a.tables
  obtain ⟨_, w, _, _, wc, wo⟩ := tables_wf a.tables
  have frame := restoreSegment_frame w hx joined hr
  generalize restoreSegment id p = q at tables frame ⊢
  obtain ⟨r', segments, outages, ⟨members, off, priority, relit, ended⟩, districts, register, dispatch⟩ := frame
  have h := written_unserved hx segments
  obtain ⟨_, w', _, _, _, wo'⟩ := tables_wf tables
  have counted {γ : Type} {v : District → γ} (same : ∀ (c : District) (n : Nat), v { c with activeOutages := n } = v c)
      (d : Nat) : (q.districts.get? d).map v = (p.districts.get? d).map v := by
    rw [districts]
    split
    · rfl
    · exact view_modify (fun c _ => same c _) d
  have some_ := held_ge w hx joined fun _ => 1
  have alive : r'.ended = none ↔ r'.members ≠ 0 := by
    rw [ended, members, active]
    split <;> simp [*]
  refine ⟨tables, outagesAgree_written a.outages w w' hx h ⟨by simp [restored], Nat.zero_le _, fun n => absurd rfl n⟩ (.inl rfl)
    (fun u s hs => ?_) (fun u s hs => ?_), incidentsAgree_congr (by rw [register]) (fun _ => by rw [register]) a.incidents,
    crewsAgree_endJob a.crews wc rfl dispatch fun k other waits => ⟨fun leak => ?_, fun relight => ?_⟩,
    countsIncidents_congr (fun d => ?_) (fun _ => by rw [register]) a.opened,
    countsOutages_restored a w' hx joined hr active h outages (fun d member => ?_) districts,
    h.countsSuspects hx a.suspects w w' (fun d => ?_) rfl rfl⟩
  · rw [outages, get?_set]
    split
    · exact ⟨r', rfl⟩
    · exact ⟨s, hs⟩
  · rw [outages, get?_set] at hs
    split at hs
    next here =>
      cases hs
      subst here
      refine ⟨r, hr, ?_, ?_, ?_, ?_, alive⟩
      · have := sums.members
        simp only [restored, joined, if_true]
        simp
        omega
      · have := sums.off
        have := held_ge w hx joined (·.customers)
        simp [restored, joined]
        omega
      · have := sums.priority
        have := held_ge w hx joined (·.priority)
        simp [restored, joined]
        omega
      · have := sums.relit
        have := held_ge w hx joined (·.relit)
        simp [restored, joined]
        omega
    next other =>
      have there : x.outage ≠ some u := by rw [joined]; exact fun h => other (Option.some.inj h).symm
      refine ⟨s, hs, ?_, ?_, ?_, ?_, a.outages.ended u s hs⟩ <;> simp [there, restored]
  · obtain ⟨i, hi, opened⟩ := waits.1 leak
    exact ⟨i, by rw [register]; exact hi, opened⟩
  · obtain ⟨y, hy, purged⟩ := waits.2 relight
    refine ⟨y, ?_, purged⟩
    rw [h k.item, if_neg, hy]
    intro here
    refine other ?_
    cases k
    cases relight
    cases here
    rfl
  · exact counted (fun _ _ => rfl) d
  · obtain ⟨n, y, hy, there, _⟩ := (memberIn_iff w' o d).mp member
    have left := held_pos w' hy there
    have moved := h.held hx w w' o fun _ => 1
    have := sums.members
    simp [restored, joined] at moved
    refine alive.mpr ?_
    omega
  · exact counted (fun _ _ => rfl) d

end

end Sys2Proof.Proofs
end

section
/-!
The agreement over a joining (R161 to R164): the joiners of one trace enter one record, one after another.
-/

namespace Sys2Proof.Proofs

open Sys2Proof Sys2Proof.Machine

section
variable {p q : Part} {id seg : Nat} {x : Segment} {r : Outage}

/-- Joiners are entering a record that stands apart from the register until the last has joined: the other outages have
their members, the record has its own, and the districts count it as soon as it has one in them. -/
structure Joining (id : Nat) (p : Part) (r : Outage) : Prop where
  segments : p.segments.wf 512 = true
  outages : p.outages.wf 64 = true
  active : r.ended = none
  sums : Sums p.segments id r
  others : ∀ o s, o ≠ id → p.outages.get? o = some s → Sums p.segments o s ∧ (s.ended = none ↔ s.members ≠ 0)
  present : ∀ n x o, p.segments.get? n = some x → x.outage = some o → o ≠ id → ∃ s, p.outages.get? o = some s
  districts : ∀ d c, p.districts.get? d = some c → c.activeOutages =
    tally (p.outages.erase id) (fun o y => if y.ended.isNone && p.memberIn o d then 1 else 0) +
      if p.memberIn id d then 1 else 0
  suspects : CountsSuspects p

/-- The members of the outages when a segment that was in none has joined one. -/
theorem memberIn_joined (w : p.segments.wf 512 = true) (w' : q.segments.wf 512 = true) (hx : p.segments.get? seg = some x)
    (none_ : x.outage = none) (h : Written p q seg (Segment.joining x id)) (o d : Nat) :
    q.memberIn o d = true ↔ p.memberIn o d = true ∨ (o = id ∧ d = x.district) := by
  rw [memberIn_iff w, memberIn_iff w']
  constructor
  · rintro ⟨n, y, hy, joined, here⟩
    rw [h n] at hy
    split at hy
    next => cases hy; exact .inr ⟨(Option.some.inj joined).symm, here.symm⟩
    next => exact .inl ⟨n, y, hy, joined, here⟩
  · rintro (⟨n, y, hy, joined, here⟩ | ⟨rfl, rfl⟩)
    · refine ⟨n, y, ?_, joined, here⟩
      rw [h n, if_neg, hy]
      rintro rfl
      cases hx.symm.trans hy
      rw [none_] at joined
      cases joined
    · exact ⟨seg, Segment.joining x o, by rw [h seg, if_pos rfl], rfl, rfl⟩

theorem joining_step (j : Joining id p r) (hx : p.segments.get? seg = some x) (none_ : x.outage = none) (zero : x.relit = 0) :
    Joining id (joinSegment id seg (p, r)).1 (joinSegment id seg (p, r)).2 := by
  rw [joinSegment_of_get? hx]
  obtain ⟨w, wo, active, sums, others, present, districts, suspects⟩ := j
  generalize after : ({ p with
    segments := p.segments.set seg (Segment.joining x id)
    districts := p.districts.modify x.district fun d => { d with
      suspects := if x.suspect then d.suspects - 1 else d.suspects
      activeOutages := if p.memberIn id x.district then d.activeOutages else d.activeOutages + 1 } } : Part) = q
  have segments : q.segments = p.segments.set seg (Segment.joining x id) := by rw [← after]
  have outages : q.outages = p.outages := by rw [← after]
  have districts_eq : q.districts = p.districts.modify x.district fun d => { d with
      suspects := if x.suspect then d.suspects - 1 else d.suspects
      activeOutages := if p.memberIn id x.district then d.activeOutages else d.activeOutages + 1 } := by rw [← after]
  have w' : q.segments.wf 512 = true := by rw [segments]; exact Laws.wf_set_used _ _ _ _ _ w hx
  have h : Written p q seg (Segment.joining x id) := fun n => by rw [segments]; exact get?_set _ _ _ _
  have moved (o : Nat) (g : Segment → Nat) : held q.segments o g = held p.segments o g +
      if id = o then g (Segment.joining x id) else 0 := by
    have := h.held hx w w' o g
    simpa [none_, Segment.joining] using this
  have member := memberIn_joined w w' hx none_ h
  refine ⟨w', by rw [outages]; exact wo, active, ?_, fun o s other hs => ?_, fun n y o hy joined other => ?_, fun d c hc => ?_, fun d c hc => ?_⟩
  · refine ⟨?_, ?_, ?_, ?_⟩
    · rw [moved id, if_pos rfl, ← sums.members]; rfl
    · rw [moved id, if_pos rfl, ← sums.off]; rfl
    · rw [moved id, if_pos rfl, ← sums.priority]; rfl
    · rw [moved id, if_pos rfl, ← sums.relit, show (Segment.joining x id).relit = 0 from zero]; rfl
  · rw [outages] at hs
    obtain ⟨counts, alive⟩ := others o s other hs
    have stays (g : Segment → Nat) : held q.segments o g = held p.segments o g := by
      rw [moved o, if_neg (Ne.symm other)]; rfl
    exact ⟨⟨by rw [stays, counts.members], by rw [stays, counts.off], by rw [stays, counts.priority],
      by rw [stays, counts.relit]⟩, alive⟩
  · rw [outages]
    rw [h n] at hy
    split at hy
    next => cases hy; exact absurd (Option.some.inj joined).symm other
    next => exact present n y o hy joined other
  · rw [districts_eq, get?_modify] at hc
    obtain ⟨c', hc', eq⟩ := Option.map_eq_some_iff.mp hc
    have before := districts d c' hc'
    have same : tally (q.outages.erase id) (fun o y => if y.ended.isNone && q.memberIn o d then 1 else 0) =
        tally (p.outages.erase id) fun o y => if y.ended.isNone && p.memberIn o d then 1 else 0 := by
      rw [outages]
      refine tally_congr (Laws.wf_erase _ _ _ wo) fun o y hy => ?_
      have other : o ≠ id := by
        rintro rfl
        rw [Laws.get?_erase_same] at hy
        cases hy
      have stays : q.memberIn o d = p.memberIn o d := Bool.eq_iff_iff.mpr
        ((member o d).trans ⟨fun m => m.resolve_right fun h => other h.1, .inl⟩)
      rw [stays]
    rw [same, ← eq]
    have here := member id d
    simp only [true_and] at here
    by_cases there : d = x.district
    · subst there
      rw [here.mpr (.inr rfl)]
      cases was : p.memberIn id x.district <;> simp [was] at before ⊢ <;> omega
    · have stays : q.memberIn id d = p.memberIn id d := Bool.eq_iff_iff.mpr
        (here.trans ⟨fun m => m.resolve_right there, .inl⟩)
      rw [stays, if_neg there]
      exact before
  · have counts := tally_set (g := fun _ y => if decide (y.district = d) && y.suspect then 1 else 0) w hx
      (Segment.joining x id)
    rw [← count_eq_tally, ← count_eq_tally, ← segments] at counts
    rw [districts_eq, get?_modify] at hc
    obtain ⟨c', hc', eq⟩ := Option.map_eq_some_iff.mp hc
    have before := suspects d c' hc'
    rw [← eq]
    by_cases here : d = x.district
    · subst here
      cases suspect : x.suspect <;> simp [suspect, Segment.joining] at counts ⊢ <;> omega
    · simp only [if_neg here]
      simp [Ne.symm here, Segment.joining] at counts
      omega

theorem joining_fold (js : List Nat) : ∀ {p : Part} {r : Outage}, Joining id p r → js.Nodup →
    (∀ n ∈ js, ∃ x, p.segments.get? n = some x ∧ x.outage = none ∧ x.relit = 0) →
    Joining id (js.foldl (fun acc seg => joinSegment id seg acc) (p, r)).1
      (js.foldl (fun acc seg => joinSegment id seg acc) (p, r)).2 := by
  induction js with
  | nil => exact fun j _ _ => j
  | cons n js ih =>
    intro p r j once joiners
    obtain ⟨fresh, once⟩ := List.nodup_cons.mp once
    obtain ⟨x, hx, none_, zero⟩ := joiners n List.mem_cons_self
    refine ih (joining_step j hx none_ zero) once fun m hm => ?_
    obtain ⟨y, hy, rest⟩ := joiners m (List.mem_cons_of_mem _ hm)
    refine ⟨y, ?_, rest⟩
    change (joinSegment id n (p, r)).1.segments.get? m = some y
    rw [joinSegment_of_get? hx]
    exact (Laws.get?_set_other _ _ _ _ fun same => fresh (by rw [← same]; exact hm)).trans hy

end

end Sys2Proof.Proofs
end

section
/-!
The agreement over a completed supply trace, up to its joiners (R93, R94, R164).
-/

namespace Sys2Proof.Proofs

open Sys2Proof Sys2Proof.Machine

section
variable {w : View} {p : Part}

theorem tally_add {α : Type} (t : Table α) (f g : Nat → α → Nat) :
    tally t f + tally t g = tally t fun k x => f k x + g k x := by
  simp only [tally]
  induction t.entries with
  | nil => rfl
  | cons e es ih =>
    simp only [List.map_cons, List.sum_cons]
    omega

/-- A segment as a completed trace writes it, with its mark (R79, R93). -/
def tracedIn (w : View) (p : Part) (n : Nat) (x : Segment) : Segment :=
  let reached := findEntry n (supplyTrace p w [] [])
  { x.traced reached with
    changed := x.changed || decide (x.reaching ≠ reached ∨ x.supply ≠ supplyAfter reached.isSome x.supply) }

/-- A segment goes OFF in a completed trace (R95). -/
def goesOff (w : View) (p : Part) (n : Nat) (x : Segment) : Bool :=
  (findEntry n (supplyTrace p w [] [])).isNone && x.supply != .off

theorem lostOff_segments (t : p.tablesOk) : (lostOff w p).segments = p.segments.map (tracedIn w p) := by
  obtain ⟨_, wf, _⟩ := tables_wf t
  obtain ⟨_, wf', _⟩ := tables_wf (lostOff_tables (w := w) t)
  exact table_ext wf' (Laws.wf_map _ _ _ wf) fun n => by rw [Laws.get?_map]; exact lostOff_segment w p n wf

theorem tracedIn_relit (n : Nat) (x : Segment) : (tracedIn w p n x).relit = if goesOff w p n x then 0 else x.relit := by
  simp only [tracedIn, Segment.traced, traced_relit, goesOff]
  simp

theorem held_traced (t : p.tablesOk) (o : Nat) (g : Segment → Nat)
    (same : ∀ n x, g (tracedIn w p n x) = g x) : held (lostOff w p).segments o g = held p.segments o g := by
  rw [held, lostOff_segments t, tally_map]
  simp only [same]
  rfl

/-- What the members of an outage that go OFF have relit. -/
theorem held_lost (t : p.tablesOk) (o : Nat) : held (lostOff w p).segments o (·.relit) +
    (((lostInTrace w p).filter fun e => decide (e.2.outage = some o)).map (·.2.relit)).sum = held p.segments o (·.relit) := by
  have lost : (((lostInTrace w p).filter fun e => decide (e.2.outage = some o)).map (·.2.relit)).sum =
      tally p.segments fun n x => if decide (x.outage = some o) && goesOff w p n x then x.relit else 0 := by
    rw [← sum_filter_eq_tally (t := p.segments) (fun n x => decide (x.outage = some o) && goesOff w p n x) (·.relit)]
    rw [lostInTrace, List.filter_filter, List.map_map]
    rfl
  rw [lost, held, lostOff_segments t, tally_map, tally_add, held]
  congr 1
  funext n x
  simp only [tracedIn_relit]
  by_cases h : x.outage = some o <;> cases off : goesOff w p n x <;> simp [tracedIn, Segment.traced, h]

/-- The sums of the outages, after the members that go OFF have left their relit counts. -/
theorem lostOff_sums (a : Agrees p) {o : Nat} {s : Outage} (hs : (lostOff w p).outages.get? o = some s) :
    Sums (lostOff w p).segments o s ∧ (s.ended = none ↔ s.members ≠ 0) := by
  obtain ⟨_, wf, _⟩ := tables_wf a.tables
  rw [lostOff_outage] at hs
  obtain ⟨r, hr, rfl⟩ := Option.map_eq_some_iff.mp hs
  obtain ⟨sums, alive⟩ := ((outagesAgree_iff wf).mp a.outages).2.2 o r hr
  refine ⟨⟨?_, ?_, ?_, ?_⟩, alive⟩
  · rw [held_traced a.tables o _ fun _ _ => rfl]; exact sums.members
  · rw [held_traced a.tables o _ fun _ _ => rfl]; exact sums.off
  · rw [held_traced a.tables o _ fun _ _ => rfl]; exact sums.priority
  · have := held_lost (w := w) a.tables o
    have := sums.relit
    dsimp only
    omega

theorem lostOff_get? (wf : p.segments.wf 512 = true) (n : Nat) :
    (lostOff w p).segments.get? n = (p.segments.get? n).map (tracedIn w p n) := lostOff_segment w p n wf

theorem lostOff_memberIn (a : Agrees p) (o d : Nat) : (lostOff w p).memberIn o d = p.memberIn o d := by
  obtain ⟨_, wf, _⟩ := tables_wf a.tables
  obtain ⟨_, wf', _⟩ := tables_wf (lostOff_tables (w := w) a.tables)
  refine Bool.eq_iff_iff.mpr ?_
  rw [memberIn_iff wf', memberIn_iff wf]
  refine exists_congr fun n => ?_
  rw [lostOff_get? wf]
  constructor
  · rintro ⟨y, hy, joined, here⟩
    obtain ⟨x, hx, rfl⟩ := Option.map_eq_some_iff.mp hy
    exact ⟨x, hx, joined, here⟩
  · rintro ⟨x, hx, joined, here⟩
    exact ⟨tracedIn w p n x, by rw [hx]; rfl, joined, here⟩

theorem lostOff_present (a : Agrees p) {n o : Nat} {x : Segment} (hx : (lostOff w p).segments.get? n = some x)
    (joined : x.outage = some o) : ∃ s, (lostOff w p).outages.get? o = some s := by
  obtain ⟨_, wf, _⟩ := tables_wf a.tables
  rw [lostOff_get? wf] at hx
  obtain ⟨y, hy, rfl⟩ := Option.map_eq_some_iff.mp hx
  obtain ⟨r, hr, _⟩ := a.outages.active n y o hy joined
  exact ⟨_, by rw [lostOff_outage, hr]; rfl⟩

theorem lostOff_counts (a : Agrees p) : CountsOutages (lostOff w p) ∧ CountsSuspects (lostOff w p) := by
  obtain ⟨_, wf, _, _, _, wo⟩ := tables_wf a.tables
  obtain ⟨_, _, _, _, _, wo'⟩ := tables_wf (lostOff_tables (w := w) a.tables)
  have districts : (lostOff w p).districts = p.districts := by rw [lostOff_frame]
  refine ⟨countsOutages_of a.active wo wo' (fun _ => by rw [districts]) (fun o => ?_) (lostOff_memberIn a), fun d r hr => ?_⟩
  · rw [lostOff_outage]
    cases p.outages.get? o <;> rfl
  · rw [districts] at hr
    rw [a.suspects d r hr, lostOff_segments a.tables, count_eq_tally, count_eq_tally, tally_map]
    rfl

end

end Sys2Proof.Proofs
end

section
/-!
The agreement over a completed supply trace (R93 to R95, R160 to R164).
-/

namespace Sys2Proof.Proofs

open Sys2Proof Sys2Proof.Machine

section
variable {w : View} {p q : Part} {c : Cause} {id : Nat}

/-- The items of some crews end. -/
theorem crewsAgree_released (h : p.CrewsAgree) (w : p.dispatch.crews.wf 48 = true) {jobs : List Job}
    (released : p.Released q jobs) (waits : ∀ i, i ∉ jobs → awaits p i → awaits q i) : q.CrewsAgree :=
  crewsAgree_gone h (fun j => decide (j ∈ jobs)) (released.2 w h.one) fun i other => waits i (of_decide_eq_false other)

/-! ## The record that the joiners enter (R162) -/

/-- No segment is a member of an outage. -/
def Vacant (p : Part) (id : Nat) : Prop := ∀ n x, p.segments.get? n = some x → x.outage ≠ some id

theorem held_vacant (wf : p.segments.wf 512 = true) (h : Vacant p id) (g : Segment → Nat) : held p.segments id g = 0 := by
  rw [held, tally_congr wf (g' := fun _ _ => 0) fun n x hx => if_neg (h n x hx)]
  simp [tally]

theorem memberIn_vacant (wf : p.segments.wf 512 = true) (h : Vacant p id) (d : Nat) : p.memberIn id d = false := by
  refine Bool.eq_false_iff.mpr fun member => ?_
  obtain ⟨n, x, hx, joined, _⟩ := (memberIn_iff wf id d).mp member
  exact h n x hx joined

theorem vacant_of_ended (wf : p.segments.wf 512 = true) {r : Outage} (sums : Sums p.segments id r) (none_ : r.members = 0) :
    Vacant p id := fun n x hx joined => by
  have := held_pos wf hx joined
  have := sums.members
  omega

/-- The joiners of a completed trace may enter the record that R162 picks. -/
theorem joining_lostOff (a : Agrees p) {base : Outage} {j : Bool} (found : (lostOff w p).outageFor c = some (id, base, j)) :
    Joining id (lostOff w p) base := by
  have tables := lostOff_tables (w := w) a.tables
  obtain ⟨_, wf, _, _, _, wo⟩ := tables_wf tables
  obtain ⟨counts, suspects⟩ := lostOff_counts (w := w) a
  have sums {o : Nat} {s : Outage} (hs : (lostOff w p).outages.get? o = some s) := lostOff_sums (w := w) a hs
  have fresh (now : Nat) : (openedOutage c now).ended = none ∧ (openedOutage c now).members = 0 ∧
      (openedOutage c now).customersOff = 0 ∧ (openedOutage c now).priorityOff = 0 ∧
      (openedOutage c now).customersRelit = 0 := by cases c <;> exact ⟨rfl, rfl, rfl, rfl, rfl⟩
  have whole (active : base.ended = none) (sums_ : Sums (lostOff w p).segments id base)
      (was : ∀ d, tally (lostOff w p).outages (fun o y => if y.ended.isNone && (lostOff w p).memberIn o d then 1 else 0) =
        tally ((lostOff w p).outages.erase id) (fun o y => if y.ended.isNone && (lostOff w p).memberIn o d then 1 else 0) +
          if (lostOff w p).memberIn id d then 1 else 0) : Joining id (lostOff w p) base :=
    ⟨wf, wo, active, sums_, fun o s _ hs => sums hs, fun n x o hx joined _ => lostOff_present a hx joined,
      fun d r hr => by rw [counts d r hr, count_eq_tally]; exact was d, suspects⟩
  have empty (h : Vacant (lostOff w p) id) (eq : base = openedOutage c (lostOff w p).time)
      (gone : ∀ r, (lostOff w p).outages.get? id = some r → r.ended ≠ none) : Joining id (lostOff w p) base := by
    obtain ⟨active, members, off, priority, relit⟩ := fresh (lostOff w p).time
    refine whole (by rw [eq, active]) ⟨?_, ?_, ?_, ?_⟩ fun d => ?_
    · rw [eq, members, held_vacant wf h]
    · rw [eq, off, held_vacant wf h]
    · rw [eq, priority, held_vacant wf h]
    · rw [eq, relit, held_vacant wf h]
    · rw [memberIn_vacant wf h]
      refine (tally_erase_zero wo fun r hr => ?_).symm
      simp [gone r hr]
  obtain ⟨o, base', joined, found', picked⟩ := outageFor_cases (lostOff w p) c wo
  cases found.symm.trans found'
  rcases picked with ⟨free, eq⟩ | ⟨_, eq, r, t, hr, ended, _⟩ | ⟨_, active, r, hr, eq, _⟩
  · have none_ := (Laws.firstFree_spec _ _ _ free).2
    refine empty (fun n x hx there => ?_) eq fun r hr => ?_
    · obtain ⟨s, hs⟩ := lostOff_present a hx there
      rw [none_] at hs
      cases hs
    · rw [none_] at hr
      cases hr
  · obtain ⟨counts_, alive⟩ := sums hr
    have zero : r.members = 0 := by
      by_contra some_
      rw [alive.mpr some_] at ended
      cases ended
    refine empty (vacant_of_ended wf counts_ zero) eq fun s hs => ?_
    cases hr.symm.trans hs
    rw [ended]
    exact Option.some_ne_none t
  · obtain ⟨⟨members, off, priority, relit⟩, _⟩ := sums hr
    have open_ := active id r hr
    refine whole (by rw [eq]; exact open_) (by rw [eq]; exact ⟨members, off, priority, relit⟩) fun d => ?_
    have erased := tally_erase (g := fun o (y : Outage) => if y.ended.isNone && (lostOff w p).memberIn o d then 1 else 0) wo hr
    rw [open_] at erased
    simpa using erased.symm

/-! ## What the segments say afterwards (R93, R94) -/

theorem sound_traced {x : Segment} (n : Nat) (sound : Sound x) (stays : goesOff w p n x = true → x.outage.isSome = true) :
    Sound (tracedIn w p n x) := by
  obtain ⟨member, few, relit⟩ := sound
  have relit_eq := tracedIn_relit (w := w) (p := p) n x
  have supply : (tracedIn w p n x).supply = supplyAfter (findEntry n (supplyTrace p w [] [])).isSome x.supply := rfl
  have off : goesOff w p n x = ((findEntry n (supplyTrace p w [] [])).isNone && x.supply != .off) := rfl
  generalize findEntry n (supplyTrace p w [] []) = reached at supply off
  refine ⟨?_, ?_, fun some_ => ?_⟩
  · show x.outage.isSome = true ↔ _
    rw [supply]
    cases reached with
    | some f => rw [member]; cases x.supply <;> simp [supplyAfter]
    | none =>
      refine ⟨fun _ => by simp [supplyAfter], fun _ => ?_⟩
      by_cases here : x.supply = .off
      · exact member.mpr (by rw [here]; decide)
      · exact stays (by rw [off]; simp [here])
  · show _ ≤ x.customers
    rw [relit_eq]
    split
    · exact Nat.zero_le _
    · exact few
  · rw [relit_eq] at some_
    split at some_
    · exact absurd rfl some_
    next stayed =>
      have was := relit some_
      rw [supply]
      cases reached with
      | some f => rcases was with h | h <;> simp [supplyAfter, h]
      | none => rcases was with h | h <;> rw [off] at stayed <;> simp [h] at stayed

theorem sound_joined {x : Segment} (n : Nat) (off : goesOff w p n x = true) :
    Sound (Segment.joining (tracedIn w p n x) id) := by
  have relit : (tracedIn w p n x).relit = 0 := by rw [tracedIn_relit, off]; rfl
  have supply : (tracedIn w p n x).supply = .off := by
    have none_ : (findEntry n (supplyTrace p w [] [])).isNone = true := (Bool.and_eq_true _ _ ▸ off).1
    simp only [tracedIn, Segment.traced, supplyAfter, ← Option.not_isNone, none_]
    rfl
  refine ⟨⟨fun _ => ?_, fun _ => rfl⟩, ?_, fun some_ => absurd relit some_⟩
  · show (tracedIn w p n x).supply ≠ .supplied
    rw [supply]
    decide
  · show (tracedIn w p n x).relit ≤ _
    rw [relit]
    exact Nat.zero_le _

theorem mem_lostInTrace (wf : p.segments.wf 512 = true) {e : Nat × Segment} : e ∈ lostInTrace w p ↔
    p.segments.get? e.1 = some e.2 ∧ goesOff w p e.1 e.2 = true := by
  rw [lostInTrace, List.mem_filter]
  exact and_congr_left fun _ => ⟨fun h => get?_of_mem wf h, fun h => Laws.mem_of_get? _ _ _ h⟩

/-- The joiners are the segments that go OFF in no outage (R95). -/
theorem mem_joinersOf (wf : p.segments.wf 512 = true) (n : Nat) : n ∈ joinersOf (lostInTrace w p) ↔
    ∃ x, p.segments.get? n = some x ∧ goesOff w p n x = true ∧ x.outage = none := by
  simp only [joinersOf, List.mem_map, List.mem_filter, mem_lostInTrace wf, Option.isNone_iff_eq_none]
  constructor
  · rintro ⟨⟨m, x⟩, ⟨⟨hx, off⟩, none_⟩, rfl⟩
    exact ⟨x, hx, off, none_⟩
  · rintro ⟨x, hx, off, none_⟩
    exact ⟨(n, x), ⟨⟨hx, off⟩, none_⟩, rfl⟩

theorem traced_purged {x : Segment} {n : Nat} (stays : goesOff w p n x = false) (purged : x.supply = .purged) :
    (tracedIn w p n x).supply = .purged := by
  have off : goesOff w p n x = ((findEntry n (supplyTrace p w [] [])).isNone && x.supply != .off) := rfl
  have supply : (tracedIn w p n x).supply = supplyAfter (findEntry n (supplyTrace p w [] [])).isSome x.supply := rfl
  generalize findEntry n (supplyTrace p w [] []) = reached at supply off
  rw [supply, purged]
  cases reached with
  | some f => rfl
  | none => rw [off, purged] at stays; cases stays

theorem joinOutage_eq {js : List Nat} {base : Outage} {j : Bool} (some_ : js ≠ [])
    (found : p.outageFor c = some (id, base, j)) : ∃ n, joinOutage js c p =
      place n (putOutage id (js.foldl (fun acc seg => joinSegment id seg acc) (p, base)).2
        (js.foldl (fun acc seg => joinSegment id seg acc) (p, base)).1) := by
  cases js with
  | nil => exact absurd rfl some_
  | cons n js =>
    simp only [joinOutage, found]
    exact ⟨_, rfl⟩

/-- When the last joiner has joined, its record enters the register: the outages and the districts agree. -/
theorem agrees_of_joining {r : Outage} (j : Joining id p r) {n : Nat} {x : Segment} (hx : p.segments.get? n = some x)
    (member : x.outage = some id) (sound : ∀ n x, p.segments.get? n = some x → Sound x)
    (segments : q.segments = p.segments) (districts : q.districts = p.districts) (outages : q.outages = p.outages.set id r) :
    q.OutagesAgree ∧ CountsOutages q ∧ CountsSuspects q := by
  obtain ⟨w, wo, active, sums, others, present, counts, suspects⟩ := j
  have alive : r.members ≠ 0 := by
    have := held_pos w hx member
    rw [sums.members]
    omega
  refine ⟨(outagesAgree_iff (by rw [segments]; exact w)).mpr ⟨by rw [segments]; exact sound, fun m y o hy joined => ?_,
    fun o s hs => ?_⟩, fun d e he => ?_, countsSuspects_congr (fun _ => by rw [districts]) segments suspects⟩
  · rw [segments] at hy
    rw [outages, get?_set]
    split
    · exact ⟨r, rfl⟩
    next other => exact present m y o hy joined other
  · rw [outages, get?_set] at hs
    rw [segments]
    split at hs
    next here => cases hs; rw [here]; exact ⟨sums, fun _ => alive, fun _ => active⟩
    next other => exact others o s other hs
  · rw [districts] at he
    have member (o : Nat) : q.memberIn o d = p.memberIn o d := by rw [Part.memberIn, segments]; rfl
    rw [counts d e he, count_eq_tally, outages, tally_set_erase wo, active]
    simp only [member]
    rfl

/-- The part after a trace's joiners have joined agrees in its outages and districts. -/
theorem agrees_joined (a : Agrees p) (hq : joinOutage (joinersOf (lostInTrace w p)) c (lostOff w p) = q) :
    q.OutagesAgree ∧ CountsIncidents q ∧ CountsOutages q ∧ CountsSuspects q ∧ q.register = p.register ∧
      q.dispatch = p.dispatch ∧ ∀ n x, p.segments.get? n = some x → goesOff w p n x = false →
        ∃ y, q.segments.get? n = some y ∧ (x.supply = .purged → y.supply = .purged) := by
  obtain ⟨_, wf, _⟩ := tables_wf a.tables
  have tables := lostOff_tables (w := w) a.tables
  obtain ⟨_, wf', _, _, _, wo'⟩ := tables_wf tables
  have joiners (n : Nat) := mem_joinersOf (w := w) wf n
  have register : (lostOff w p).register = p.register := by rw [lostOff_frame]
  have districts : (lostOff w p).districts = p.districts := by rw [lostOff_frame]
  by_cases none_ : joinersOf (lostInTrace w p) = []
  · rw [none_] at hq
    cases show lostOff w p = q from hq
    obtain ⟨active, suspects⟩ := lostOff_counts (w := w) a
    refine ⟨(outagesAgree_iff wf').mpr ⟨fun n y hy => ?_, fun n y o hy joined => lostOff_present a hy joined,
      fun o s hs => lostOff_sums a hs⟩, countsIncidents_congr (fun _ => by rw [districts]) (fun _ => by rw [register]) a.opened, active,
      suspects, register, by rw [lostOff_frame], fun n x hx stays => ⟨tracedIn w p n x, ?_, traced_purged stays⟩⟩
    · rw [lostOff_get? wf] at hy
      obtain ⟨x, hx, rfl⟩ := Option.map_eq_some_iff.mp hy
      refine sound_traced n (sound_of_agrees a hx) fun off => ?_
      by_contra alone
      have := (joiners n).mpr ⟨x, hx, off, by simpa using alone⟩
      rw [none_] at this
      cases this
    · rw [lostOff_get? wf, hx]
      rfl
  · obtain ⟨id, base, j, found, _⟩ := outageFor_cases (lostOff w p) c wo'
    have once := lostInTrace_ids_nodup (w := w) wf
    have some_ : (lostInTrace w p).filter (fun e => e.2.outage.isNone) ≠ [] := fun h => none_ (by rw [joinersOf, h]; rfl)
    obtain ⟨frame, segs, dists, _⟩ := joinOutage_spec some_ found wf' once fun e he => joiner_known wf he
    change joinOutage (joinersOf (lostInTrace w p)) c (lostOff w p) = _ at frame
    change ∀ n, (joinOutage (joinersOf (lostInTrace w p)) c (lostOff w p)).segments.get? n = _ at segs
    change ∀ d, (joinOutage (joinersOf (lostInTrace w p)) c (lostOff w p)).districts.get? d = _ at dists
    rw [hq] at frame segs dists
    have joined := joining_fold (joinersOf (lostInTrace w p)) (joining_lostOff a found) once fun n hn => by
      obtain ⟨x, hx, off, alone⟩ := (joiners n).mp hn
      refine ⟨tracedIn w p n x, by rw [lostOff_get? wf, hx]; rfl, alone, ?_⟩
      rw [tracedIn_relit, off]
      rfl
    obtain ⟨n, eq⟩ := joinOutage_eq none_ found
    rw [hq] at eq
    generalize ((joinersOf (lostInTrace w p)).foldl (fun acc seg => joinSegment id seg acc) (lostOff w p, base)) = x at joined eq
    obtain ⟨m, hm⟩ := List.exists_mem_of_ne_nil _ none_
    obtain ⟨y, hy, off, alone⟩ := (joiners m).mp hm
    have segments : q.segments = x.1.segments := by rw [eq]; simp
    have get (k : Nat) : q.segments.get? k = (p.segments.get? k).map fun z =>
        if k ∈ joinersOf (lostInTrace w p) then Segment.joining (tracedIn w p k z) id else tracedIn w p k z := by
      rw [segs, lostOff_get? wf, Option.map_map]
      rfl
    have entered : x.1.segments.get? m = some (Segment.joining (tracedIn w p m y) id) := by
      rw [← segments, get, hy, Option.map_some, if_pos hm]
    have sound (k : Nat) (z : Segment) (hz : x.1.segments.get? k = some z) : Sound z := by
      rw [← segments, get] at hz
      obtain ⟨u, hu, eq⟩ := Option.map_eq_some_iff.mp hz
      rw [← eq]
      split
      next joins =>
        obtain ⟨v, hv, off, _⟩ := (joiners k).mp joins
        cases hu.symm.trans hv
        exact sound_joined k off
      next stays =>
        refine sound_traced k (sound_of_agrees a hu) fun off => ?_
        by_contra alone
        exact stays ((joiners k).mpr ⟨u, hu, off, by simpa using alone⟩)
    obtain ⟨outages, active, suspects⟩ := agrees_of_joining (q := q) joined entered rfl sound segments
      (by rw [eq]; simp) (by rw [eq]; simp [putOutage, refreshLamps])
    refine ⟨outages, countsIncidents_congr (fun d => ?_) (fun _ => by rw [frame, register]) a.opened, active, suspects,
      by rw [frame, register], by rw [frame, lostOff_frame], fun k z hz stays => ⟨tracedIn w p k z, ?_, traced_purged stays⟩⟩
    · rw [dists, districts]
      cases p.districts.get? d <;> rfl
    · rw [get, hz, Option.map_some, if_neg]
      intro joins
      obtain ⟨u, hu, off, _⟩ := (joiners k).mp joins
      cases hz.symm.trans hu
      rw [stays] at off
      cases off

theorem agrees_completeTrace (a : Agrees p) (c : Cause) (w : View) : Agrees (completeTrace c w p) := by
  rw [completeTrace_eq, ← lostOff]
  refine (mild_dispatchDecide _).agrees ?_
  obtain ⟨_, wf, _, _, wc, _⟩ := tables_wf a.tables
  have tables := ((mild_endRelights (lostInTrace w p) _).tables ∘ (mild_idleEngine _).tables)
    ((Laws.m_joinOutage (joinersOf (lostInTrace w p)) c (lostOff w p)).tables (lostOff_tables a.tables))
  generalize joined : joinOutage (joinersOf (lostInTrace w p)) c (lostOff w p) = q at tables ⊢
  obtain ⟨outages, incidents, active, suspects, register, dispatch, purged⟩ := agrees_joined a joined
  have frame := endRelights_frame (lostInTrace w p) (idleEngine q)
  have released := released_endJobs (p := p) (relightsOf (lostInTrace w p)) (told := idleEngine q) dispatch
  rw [← endRelights_eq] at released
  generalize endRelights (lostInTrace w p) (idleEngine q) = r at frame released tables ⊢
  have segments : r.segments = q.segments := by rw [frame]; rfl
  have same_register : r.register = p.register := by rw [frame]; exact register
  have same_outages : r.outages = q.outages := by rw [frame]; rfl
  have districts : r.districts = q.districts := by rw [frame]; rfl
  refine ⟨tables, outagesAgree_congr segments same_outages outages, incidentsAgree_congr (by rw [same_register])
    (fun _ => by rw [same_register]) a.incidents, crewsAgree_released a.crews wc released fun j other waits =>
      ⟨fun leak => ?_, fun relight => ?_⟩, countsIncidents_congr (fun _ => by rw [districts])
    (fun _ => by rw [same_register, register]) incidents, countsOutages_congr (fun _ => by rw [districts]) same_outages segments active,
    countsSuspects_congr (fun _ => by rw [districts]) segments suspects⟩
  · rw [same_register]
    exact waits.1 leak
  · obtain ⟨x, hx, was⟩ := waits.2 relight
    have stays : goesOff w p j.item x = false := by
      refine Bool.eq_false_iff.mpr fun off => other (List.mem_map.mpr ⟨(j.item, x), ?_, ?_⟩)
      · exact List.mem_filter.mpr ⟨(mem_lostInTrace wf).mpr ⟨hx, off⟩, decide_eq_true (.inl was)⟩
      · obtain ⟨cls, item⟩ := j
        cases relight
        rfl
    obtain ⟨y, hy, kept⟩ := purged j.item x hx stays
    exact ⟨y, by rw [segments]; exact hy, kept was⟩

end

end Sys2Proof.Proofs
end

section
/-!
The agreement over every action and every event (R78, R128 to R130, R142, R145, R160 to R164).
-/

namespace Sys2Proof.Proofs

open Sys2Proof Sys2Proof.Machine

section
variable {p q : Part}

/-! ## A part with nothing under way -/

/-- No incident, call or outage, no crew with a job, and every segment SUPPLIED. -/
structure Resting (p : Part) : Prop where
  tables : p.tablesOk
  incidents : ∀ k, p.register.incidents.get? k = none
  calls : ∀ k, p.register.calls.get? k = none
  outages : ∀ k, p.outages.get? k = none
  crews : ∀ a c, p.dispatch.crews.get? a = some c → c.job = none ∧ ¬atWork c
  segments : ∀ id x, p.segments.get? id = some x →
    x.supply = .supplied ∧ x.outage = none ∧ x.relit = 0 ∧ x.suspect = false
  districts : ∀ d r, p.districts.get? d = some r → r.openIncidents = 0 ∧ r.activeOutages = 0 ∧ r.suspects = 0

theorem count_eq_zero {α : Type} {t : Table α} {n : Nat} (w : t.wf n = true) {f : Nat → α → Bool}
    (none_ : ∀ k x, t.get? k = some x → f k x = false) : t.count f = 0 := by
  rw [count_eq_tally, tally_congr w (g' := fun _ _ => 0) fun k x hx => by rw [none_ k x hx]; rfl]
  simp [tally]

theorem Resting.agrees (h : Resting p) : Agrees p := by
  obtain ⟨_, ws, _, wi, _, wo⟩ := tables_wf h.tables
  refine ⟨h.tables, (outagesAgree_iff ws).mpr ⟨fun id x hx => ?_, fun id x o hx joined => ?_, fun o r hr => ?_⟩,
    ⟨fun a b i j hi => ?_, fun n c hc => ?_, fun id i hi => ?_⟩, crewsAgree_iff.mpr ⟨fun a b c d j hc _ job => ?_,
      fun a c hc => ?_, fun a c j hc _ job => ?_⟩, fun d r hr => ?_, fun d r hr => ?_, fun d r hr => ?_⟩
  · obtain ⟨supplied, none_, zero, _⟩ := h.segments id x hx
    exact ⟨by simp [none_, supplied], by rw [zero]; exact Nat.zero_le _, fun some_ => absurd zero some_⟩
  · rw [(h.segments id x hx).2.1] at joined; cases joined
  · rw [h.outages] at hr; cases hr
  · rw [h.incidents] at hi; cases hi
  · rw [h.calls] at hc; cases hc
  · rw [h.incidents] at hi; cases hi
  · rw [(h.crews a c hc).1] at job; cases job
  · obtain ⟨none_, idle⟩ := h.crews a c hc
    simp [none_, idle]
  · rw [(h.crews a c hc).1] at job; cases job
  · rw [(h.districts d r hr).1, count_eq_zero wi fun k i hi => ?_]
    rw [h.incidents] at hi; cases hi
  · rw [(h.districts d r hr).2.1, count_eq_zero wo fun k o ho => ?_]
    rw [h.outages] at ho; cases ho
  · rw [(h.districts d r hr).2.2, count_eq_zero ws fun k x hx => ?_]
    rw [(h.segments k x hx).2.2.2, Bool.and_false]

theorem get?_of_entries_nil {α : Type} {t : Table α} (h : t.entries = []) (k : Nat) : t.get? k = none := by
  cases hx : t.get? k with
  | none => rfl
  | some x =>
    have := Laws.mem_of_get? t k x hx
    rw [h] at this
    cases this

theorem resting_of_rest (a : Agrees p) (rest : p.AtRest) : Resting p := by
  have noIncident := get?_of_entries_nil rest.incidents
  have noOutage := get?_of_entries_nil rest.outages
  obtain ⟨_, ws, _, wi, _, wo⟩ := tables_wf a.tables
  refine ⟨a.tables, noIncident, get?_of_entries_nil rest.calls, noOutage, fun k c hc => ?_, fun id x hx => ?_, fun d r hr => ?_⟩
  · have none_ := rest.crews k c hc
    exact ⟨none_, fun busy => by
      have := ((crewsAgree_iff.mp a.crews).2.1 k c hc).mpr busy
      rw [none_] at this
      cases this⟩
  · obtain ⟨supplied, suspect⟩ := rest.segments id x hx
    obtain ⟨member, _, relit⟩ := sound_of_agrees a hx
    refine ⟨supplied, ?_, ?_, suspect⟩
    · cases joined : x.outage with
      | none => rfl
      | some o => exact absurd supplied (member.mp (by rw [joined]; rfl))
    · by_contra some_
      rcases relit some_ with h | h <;> rw [supplied] at h <;> cases h
  · refine ⟨(a.opened d r hr).trans (count_eq_zero wi fun k i hi => ?_), (a.active d r hr).trans (count_eq_zero wo fun k o ho => ?_),
      (a.suspects d r hr).trans (count_eq_zero ws fun k x hx => ?_)⟩
    · rw [noIncident] at hi; cases hi
    · rw [noOutage] at ho; cases ho
    · rw [(rest.segments k x hx).2, Bool.and_false]

theorem resting_endLoad (h : Resting p) : Agrees (enterRunning p) := by
  rw [enterRunning_eq]
  refine (mild_dispatchDecide _).agrees ?_
  have started := Laws.m_refreshLamps ((Laws.m_raise .load (setUp p)).trans (moves_enterRunning_lines _))
  have kept {γ : Type} (g : Part → γ) (lines : ∀ q n, g (startLine n q) = g q) (raises : ∀ q, g (raise .load q) = g q) :
      g ([0, 1, 2, 3].foldl (fun p n => startLine n p) (raise .load (setUp p))) = g (setUp p) :=
    (Laws.foldl_keeps g _ lines _ _).trans (raises _)
  have register := kept (·.register) (by simp) (by simp)
  have outages := kept (·.outages) (by simp) (by simp)
  have dispatch := kept (·.dispatch) (by simp) (by simp)
  have segments := kept (·.segments) (by simp) (by simp)
  have districts := kept (·.districts) (by simp) (by simp)
  generalize [0, 1, 2, 3].foldl (fun p n => startLine n p) (raise .load (setUp p)) = q at *
  refine (Resting.mk (started.tables (setUp_tables h.tables)) (by rw [show (refreshLamps q).register = _ from register]; exact h.incidents)
    (by rw [show (refreshLamps q).register = _ from register]; exact h.calls)
    (by rw [show (refreshLamps q).outages = _ from outages]; exact h.outages)
    (by rw [show (refreshLamps q).dispatch = _ from dispatch]; exact h.crews) (fun n x hx => ?_)
    (by rw [show (refreshLamps q).districts = _ from districts]; exact h.districts)).agrees
  rw [show (refreshLamps q).segments = _ from segments] at hx
  replace hx : (p.segments.map fun id s => s.started (p.feeds.idsWhere fun _ f => f.segment = id)).get? n = some x := hx
  rw [Laws.get?_map] at hx
  obtain ⟨y, _, rfl⟩ := Option.map_eq_some_iff.mp hx
  exact ⟨rfl, rfl, rfl, rfl⟩

/-- The actions of the load, on a part with nothing under way, and the others. -/
theorem agrees_recordActs (a : Agrees p) (rest : p.link.partState ≠ .running → p.AtRest) (tables : p.tablesOk → q.tablesOk)
    (h : RecordActs p q) : Agrees q := by
  have tables := tables a.tables
  cases h with
  | beginLoad unloaded =>
    have r := resting_of_rest a (rest (by rw [unloaded]; decide))
    exact (Resting.mk tables r.incidents r.calls r.outages r.crews r.segments r.districts).agrees
  | endLoad loading => exact resting_endLoad (resting_of_rest a (rest (by rw [loading]; decide)))
  | definePoint id pt loading _ _ =>
    have r := resting_of_rest a (rest (by rw [loading]; decide))
    exact (Resting.mk tables r.incidents r.calls r.outages r.crews r.segments r.districts).agrees
  | defineDistrict id lamp loading _ =>
    have r := resting_of_rest a (rest (by rw [loading]; decide))
    refine (Resting.mk tables r.incidents r.calls r.outages r.crews r.segments fun d e he => ?_).agrees
    replace he : (p.districts.set id { lamp := lamp }).get? d = some e := he
    rw [get?_set] at he
    split at he
    · cases he; exact ⟨rfl, rfl, rfl⟩
    · exact r.districts d e he
  | defineSegment id d tier cs pr vs loading _ =>
    have r := resting_of_rest a (rest (by rw [loading]; decide))
    refine (Resting.mk tables r.incidents r.calls r.outages r.crews (fun n x hx => ?_) r.districts).agrees
    replace hx : (p.segments.set id { district := d, tier := tier, customers := cs, priority := pr, valves := vs }).get? n =
      some x := hx
    rw [get?_set] at hx
    split at hx
    · cases hx; exact ⟨rfl, rfl, rfl, rfl⟩
    · exact r.segments n x hx
  | defineCrew id kind home state loading _ idle =>
    have r := resting_of_rest a (rest (by rw [loading]; decide))
    refine (Resting.mk tables r.incidents r.calls r.outages (fun k c hc => ?_) r.segments r.districts).agrees
    replace hc : (p.dispatch.crews.set id { kind := kind, home := home, state := state }).get? k = some c := hc
    rw [get?_set] at hc
    split at hc
    · cases hc
      refine ⟨rfl, ?_⟩
      rcases idle with rfl | rfl <;> simp [atWork]
    · exact r.crews k c hc
  | editSegment id s cs pr _ hs _ supplied => exact agrees_editSegment a hs supplied cs pr
  | noGasCall s _ => exact agrees_noGasCall a s
  | mergeCall id i c _ hi candidate => exact agrees_mergeCall a hi c candidate
  | openIncident id c _ candidate entry _ => exact agrees_openIncident a candidate entry
  | closeIncident id i _ hi open_ => exact (mild_dispatchDecide _).agrees (agrees_closeIncident a hi open_)
  | acceptOffer id c j _ hc offered job => exact agrees_acceptOffer a hc offered job
  | assignCrew id c j _ hc _ able => exact agrees_assignCrew a hc able
  | crewClears id c _ hc held => exact agrees_crewClears a hc held
  | purgeSegment id s _ hs recharged =>
    refine (mild_dispatchDecide _).agrees ?_
    split
    · exact agrees_purged a hs recharged
    · exact agrees_restoreSegment a hs (by rw [recharged]; decide)
  | relightSegment id s n _ hs lit =>
    have relit := agrees_addRelit a hs lit.symm n
    unfold relightSegment
    dsimp only
    split
    next =>
      have written : (addRelit id s n p).segments.get? id = some { s with relit := min (s.relit + n) s.customers } := by
        obtain ⟨frame, _⟩ := addRelit_spec hs n
        rw [frame]
        exact Laws.get?_set_same _ _ _
      refine (mild_dispatchDecide _).agrees (agrees_restoreSegment relit written ?_)
      rcases lit with h | h <;> simp [h]
    next => exact relit
  | dismiss id o _ ho ended => exact agrees_dismiss a ho ended
  | clearSuspect id s _ hs => exact agrees_clearSuspect a hs

end

end Sys2Proof.Proofs
end

section
/-!
The holds, the job queue and the engine in agreement with the plans (R87, R97, R109): what every operation but those of
one plan's own course keeps.
-/

namespace Sys2Proof.Proofs

open Sys2Proof Sys2Proof.Machine

/-- A plan's phase and its lists, for every plan. -/
abbrev Phases := Nat → Option (PlanPhase × List Nat × List Nat)

/-- The phases of a part's plans. -/
def phases (p : Part) : Phases := fun id => (p.plans.get? id).map planCore

/-- There is no such plan, or it has no hold, no job queued and none under way. -/
def Inert (c : Option (PlanPhase × List Nat × List Nat)) : Prop := ∀ x, c = some x → x.1 = .idle ∨ x.1 = .releasing

/-- The same phases, but for plans that are inert in both. -/
def Alike (c d : Phases) : Prop := ∀ id, d id = c id ∨ (Inert (c id) ∧ Inert (d id))

/-- The holders, the job queue and the engine are those of some phases. -/
structure Kept (c : Phases) (p : Part) : Prop where
  holders : ∀ v valve id, p.valves.get? v = some valve → (id ∈ valve.holders ↔
    ∃ close hold, c id = some (.holding, close, hold) ∧ (v ∈ close ∨ v ∈ hold))
  queued : p.trace.planQueue.Nodup
  requested : ∀ id, id ∈ p.trace.planQueue ↔ ∃ close hold, c id = some (.queued, close, hold)
  computing : ∀ id, p.trace.engine = .planJob id ↔ ∃ close hold, c id = some (.computed, close, hold)

/-- A part and the same part after operations that leave the holders, the queue and the engine. -/
structure Still (p q : Part) : Prop where
  holders : ∀ v, (q.valves.get? v).map (·.holders) = (p.valves.get? v).map (·.holders)
  queue : q.trace.planQueue = p.trace.planQueue
  engine : q.trace.engine = p.trace.engine

/-- And that leave every plan in its phase, or inert. -/
structure Steady (p q : Part) : Prop extends Still p q where
  wf : p.plans.wf 16 = true → q.plans.wf 16 = true
  alike : p.plans.wf 16 = true → Alike (phases p) (phases q)

section
variable {p q r : Part} {c d e : Phases} {id : Nat}

theorem phaseOf_holding {st : PlanState} : phaseOf st = .holding ↔ st = .executing ∨ st = .blocked ∨ st = .isolated := by
  cases st <;> simp [phaseOf]

theorem phaseOf_queued {st : PlanState} : phaseOf st = .queued ↔ st = .requested := by cases st <;> simp [phaseOf]

theorem phaseOf_computed {st : PlanState} : phaseOf st = .computed ↔ st = .computing := by cases st <;> simp [phaseOf]

theorem phases_some {x : PlanPhase × List Nat × List Nat} : phases p id = some x ↔
    ∃ q, p.plans.get? id = some q ∧ planCore q = x := Option.map_eq_some_iff

theorem plansAgree_iff : p.PlansAgree ↔ Kept (phases p) p := by
  have holding (id : Nat) (f : List Nat → List Nat → Prop) :
      (∃ q, p.plans.get? id = some q ∧ (q.state = .executing ∨ q.state = .blocked ∨ q.state = .isolated) ∧
        f q.closeList q.holdList) ↔ ∃ close hold, phases p id = some (.holding, close, hold) ∧ f close hold := by
    constructor
    · rintro ⟨q, hq, state, lists⟩
      exact ⟨_, _, phases_some.mpr ⟨q, hq, by rw [planCore, phaseOf_holding.mpr state]⟩, lists⟩
    · rintro ⟨close, hold, hc, lists⟩
      obtain ⟨q, hq, core⟩ := phases_some.mp hc
      simp only [planCore, Prod.mk.injEq] at core
      obtain ⟨phase, rfl, rfl⟩ := core
      exact ⟨q, hq, phaseOf_holding.mp phase, lists⟩
  have inPhase (id : Nat) (ph : PlanPhase) (st : PlanState) (one : ∀ s, phaseOf s = ph ↔ s = st) :
      (∃ q, p.plans.get? id = some q ∧ q.state = st) ↔ ∃ close hold, phases p id = some (ph, close, hold) := by
    constructor
    · rintro ⟨q, hq, state⟩
      exact ⟨_, _, phases_some.mpr ⟨q, hq, by rw [planCore, (one _).mpr state]⟩⟩
    · rintro ⟨close, hold, hc⟩
      obtain ⟨q, hq, core⟩ := phases_some.mp hc
      exact ⟨q, hq, (one _).mp (congrArg (·.1) core)⟩
  constructor
  · rintro ⟨holders, queued, requested, computing⟩
    exact ⟨fun v valve id hv => (holders v valve id hv).trans (holding id fun close hold => v ∈ close ∨ v ∈ hold), queued,
      fun id => (requested id).trans (inPhase id .queued .requested fun _ => phaseOf_queued),
      fun id => (computing id).trans (inPhase id .computed .computing fun _ => phaseOf_computed)⟩
  · rintro ⟨holders, queued, requested, computing⟩
    exact ⟨fun v valve id hv => (holders v valve id hv).trans (holding id fun close hold => v ∈ close ∨ v ∈ hold).symm, queued,
      fun id => (requested id).trans (inPhase id .queued .requested fun _ => phaseOf_queued).symm,
      fun id => (computing id).trans (inPhase id .computed .computing fun _ => phaseOf_computed).symm⟩

/-! ## Phases alike -/

theorem Alike.refl (c : Phases) : Alike c c := fun _ => .inl rfl

theorem Alike.trans (h : Alike c d) (k : Alike d e) : Alike c e := fun id => by
  rcases h id with same | ⟨before, after⟩
  · rw [← same]; exact k id
  · rcases k id with same | ⟨_, after'⟩
    · exact .inr ⟨before, by rw [same]; exact after⟩
    · exact .inr ⟨before, after'⟩

/-- Alike phases have the same plans in the three phases that matter. -/
theorem Alike.active (h : Alike c d) {ph : PlanPhase} (idle : ph ≠ .idle) (releasing : ph ≠ .releasing) {close hold : List Nat} :
    c id = some (ph, close, hold) ↔ d id = some (ph, close, hold) := by
  rcases h id with same | ⟨before, after⟩
  · rw [same]
  · constructor <;> intro hc
    · rcases before _ hc with h | h
      · exact absurd h idle
      · exact absurd h releasing
    · rcases after _ hc with h | h
      · exact absurd h idle
      · exact absurd h releasing

theorem Kept.alike (h : Kept c p) (k : Alike c d) : Kept d p := by
  obtain ⟨holders, queued, requested, computing⟩ := h
  refine ⟨fun v valve id hv => (holders v valve id hv).trans ?_, queued, fun id => (requested id).trans ?_,
    fun id => (computing id).trans ?_⟩
  all_goals
    refine exists_congr fun close => exists_congr fun hold => ?_
    rw [k.active (by decide) (by decide)]

/-! ## Steady operations -/

theorem Still.trans (h : Still p q) (k : Still q r) : Still p r :=
  ⟨fun v => (k.holders v).trans (h.holders v), k.queue.trans h.queue, k.engine.trans h.engine⟩

theorem Steady.refl (p : Part) : Steady p p := ⟨⟨fun _ => rfl, rfl, rfl⟩, fun h => h, fun _ => .refl _⟩

theorem Steady.trans (h : Steady p q) (k : Steady q r) : Steady p r where
  toStill := h.toStill.trans k.toStill
  wf := k.wf ∘ h.wf
  alike w := (h.alike w).trans (k.alike (h.wf w))

theorem Steady.then (h : Steady p q) {f : Part → Part} (hf : ∀ q, Steady q (f q)) : Steady p (f q) := h.trans (hf q)

theorem steady_foldl {α : Type} (f : Part → α → Part) (hf : ∀ q a, Steady q (f q a)) (as : List α) (p : Part) :
    Steady p (as.foldl f p) := by
  induction as generalizing p with
  | nil => exact .refl p
  | cons a as ih => exact (hf p a).trans (ih _)

theorem Calm.steady (h : Calm p q) : Steady p q where
  holders := h.holders
  queue := h.queue
  engine := h.engine
  wf := h.wf
  alike w id := by
    rcases h.plans w id with same | ⟨x, hx, releasing, none_⟩
    · exact .inl same
    · refine .inr ⟨fun y hy => ?_, fun y hy => ?_⟩
      · simp only [phases, hx, Option.map_some, Option.some.injEq] at hy
        rw [← hy]
        exact .inr (by rw [planCore, releasing]; rfl)
      · simp only [phases, none_, Option.map_none] at hy
        cases hy

theorem Still.kept (h : Still p q) (k : Kept c p) : Kept c q := by
  obtain ⟨holders, queued, requested, computing⟩ := k
  refine ⟨fun v valve id hv => ?_, by rw [h.queue]; exact queued, by rw [h.queue]; exact requested,
    by rw [h.engine]; exact computing⟩
  have same := h.holders v
  rw [hv] at same
  obtain ⟨y, hy, eq⟩ := Option.map_eq_some_iff.mp same.symm
  rw [← show y.holders = valve.holders from eq]
  exact holders v y id hy

theorem Steady.plansAgree (h : Steady p q) (w : p.plans.wf 16 = true) (agree : p.PlansAgree) : q.PlansAgree :=
  plansAgree_iff.mpr ((h.kept (plansAgree_iff.mp agree)).alike (h.alike w))

theorem still_of_eq (valves : q.valves = p.valves) (queue : q.trace.planQueue = p.trace.planQueue)
    (engine : q.trace.engine = p.trace.engine) : Still p q := ⟨fun _ => by rw [valves], queue, engine⟩

/-- Operations that leave the phases. -/
theorem Still.steady (h : Still p q) (wf : p.plans.wf 16 = true → q.plans.wf 16 = true) (same : phases q = phases p) :
    Steady p q := ⟨h, wf, fun _ => by rw [same]; exact .refl _⟩

theorem phases_congr (plans : q.plans = p.plans) : phases q = phases p := by
  unfold phases
  rw [plans]

theorem steady_orderOp (v : Nat) (a : Action) (o : Origin) (p : Part) : Steady p (orderOp v a o p) :=
  Still.steady ⟨orderOp_holders v a o p, by simp, by simp⟩ (by simp) (phases_congr (by simp))

theorem steady_orders (a : Action) (o : Origin) (vs : List Nat) (p : Part) :
    Steady p (vs.foldl (fun p v => orderOp v a o p) p) := steady_foldl _ (fun q v => steady_orderOp v a o q) vs p

end

end Sys2Proof.Proofs
end

section
/-!
The requests over plans, and the jobs of the trace engine, keep the holds, the job queue and the engine in agreement with
the plans (R87, R97, R101, R106, R109, R118 to R121).
-/

namespace Sys2Proof.Proofs

open Sys2Proof Sys2Proof.Machine

section
variable {p q r : Part} {c d : Phases} {id : Nat} {x : Plan} {y z : Option (PlanPhase × List Nat × List Nat)}

/-! ## One plan in a new phase -/

theorem inert_none : Inert none := fun _ h => by cases h

theorem inert_idle (close hold : List Nat) : Inert (some (.idle, close, hold)) := fun _ h => by cases h; exact .inl rfl

theorem inert_releasing (close hold : List Nat) : Inert (some (.releasing, close, hold)) := fun _ h => by
  cases h; exact .inr rfl

theorem Alike.update (h : Alike c d) (y : Option (PlanPhase × List Nat × List Nat)) :
    Alike (Function.update c id y) (Function.update d id y) := fun k => by
  by_cases hk : k = id
  · subst hk; simp
  · simpa [hk] using h k

/-- One plan goes from inert to inert. -/
theorem Alike.update_inert (h : Alike c d) (hy : Inert y) (hz : Inert z) :
    Alike (Function.update c id y) (Function.update d id z) := fun k => by
  by_cases hk : k = id
  · subst hk; exact .inr (by simp [hy, hz])
  · simpa [hk] using h k

theorem phases_setPlanState (id : Nat) (st : PlanState) (v : Option Nat) (p : Part) :
    phases (setPlanState id st v p) = Function.update (phases p) id ((phases p id).map fun x => (phaseOf st, x.2)) := by
  funext k
  unfold setPlanState
  split
  · next none_ =>
    by_cases hk : k = id
    · subst hk; simp [phases, none_]
    · simp [hk]
  · next x hx =>
    by_cases hk : k = id
    · subst hk; simp [phases, hx, planCore]
    · simp [phases, hk, Laws.get?_set_other _ _ _ _ hk]

theorem phases_freePlan (id : Nat) (p : Part) : phases (freePlan id p) = Function.update (phases p) id none := by
  funext k
  by_cases hk : k = id <;> simp [phases, freePlan_plans, hk]

theorem phases_onPlan {f : Plan → Plan} (core : ∀ x, planCore (f x) = planCore x) : phases (p.onPlan id f) = phases p := by
  funext k
  simp only [phases, Part.onPlan, get?_modify, Option.map_map]
  congr 1
  funext x
  by_cases hk : k = id <;> simp [hk, core]

/-- A plan changed, but for its phase and its lists. -/
theorem steady_onPlan (id : Nat) {f : Plan → Plan} (core : ∀ x, planCore (f x) = planCore x) (p : Part) :
    Steady p (p.onPlan id f) :=
  Still.steady (still_of_eq rfl rfl rfl) (Laws.wf_modify _ _ _ _) (phases_onPlan core)

theorem phases_of_get? (h : p.plans.get? id = some x) : phases p id = some (planCore x) := by simp [phases, h]

theorem inert_of_idle (h : p.plans.get? id = some x) (idle : phaseOf x.state = .idle) : Inert (phases p id) := by
  rw [phases_of_get? h, planCore, idle]
  exact inert_idle _ _

theorem Quiet.steady (h : Quiet p q) : Steady p q := h.calm.steady

/-- Calm operations leave the phase of a plan that is not RELEASING. -/
theorem Calm.phase (h : Calm p q) (w : p.plans.wf 16 = true) (hx : p.plans.get? id = some x) (ne : x.state ≠ .releasing) :
    phases q id = phases p id := by
  rcases h.plans w id with same | ⟨z, hz, releasing, _⟩
  · exact same
  · rw [hx] at hz; cases hz; exact absurd releasing ne

theorem wf_setPlanState (id : Nat) (st : PlanState) (v : Option Nat) (w : p.plans.wf 16 = true) :
    (setPlanState id st v p).plans.wf 16 = true := by
  unfold setPlanState
  split
  · exact w
  · next hx => exact Laws.wf_set_used _ _ _ _ _ w hx

theorem wf_freePlan (id : Nat) (w : p.plans.wf 16 = true) : (freePlan id p).plans.wf 16 = true := by
  unfold freePlan
  split
  · exact w
  · dsimp only
    split
    · split
      · simpa using Laws.wf_erase _ _ _ w
      · exact Laws.wf_erase _ _ _ w
    · exact Laws.wf_erase _ _ _ w

theorem still_setPlanState (id : Nat) (st : PlanState) (v : Option Nat) (p : Part) : Still p (setPlanState id st v p) :=
  still_of_eq (by simp) (by simp) (by simp)

theorem still_freePlan (id : Nat) (p : Part) : Still p (freePlan id p) := still_of_eq (by simp) (by simp) (by simp)

/-! ## Holds given and dropped -/

theorem mem_addHolders (id : Nat) (vs : List Nat) (p : Part) : ∀ w v, (vs.foldl (fun p v => addHolder id v p) p).valves.get? w = some v →
    ∃ u, p.valves.get? w = some u ∧ ∀ k, k ∈ v.holders ↔ k ∈ u.holders ∨ (k = id ∧ w ∈ vs) := by
  induction vs generalizing p with
  | nil => exact fun w v hv => ⟨v, hv, by simp⟩
  | cons i vs ih =>
    intro w v hv
    obtain ⟨u, hu, mem⟩ := ih (addHolder id i p) w v hv
    simp only [addHolder, Part.onValve, get?_modify, Option.map_eq_some_iff] at hu
    obtain ⟨t, ht, rfl⟩ := hu
    refine ⟨t, ht, fun k => (mem k).trans ?_⟩
    by_cases hw : w = i
    · simp only [hw, if_true, List.mem_append, List.mem_cons]
      tauto
    · simp [hw]

/-- An idle plan becomes the holder of its valves (R109). -/
theorem kept_addHolders (h : Kept c p) {close hold : List Nat} (idle : c id = some (.idle, close, hold)) :
    Kept (Function.update c id (some (.holding, close, hold))) ((close ++ hold).foldl (fun p v => addHolder id v p) p) := by
  have trace : ((close ++ hold).foldl (fun p v => addHolder id v p) p).trace = p.trace :=
    Laws.foldl_keeps (·.trace) (fun p v => addHolder id v p) (fun _ _ => rfl) _ _
  refine ⟨fun w v k hv => ?_, by rw [trace]; exact h.queued, fun k => ?_, fun k => ?_⟩
  · obtain ⟨u, hu, mem⟩ := mem_addHolders id _ p w v hv
    rw [mem, h.holders w u k hu]
    by_cases hk : k = id
    · subst hk; simp [idle]
    · simp [hk]
  · rw [trace, h.requested]
    by_cases hk : k = id
    · subst hk; simp [idle]
    · simp [hk]
  · rw [trace, h.computing]
    by_cases hk : k = id
    · subst hk; simp [idle]
    · simp [hk]

/-- A plan that holds its valves loses its holds (R119). -/
theorem kept_dropHolders (h : Kept c p) {close hold : List Nat} (held : c id = some (.holding, close, hold)) :
    Kept (Function.update c id none) ((close ++ hold).foldl (fun p v => dropHolder id v p) p) := by
  have trace : ((close ++ hold).foldl (fun p v => dropHolder id v p) p).trace = p.trace :=
    Laws.foldl_keeps (·.trace) (fun p v => dropHolder id v p) (fun _ _ => rfl) _ _
  refine ⟨fun w v k hv => ?_, by rw [trace]; exact h.queued, fun k => ?_, fun k => ?_⟩
  · rw [dropHolders_get?] at hv
    obtain ⟨u, hu, rfl⟩ := Option.map_eq_some_iff.mp hv
    have mem := h.holders w u k hu
    by_cases hk : k = id
    · subst hk
      simp only [held, Option.some.injEq, Prod.mk.injEq, true_and] at mem
      simp only [Function.update_self, reduceCtorEq, false_and, exists_false, iff_false]
      split
      · simp
      · next out => rw [mem]; rintro ⟨_, _, ⟨rfl, rfl⟩, lists⟩; exact out (List.mem_append.mpr lists)
    · simp only [Function.update_of_ne hk]
      rw [← mem]
      split <;> simp [hk]
  · rw [trace, h.requested]
    by_cases hk : k = id
    · subst hk; simp [held]
    · simp [hk]
  · rw [trace, h.computing]
    by_cases hk : k = id
    · subst hk; simp [held]
    · simp [hk]

/-! ## The requests over plans -/

theorem plansAgree_executePlan (w : p.plans.wf 16 = true) (a : p.PlansAgree) (hx : p.plans.get? id = some x)
    (ready : x.state = .ready) : (executePlan id x p).PlansAgree := by
  have core : phases p id = some (.idle, x.closeList, x.holdList) := by rw [phases_of_get? hx, planCore, ready]; rfl
  have given := kept_addHolders (plansAgree_iff.mp a) core
  obtain ⟨plans, _⟩ := addHolder_fold id x.held p
  have before := phases_congr plans
  have ordered : Calm (x.held.foldl (fun p v => addHolder id v p) p)
      (x.closeList.foldl (fun p v => orderOp v .toClose (.plan id) p) (addHolders id x p)) :=
    ((calm_snoop x.held (some id) _).trans (quiet_foldl _ (fun q v => quiet_leaveReleases v (some id) q) x.held _).calm).trans
      (quiet_closeOrders (.plan id) x.closeList _).calm
  have w₁ : (x.held.foldl (fun p v => addHolder id v p) p).plans.wf 16 = true := by rw [plans]; exact w
  have alike := ordered.steady.alike w₁
  have phase := ordered.phase w₁ (by rw [plans]; exact hx) (by rw [ready]; decide)
  rw [before] at alike phase
  have kept := ordered.steady.toStill.kept given
  have w₂ := ordered.wf w₁
  unfold executePlan
  dsimp only
  generalize x.closeList.foldl (fun p v => orderOp v .toClose (.plan id) p) (addHolders id x p) = r at *
  have executing : (setPlanState id .executing none r).PlansAgree := by
    refine plansAgree_iff.mpr (((still_setPlanState id .executing none r).kept kept).alike ?_)
    rw [phases_setPlanState, phase, core]
    exact alike.update _
  exact ((quiet_afterCloses id _ _).then quiet_dispatchDecide).steady.plansAgree (wf_setPlanState id .executing none w₂) executing

theorem plansAgree_reissuePlan (w : p.plans.wf 16 = true) (a : p.PlansAgree) (hx : p.plans.get? id = some x) :
    (reissuePlan id x p).PlansAgree := by
  unfold reissuePlan
  generalize p.reissued x = order
  obtain ⟨act, vs⟩ := order
  have ordered := steady_orders act (.plan id) vs p
  have plans : (vs.foldl (fun p v => orderOp v act (.plan id) p) p).plans = p.plans :=
    Laws.foldl_keeps (·.plans) _ (fun q v => by simp) _ _
  have agree := ordered.plansAgree w a
  have w₁ := ordered.wf w
  dsimp only
  generalize vs.foldl (fun p v => orderOp v act (.plan id) p) p = q at *
  split
  · next blocked =>
    have clear := steady_onPlan id (f := fun q => { q with blocking := none }) (fun _ => rfl) q
    have again : Calm _ (setPlanState id .executing none (q.onPlan id fun q => { q with blocking := none })) :=
      calm_setPlanState fun _ y hy => by
        simp only [Part.onPlan, plans, Laws.get?_modify_same, hx, Option.map_some, Option.some.injEq] at hy
        rw [← hy, blocked]
        rfl
    exact (((clear.trans again.steady).trans (quiet_afterCloses id vs _).steady).trans
      (calm_dispatchDecide _).steady).plansAgree w₁ agree
  · exact (calm_dispatchDecide q).steady.plansAgree w₁ agree

/-- The plan's operations cancelled and its holds dropped: the holders are those of the other plans (R119, R120). -/
theorem kept_dropped {f : Nat → Operation → Bool} (w : p.plans.wf 16 = true) (a : p.PlansAgree) (hx : p.plans.get? id = some x)
    (holding : phaseOf x.state = .holding) : ∃ c, Kept (Function.update c id none) (dropHolders id x (cancelOps id x f p)) ∧
      Alike c (phases (dropHolders id x (cancelOps id x f p))) ∧ (dropHolders id x (cancelOps id x f p)).plans.wf 16 = true := by
  have cancelled := (quiet_cancelOps id x f p).calm
  have core : phases (cancelOps id x f p) id = some (.holding, x.closeList, x.holdList) := by
    rw [cancelled.phase w hx (by intro h; rw [h] at holding; cases holding), phases_of_get? hx, planCore, holding]
  have agree := plansAgree_iff.mp (cancelled.steady.plansAgree w a)
  have w₁ := cancelled.wf w
  unfold dropHolders
  generalize cancelOps id x f p = q at *
  have plans : (x.held.foldl (fun p v => dropHolder id v p) q).plans = q.plans :=
    Laws.foldl_keeps (·.plans) (fun p v => dropHolder id v p) (fun _ _ => rfl) _ _
  have snooped := (calm_snoop x.held (some id) (x.held.foldl (fun p v => dropHolder id v p) q)).steady
  refine ⟨phases q, snooped.toStill.kept (kept_dropHolders agree core), ?_, snooped.wf (by rw [plans]; exact w₁)⟩
  have alike := snooped.alike (by rw [plans]; exact w₁)
  rwa [phases_congr plans] at alike

theorem plansAgree_abortPlan (w : p.plans.wf 16 = true) (a : p.PlansAgree) (hx : p.plans.get? id = some x)
    (holding : phaseOf x.state = .holding) : (abortPlan id x p).PlansAgree := by
  unfold abortPlan
  obtain ⟨c, kept, alike, w₁⟩ := kept_dropped (f := fun _ o => o.live) w a hx holding
  generalize dropHolders id x (cancelOps id x (fun _ o => o.live) p) = q at *
  refine (calm_dispatchDecide _).steady.plansAgree (wf_freePlan id w₁) (plansAgree_iff.mpr ?_)
  rw [phases_freePlan]
  exact ((still_freePlan id q).kept kept).alike (alike.update none)

theorem plansAgree_releasePlan (w : p.plans.wf 16 = true) (a : p.PlansAgree) (hx : p.plans.get? id = some x)
    (holding : phaseOf x.state = .holding) : (releasePlan id x p).PlansAgree := by
  unfold releasePlan
  obtain ⟨c, kept, alike, w₁⟩ := kept_dropped (f := fun v o => o.endsAtRelease ((p.reopened id x).contains v)) w a hx holding
  dsimp only
  generalize dropHolders id x (cancelOps id x (fun v o => o.endsAtRelease ((p.reopened id x).contains v)) p) = q at *
  generalize p.reopened id x = vs
  have ordered : Steady q (vs.foldl (fun p v => orderOp v .toOpen (.plan id) p) (q.onPlan id fun q => { q with releaseList := vs })) :=
    (steady_onPlan id (f := fun q => { q with releaseList := vs }) (fun _ => rfl) q).trans (steady_orders _ _ vs _)
  have k₁ := ordered.toStill.kept kept
  have a₁ := alike.trans (ordered.alike w₁)
  have w₂ := ordered.wf w₁
  generalize vs.foldl (fun p v => orderOp v .toOpen (.plan id) p) (q.onPlan id fun q => { q with releaseList := vs }) = r at *
  have inert : Inert ((phases r id).map fun x => (phaseOf .releasing, x.2)) := by
    intro y hy
    obtain ⟨z, _, rfl⟩ := Option.map_eq_some_iff.mp hy
    exact .inr rfl
  have k₂ := (still_setPlanState id .releasing none r).kept k₁
  have w₃ := wf_setPlanState id .releasing none w₂
  have a₂ : Alike (Function.update c id none) (phases (setPlanState id .releasing none r)) := by
    rw [phases_setPlanState]
    exact a₁.update_inert inert_none inert
  generalize setPlanState id .releasing none r = t at *
  split
  · refine (calm_dispatchDecide _).steady.plansAgree (wf_freePlan id w₃) (plansAgree_iff.mpr ?_)
    rw [phases_freePlan]
    refine ((still_freePlan id t).kept k₂).alike ?_
    simpa using a₂.update (id := id) none
  · exact (calm_dispatchDecide _).steady.plansAgree w₃ (plansAgree_iff.mpr (k₂.alike a₂))

/-- A plan that holds nothing, with no job queued or under way, goes FREE (R107). -/
theorem plansAgree_dropPlan (a : p.PlansAgree) (hx : p.plans.get? id = some x) (idle : phaseOf x.state = .idle) :
    (freePlan id p).PlansAgree := by
  refine plansAgree_iff.mpr ?_
  rw [phases_freePlan]
  refine ((still_freePlan id p).kept (plansAgree_iff.mp a)).alike ?_
  have := (Alike.refl (phases p)).update_inert (id := id) (inert_of_idle hx idle) inert_none
  rwa [Function.update_eq_self] at this

/-- A new plan, and its job at the tail of the queue (R87, R101). -/
theorem plansAgree_requestPlan (w : p.plans.wf 16 = true) (a : p.PlansAgree) (free : p.plans.firstFree 16 = some id)
    (target : Nat) (incident : Option Nat) : (requestPlan id target incident p).PlansAgree := by
  obtain ⟨low, none_⟩ := Laws.firstFree_spec _ _ _ free
  have core : phases p id = none := by simp [phases, none_]
  obtain ⟨holders, queued, requested, computing⟩ := plansAgree_iff.mp a
  have new : Part.PlansAgree { p with
      plans := p.plans.set id (planRequested target incident p.time)
      trace := { p.trace with planQueue := p.trace.planQueue ++ [id] } } := by
    refine plansAgree_iff.mpr ?_
    have same : phases { p with
        plans := p.plans.set id (planRequested target incident p.time)
        trace := { p.trace with planQueue := p.trace.planQueue ++ [id] } } =
          Function.update (phases p) id (some (.queued, [], [])) := by
      funext k
      by_cases hk : k = id
      · subst hk; simp [phases, planCore, planRequested, phaseOf]
      · simp [phases, hk, Laws.get?_set_other _ _ _ _ hk]
    rw [same]
    have out : id ∉ p.trace.planQueue := by simp [requested, core]
    refine ⟨fun v valve k hv => (holders v valve k hv).trans ?_, ?_, fun k => ?_, fun k => (computing k).trans ?_⟩
    · by_cases hk : k = id <;> simp [hk, core]
    · exact List.nodup_append.mpr ⟨queued, by simp, by simpa using fun _ h => ne_of_mem_of_not_mem h out⟩
    · rw [List.mem_append, requested]
      by_cases hk : k = id <;> simp [hk, core]
    · by_cases hk : k = id <;> simp [hk, core]
  have linked : Calm { p with
      plans := p.plans.set id (planRequested target incident p.time)
      trace := { p.trace with planQueue := p.trace.planQueue ++ [id] } } (requestPlan id target incident p) := by
    unfold requestPlan
    dsimp only
    refine Calm.then ?_ (calm_place _)
    split
    · exact .refl _
    · exact calm_putIncident _ _ _
  exact linked.steady.plansAgree (Laws.wf_set _ 16 id _ w low) new

theorem plansAgree_operateValve (v : Nat) (act : Action) (w : p.plans.wf 16 = true) (a : p.PlansAgree) :
    (operateValve v act p).PlansAgree :=
  (((steady_orderOp v act .host p).trans (quiet_leaveReleases v none _).steady).trans (calm_dispatchDecide _).steady).plansAgree w a

/-- With no plan, a valve without a holder can be defined. -/
theorem plansAgree_defineValve (a : p.PlansAgree) (none_ : p.plans.entries = []) {v : Valve} (free : v.holders = []) :
    Part.PlansAgree { p with valves := p.valves.set id v } := by
  refine ⟨fun w u k hu => ?_, a.queued, a.requested, a.computing⟩
  replace hu : (p.valves.set id v).get? w = some u := hu
  rw [get?_set] at hu
  split at hu
  · cases hu
    simp [free, get?_of_entries_nil none_]
  · exact a.holders w u k hu

theorem plansAgree_planActs (w : p.plans.wf 16 = true) (a : p.PlansAgree) (rest : p.link.partState ≠ .running → p.AtRest)
    (h : PlanActs p q) : q.PlansAgree := by
  cases h with
  | defineValve id v loading free _ => exact plansAgree_defineValve a (rest (by rw [loading]; decide)).plans free
  | requestPlan id target incident free => exact plansAgree_requestPlan w a free target incident
  | dropPlan id x hx state => exact plansAgree_dropPlan a hx (by rcases state with h | h | h <;> rw [h] <;> rfl)
  | executePlan id x hx ready _ => exact plansAgree_executePlan w a hx ready
  | reissuePlan id x hx _ => exact plansAgree_reissuePlan w a hx
  | abortPlan id x hx state => exact plansAgree_abortPlan w a hx (phaseOf_holding.mpr state)
  | releasePlan id x hx isolated => exact plansAgree_releasePlan w a hx (by rw [isolated]; rfl)
  | operateValve v x act _ _ => exact plansAgree_operateValve v act w a

/-! ## The trace engine's jobs -/

theorem phases_startJob (e : Engine) (b : Bool) (t : Trace) : phases (startJob e b { p with trace := t }) = phases p :=
  phases_congr rfl

theorem plansAgree_jobStarts (a : p.PlansAgree) : (jobStarts p).PlansAgree := by
  obtain ⟨holders, queued, requested, computing⟩ := plansAgree_iff.mp a
  unfold jobStarts
  split
  · exact a
  · next idle =>
    have idle : p.trace.engine = .idle := by simpa using idle
    have none_ (k : Nat) : ¬∃ close hold, phases p k = some (.computed, close, hold) := by
      rw [← computing, idle]; simp
    split
    · next c _ =>
      exact plansAgree_iff.mpr ⟨holders, queued, requested, fun k => by rw [phases_startJob]; simpa [startJob] using none_ k⟩
    · split
      · exact a
      · next id rest head =>
        rw [head] at queued requested
        obtain ⟨out, nodup⟩ := List.nodup_cons.mp queued
        obtain ⟨close, hold, core⟩ := (requested id).mp List.mem_cons_self
        refine plansAgree_iff.mpr ?_
        rw [phases_setPlanState, phases_startJob, core, Option.map_some]
        refine ⟨fun v valve k hv => ?_, ?_, fun k => ?_, fun k => ?_⟩
        · rw [Laws.f_setPlanState_valves] at hv
          refine (holders v valve k hv).trans ?_
          by_cases hk : k = id <;> simp [hk, core, phaseOf]
        · simpa [startJob] using nodup
        · rw [Laws.f_setPlanState_trace]
          have := requested k
          by_cases hk : k = id
          · subst hk; simp [startJob, out, phaseOf]
          · simpa [hk, startJob] using this
        · rw [Laws.f_setPlanState_trace]
          by_cases hk : k = id
          · subst hk; simp [startJob, phaseOf]
          · simpa [hk, startJob, Ne.symm hk] using none_ k

theorem phaseOf_settledState (r : PlanResult) (vs : List Nat) : phaseOf (settledState r vs) = .idle := by
  unfold settledState
  split
  · rfl
  · split <;> rfl

theorem plansAgree_planJobEnds (a : p.PlansAgree) : (planJobEnds p).PlansAgree := by
  obtain ⟨holders, queued, requested, computing⟩ := plansAgree_iff.mp a
  unfold planJobEnds
  split
  · next id w engine _ =>
    obtain ⟨close, hold, core⟩ := (computing id).mp engine
    dsimp only
    have idle : Kept (Function.update (phases p) id none)
        { p with trace := { p.trace with engine := .idle, view := none, changeSet := [] } } := by
      refine ⟨fun v valve k hv => (holders v valve k hv).trans ?_, queued, fun k => (requested k).trans ?_, fun k => ?_⟩
      · by_cases hk : k = id <;> simp [hk, core]
      · by_cases hk : k = id <;> simp [hk, core]
      · have := computing k
        rw [engine] at this
        by_cases hk : k = id
        · simp [hk]
        · simpa [hk, Ne.symm hk] using this
    refine plansAgree_iff.mpr (((still_of_eq (by simp [Part.onPlan]) (by simp [Part.onPlan]) (by simp [Part.onPlan]) :
      Still _ (setPlanState id _ none _)).kept idle).alike fun k => ?_)
    rw [phases_setPlanState, phaseOf_settledState]
    by_cases hk : k = id
    · subst hk
      refine .inr ⟨by simpa using inert_none, fun y hy => ?_⟩
      simp only [Function.update_self, Option.map_eq_some_iff] at hy
      obtain ⟨z, _, rfl⟩ := hy
      exact .inl rfl
    · left
      simp [hk, phases, Part.onPlan, Laws.get?_modify_other _ _ _ _ hk]
  · exact a

theorem plansAgree_traceEnds (w : p.plans.wf 16 = true) (a : p.PlansAgree) : (traceEnds p).PlansAgree := by
  unfold traceEnds
  split
  · next c view engine _ =>
    rw [completeTrace_eq]
    have joined := calm_joinTraced c view p
    have agree := joined.steady.plansAgree w a
    have w₁ := joined.wf w
    have busy := joined.engine
    generalize joinOutage (joinersOf (lostInTrace view p)) c
      (loseMembers (lostInTrace view p) (markSegments (changedByTrace view p) (writeTrace view p))) = q at *
    have idle : (idleEngine q).PlansAgree := by
      refine ⟨agree.holders, agree.queued, agree.requested, fun k => ?_⟩
      have := agree.computing k
      rw [busy, engine] at this
      simpa [idleEngine] using this
    exact ((calm_endRelights _ _).then calm_dispatchDecide).steady.plansAgree w₁ idle
  · exact a

theorem plansAgree_timed (w : p.plans.wf 16 = true) (a : p.PlansAgree) (h : Timed p q) : q.PlansAgree := by
  rcases quiet_of_timed h with quiet | ⟨_, _, rfl⟩ | rfl | rfl | rfl
  · exact quiet.steady.plansAgree w a
  · exact ⟨a.holders, a.queued, a.requested, a.computing⟩
  · exact plansAgree_jobStarts a
  · exact plansAgree_traceEnds w a
  · exact plansAgree_planJobEnds a

theorem plansAgree_acts (w : p.plans.wf 16 = true) (a : p.PlansAgree) (rest : p.link.partState ≠ .running → p.AtRest)
    (h : Acts p q) : q.PlansAgree := by
  rcases calm_of_acts h with calm | plan
  · exact calm.steady.plansAgree w a
  · exact plansAgree_planActs w a rest plan

end

end Sys2Proof.Proofs
end

section
/-!
Outside RUNNING nothing is under way (R14, R22, R42, R45): the requests and the events that the part takes there leave it
so.
-/

namespace Sys2Proof.Proofs

open Sys2Proof Sys2Proof.Machine

section
variable {p q : Part}

/-! ## The lines -/

/-- A line written, that stays STOPPED with nothing in transaction. -/
theorem atRest_onLine (rest : p.AtRest) (n : Nat) {f : Line → Line}
    (still : ∀ l, l.cond = .stopped ∧ l.txn? = none → (f l).cond = .stopped ∧ (f l).txn? = none) : (p.onLine n f).AtRest :=
  { plans := rest.plans, incidents := rest.incidents, calls := rest.calls, outages := rest.outages, crews := rest.crews
    segments := rest.segments, engine := rest.engine, points := rest.points
    lines := fun m => by
      rcases line_onLine_cases p m n f with new | same
      · rw [new]; exact still _ (rest.lines m)
      · rw [same]; exact rest.lines m }

theorem wakeLine_stopped {n : Nat} (stopped : (p.line n).cond = .stopped) : wakeLine n p = p := by
  simp [wakeLine, stopped]

theorem chooseTransaction_stopped {n : Nat} (stopped : (p.line n).cond = .stopped) : chooseTransaction n p = restLine n p := by
  have polls : pollsEnd n p = p := by simp [pollsEnd, stopped]
  simp only [chooseTransaction, polls, ite_self, takeTurn, stopped]

theorem atRest_chooseTransaction (rest : p.AtRest) (n : Nat) : (chooseTransaction n p).AtRest := by
  rw [chooseTransaction_stopped (rest.lines n).1]
  exact atRest_onLine rest n fun l h => ⟨h.1, rfl⟩

theorem atRest_offerCommand (rest : p.AtRest) (c : Command) : (offerCommand c p).1.AtRest := by
  have queued (f : Line → List Command) : (wakeLine (lineOf c.outstation) (p.onLine (lineOf c.outstation) fun l =>
      { l with queue := f l })).AtRest := by
    have kept := atRest_onLine rest (lineOf c.outstation) (f := fun l => { l with queue := f l }) fun l h => h
    rw [wakeLine_stopped (kept.lines _).1]
    exact kept
  unfold offerCommand
  dsimp only
  split
  · exact rest
  · split
    · exact queued _
    · split
      · exact rest
      · split
        · exact rest
        · exact queued _

theorem atRest_offerStop (rest : p.AtRest) (v : Nat) : (offerStop v p).AtRest := by
  unfold offerStop
  split
  · exact rest
  · exact atRest_offerCommand rest _

/-! ## The events -/

/-- With no plan, a valve's operation leads on to nothing. -/
theorem planCourse_unplanned (none_ : p.plans.entries = []) (ts : List Touched) : planCourse ts p = p := by
  have leave (id v : Nat) : leaveReleaseOf id v p = p := by
    unfold leaveReleaseOf
    rw [get?_of_entries_nil none_]
  have course (t : Touched) : courseOf t p = p := by
    unfold courseOf
    simp only [leave]
    split
    · split <;> simp [Table.idsWhere, none_]
    · simp [Table.idsWhere, none_]
  unfold planCourse
  induction ts with
  | nil => rfl
  | cons t ts ih => rw [List.foldl_cons, course t, ih]

theorem atRest_setOpState (rest : p.AtRest) (v : Nat) (st : OpState) (n : Notice) : (place n (setOpState v st none p)).AtRest :=
  { plans := rest.plans, incidents := rest.incidents, calls := rest.calls, outages := rest.outages, crews := rest.crews
    segments := rest.segments, engine := rest.engine, points := rest.points, lines := rest.lines }

theorem atRest_panel (rest : p.AtRest) (f : Panel → Panel) : (p.onPanel f).AtRest :=
  { plans := rest.plans, incidents := rest.incidents, calls := rest.calls, outages := rest.outages, crews := rest.crews
    segments := rest.segments, engine := rest.engine, points := rest.points, lines := rest.lines }

theorem atRest_travelEnds (rest : p.AtRest) (off : p.link.partState ≠ .running) (v : Nat) : (travelEnds v p).AtRest := by
  unfold travelEnds
  split
  · exact rest
  · next o ho =>
    split
    · next due =>
      simp only [Bool.and_eq_true, decide_eq_true_eq] at due
      have failed : (failOp v .travel p).AtRest := by
        simp only [failOp, ho, due.1.1, reduceCtorEq, if_false]
        exact atRest_setOpState rest _ _ _
      have stopped := atRest_offerStop failed v
      rw [planCourse_unplanned stopped.plans, dispatchDecide_resting (.inl (by rw [Laws.f_offerStop_link, (quiet_failOp v .travel p).mild.state]; exact off))]
      exact stopped
    · exact rest

theorem phase_of_txn {l : Line} (h : l.txn? = none) : l.phase = .idle ∨ ∃ since rate, l.phase = .quiet since rate := by
  unfold Line.txn? at h
  cases hp : l.phase <;> simp [hp] at h ⊢

/-- On a STOPPED line with nothing in transaction, no event of a frame or of a cycle comes due. -/
theorem lineEvents_stopped (rest : p.AtRest) (n : Nat) : frameLeaves n p = p ∧ windowEnds n p = p ∧ gapEnds n p = p ∧
    (∀ b low, fieldByte n b low p = p) ∧ periodEnds n p = p := by
  have period : periodEnds n p = p := by simp [periodEnds, (rest.lines n).1]
  rcases phase_of_txn (rest.lines n).2 with h | ⟨_, _, h⟩ <;>
    simp [frameLeaves, windowEnds, gapEnds, fieldByte, Part.fieldByteCase, h, period]

/-- Nor does an expiry of a point, an incident or an offer, or a job of the trace engine. -/
theorem timers_resting (rest : p.AtRest) (agree : p.PlansAgree) : (∀ id, rideThroughEnds id p = p) ∧
    (∀ id, escalationDue id p = p) ∧ (∀ id, offerEnds id p = p) ∧ jobStarts p = p ∧ traceEnds p = p ∧ planJobEnds p = p := by
  obtain ⟨engine, cause⟩ := rest.engine
  have queue : p.trace.planQueue = [] := List.eq_nil_iff_forall_not_mem.mpr fun id queued => by
    obtain ⟨x, hx, _⟩ := (agree.requested id).mp queued
    rw [get?_of_entries_nil rest.plans] at hx
    cases hx
  refine ⟨fun id => ?_, fun id => ?_, fun id => ?_, by simp [jobStarts, engine, cause, queue], by simp [traceEnds, engine],
    by simp [planJobEnds, engine]⟩
  · unfold rideThroughEnds
    split
    · rfl
    · next pt hpt =>
      split
      · rfl
      · next seg cfg st body => rw [rest.points id pt hpt seg cfg st body]
  · simp [escalationDue, Part.incident?, get?_of_entries_nil rest.incidents]
  · unfold offerEnds
    split
    · rfl
    · next c hc => rw [rest.crews id c hc]

theorem atRest_timed (rest : p.AtRest) (off : p.link.partState ≠ .running) (agree : p.PlansAgree) (h : Timed p q) : q.AtRest := by
  have decided : (dispatchDecide p).AtRest := by rw [dispatchDecide_resting (.inl off)]; exact rest
  obtain ⟨ride, escalation, offer, job, trace, plan⟩ := timers_resting rest agree
  cases h with
  | same => exact rest
  | arbiter => exact decided
  | quietEnds n _ =>
    unfold quietEnds
    split
    · rw [dispatchDecide_resting (.inl (by simpa using off))]
      exact atRest_chooseTransaction rest n
    · exact decided
  | frameLeaves n _ => rw [(lineEvents_stopped rest n).1]; exact decided
  | windowEnds n _ => rw [(lineEvents_stopped rest n).2.1]; exact decided
  | gapEnds n _ => rw [(lineEvents_stopped rest n).2.2.1]; exact decided
  | fieldByte n b low _ => rw [(lineEvents_stopped rest n).2.2.2.1 b low]; exact decided
  | periodEnds n _ => rw [(lineEvents_stopped rest n).2.2.2.2]; exact decided
  | rideThroughEnds id => rw [ride]; exact decided
  | jobStarts => rw [job]; exact rest
  | traceEnds => rw [trace]; exact rest
  | planJobEnds => rw [plan]; exact rest
  | travelEnds v => exact atRest_travelEnds rest off v
  | escalationDue id => rw [escalation]; exact rest
  | offerEnds id => rw [offer]; exact rest
  | packAcknowledged => rw [packAcknowledged_resting off]; exact rest
  | packFalls =>
    unfold packFalls
    split
    · exact atRest_panel rest _
    · exact rest
  | packRises =>
    unfold packRises
    rw [packAcknowledged_resting off]
    split
    · exact atRest_panel rest _
    · exact rest
  | testEnds =>
    unfold testEnds
    split
    · exact atRest_panel rest _
    · exact rest
  | keepaliveEnds =>
    unfold keepaliveEnds
    split
    · exact atRest_panel (atRest_panel rest fun a => { a with forces := ⟨[]⟩, testEnd := none }) fun a => { a with
        supervision := { a.supervision with unattended := true, expiry := none, returnCount := 0, since := p.time } }
    · exact rest

/-! ## The requests of the load -/

theorem atRest_acts (rest : p.AtRest) (off : p.link.partState ≠ .running) (h : Acts p q) (off' : q.link.partState ≠ .running) :
    q.AtRest := by
  obtain ⟨plans, incidents, calls, outages, crews, segments, engine, points, lines⟩ := id rest
  cases h with
  | setNotices m => exact ⟨plans, incidents, calls, outages, crews, segments, engine, points, lines⟩
  | beginLoad unloaded => exact ⟨plans, incidents, calls, outages, crews, segments, engine, points, lines⟩
  | endLoad loading _ => exact absurd (enterRunning_spec p).1 off'
  | setLine n rate window period limit _ => exact atRest_onLine rest n fun l h => h
  | defineOutstation id kind _ _ => exact ⟨plans, incidents, calls, outages, crews, segments, engine, points, lines⟩
  | definePoint id os input district group body _ _ fresh =>
    refine ⟨plans, incidents, calls, outages, crews, segments, engine, fun k pt hpt seg cfg st hb => ?_, lines⟩
    dsimp only at hpt
    rw [get?_set] at hpt
    split at hpt
    · cases hpt
      rw [fresh seg cfg st hb]
    · exact points k pt hpt seg cfg st hb
  | defineDistrict id lamp _ _ => exact ⟨plans, incidents, calls, outages, crews, segments, engine, points, lines⟩
  | defineSegment id d tier cs pr vs _ _ =>
    refine ⟨plans, incidents, calls, outages, crews, fun k x hx => ?_, engine, points, lines⟩
    dsimp only at hx
    rw [get?_set] at hx
    split at hx
    · cases hx; exact ⟨rfl, rfl⟩
    · exact segments k x hx
  | defineValve => exact ⟨plans, incidents, calls, outages, crews, segments, engine, points, lines⟩
  | defineFeed => exact ⟨plans, incidents, calls, outages, crews, segments, engine, points, lines⟩
  | defineCrew id kind home state _ _ _ =>
    refine ⟨plans, incidents, calls, outages, fun k c hc => ?_, segments, engine, points, lines⟩
    dsimp only at hc
    rw [get?_set] at hc
    split at hc
    · cases hc; rfl
    · exact crews k c hc
  | setResponse a b c i _ =>
    unfold bringAllForward
    rw [if_neg (by simpa [Part.isRunning] using off)]
    exact ⟨plans, incidents, calls, outages, crews, segments, engine, points, lines⟩
  | setDispatch r t _ =>
    have same := dispatchDecide_resting (p := { p with
      dispatch := { p.dispatch with reloads := r, levels := r, offerTime := t } }) (.inl off)
    rw [same]
    exact ⟨plans, incidents, calls, outages, crews, segments, engine, points, lines⟩
  | _ => contradiction

end

/-! ## Every event -/

section
variable {p q : Part}

theorem recordsAgree_of (a : Agrees p) (plans : p.PlansAgree) (rest : p.link.partState ≠ .running → p.AtRest) : p.RecordsAgree :=
  ⟨a.tables, a.outages, districtsAgree_iff.mpr ⟨a.opened, a.active, a.suspects⟩, plans, a.incidents, a.crews, rest⟩

/-- The link, the clock and the panel say nothing of the records but for the part state. -/
theorem agrees_beside (a : Agrees p) (l : Link) (n : Nat) {panel : Panel} (forces : panel.forces = p.panel.forces) :
    Agrees { p with link := l, clock := n, panel := panel } := by
  obtain ⟨tables, ⟨member, active, relit, sums, ended⟩, ⟨one, listed, named⟩, ⟨crew, busy, leaks, relights⟩, opened,
    counted, suspects⟩ := a
  exact ⟨by simpa only [Part.tablesOk, forces] using tables, ⟨member, active, relit, sums, ended⟩, ⟨one, listed, named⟩,
    ⟨crew, busy, leaks, relights⟩, opened, counted, suspects⟩

theorem Silenced.agrees (h : Silenced p q) (a : Agrees p) : Agrees q := by
  obtain ⟨_, _, rfl⟩ := h
  exact agrees_beside a p.link p.clock rfl

theorem recordsAgree_beside (h : p.RecordsAgree) (l : Link) (n : Nat) (state : l.partState = p.link.partState) :
    Part.RecordsAgree { p with link := l, clock := n } := by
  refine recordsAgree_of (agrees_beside (agrees_of_records h) l n rfl)
    ⟨h.plans.holders, h.plans.queued, h.plans.requested, h.plans.computing⟩ fun off => ?_
  have rest := h.rest (state ▸ off)
  exact ⟨rest.plans, rest.incidents, rest.calls, rest.outages, rest.crews, rest.segments, rest.engine, rest.points, rest.lines⟩

theorem plans_wf (t : p.tablesOk) : p.plans.wf 16 = true := by
  obtain ⟨_, _, _, _, _, _, plans, _⟩ := t
  exact plans

theorem recordsAgree_acts (h : p.RecordsAgree) (act : Acts p q) : q.RecordsAgree := by
  have a := agrees_of_records h
  have agrees : Agrees q := by
    rcases acts_cases act with mild | silenced | records
    · exact mild.agrees a
    · exact silenced.agrees a
    · exact agrees_recordActs a h.rest (serves_of_acts act).tables records
  refine recordsAgree_of agrees (plansAgree_acts (plans_wf h.tables) h.plans h.rest act) fun off' => ?_
  have off : p.link.partState ≠ .running := mt (running_of_acts act) off'
  exact atRest_acts (h.rest off) off act off'

theorem recordsAgree_timed (h : p.RecordsAgree) (time : Timed p q) : q.RecordsAgree := by
  have a := agrees_of_records h
  have agrees : Agrees q := by
    rcases timed_cases time with mild | silenced | rfl
    · exact mild.agrees a
    · exact silenced.agrees a
    · unfold traceEnds
      split
      · exact agrees_completeTrace a _ _
      · exact a
  refine recordsAgree_of agrees (plansAgree_timed (plans_wf h.tables) h.plans time) fun off' => ?_
  have off : p.link.partState ≠ .running := (moves_of_timed time).link.partState ▸ off'
  exact atRest_timed (h.rest off) off h.plans time

end

/-- Settles O60: every event keeps the records in agreement. Those of outages, districts, incidents and crews follow from
what each operation does to the sums over the tables, those of the plans from the phases that each plan takes, and
outside RUNNING no operation finds anything to do. -/
theorem everyStepKeepsTheRecordsInAgreement : Obligations.EveryStepKeepsTheRecordsInAgreement := by
  intro s t h hs
  exact step_keeps (I := Part.RecordsAgree) (fun p l state h => recordsAgree_beside h l p.clock state)
    (fun _ _ h act => recordsAgree_acts h act) (fun _ _ h time => recordsAgree_timed h time)
    (fun c r e l => released_agrees c r e l) (fun p n h => recordsAgree_beside h p.link n rfl) h hs

end Sys2Proof.Proofs
end
